-- ==== Sys2Proof/Word.lean ====
section
/-! DEFINITION. The word types of the model: bytes, octet strings and the natural numbers that registers hold.
A register's value is kept as the natural number that its encoded octets spell, most significant octet first
(R29); two's complement types are read through `toS`. -/

namespace Sys2Proof

/-- One octet. -/
abbrev Byte := BitVec 8

/-- A string of octets, first octet first. -/
abbrev Bytes := List Byte


end Sys2Proof
end

