-- ==== Sys2Proof/Syntax.lean ====
section
/-! DEFINITION. The commands of the device: one constructor per row of spec/opcode_table.json, with the row's operands.
`w` is an object window, 4 × function + window (R48): its plane is H on function 0 and M on function 1. -/

namespace Sys2Proof

/-- What a plain read or write names: an object through a window, a BAR0 register of a function (R48 to R55, R359, R360),
or a word of a user counter page in BAR2, 8 octets or the half of one (R370). -/
inductive Target where
  | obj (w key : Nat)
  | bar (f offset : Nat)
  | page (g word : Nat)
  | half (g half : Nat)
  deriving DecidableEq, Repr

/-- The commands. -/
inductive Instr where
  /-- READ (R33). Object read operation from a window, batch or UOP list; it returns the value and clears it in the same step where the object is RC. -/
  | read (t : Target)
  /-- WRITE (R33). Object write operation, checked in the order of R33; this row also covers writes to registers that have no row of their own. -/
  | write (t : Target) (data : Bytes)
  /-- READ_SHADOW (R35). Reads the shadow-bank value of a staged object. -/
  | readShadow (w : Nat) (key : Nat)
  /-- COMMIT (R36). Commit request (1020h.01 = 1 or the COMMIT operation): it is accepted with a new epoch, or it is not a commit. -/
  | commit (w : Nat)
  /-- DISCARD (R37). Discard request (1020h.01 = 2 or the DISCARD operation): reloads the owned shadow banks from the lit banks and releases ownership. -/
  | discard (w : Nat)
  /-- PEGGED_WRITE (R41). A write to a pegged object without flag S takes its own epoch and writes copies A, B and C with read-back. -/
  | peggedWrite (w : Nat) (key : Nat) (data : Bytes) (fail : List Nat)
  /-- AREA_SWAP (R36). An area reaches its safe boundary and swaps shadow to lit for an accepted commit. -/
  | areaSwap (a : Nat) (part : Nat)
  /-- SHADOW_COPY_START (R177). A bay starts copying the new lit bank into its shadow once no frame of the old bank remains. -/
  | shadowCopyStart (a : Nat)
  /-- SHADOW_COPY_DONE (R24). The copy of lit content into the shadow ends and the bank becomes clean for staged writes. -/
  | shadowCopyDone (a : Nat)
  /-- BANK_BREAK (R38). A write of 1020h.06 breaks the other plane's idle ownership of an area and discards its shadow bank. -/
  | bankBreak (w : Nat) (a : Nat)
  /-- PEG_SCRUB_PASS (R42). Every 60 s on the always-on clock, all pegged objects are compared and repaired. -/
  | pegScrubPass (bad : List Nat)
  /-- TBL_FIND (R53). Table operation returning the address and entry of a key. -/
  | tblFind (k : Nat) (ix : Nat) (sub : Nat) (shadow : Bool) (entry : Bytes)
  /-- TBL_INSERT (R53). Table operation inserting an entry. -/
  | tblInsert (k : Nat) (ix : Nat) (sub : Nat) (shadow : Bool) (addr : Nat) (entry : Bytes)
  /-- TBL_DELETE (R53). Table operation deleting the entry of a key. -/
  | tblDelete (k : Nat) (ix : Nat) (sub : Nat) (shadow : Bool) (addr : Nat) (entry : Bytes)
  /-- TBL_UPDATE (R53). Table operation replacing the non-key fields at an address. -/
  | tblUpdate (k : Nat) (ix : Nat) (sub : Nat) (shadow : Bool) (addr : Nat) (entry : Bytes)
  /-- TBL_NEXT (R53). Table operation returning the next occupied address at or above a cursor. -/
  | tblNext (k : Nat) (ix : Nat) (sub : Nat) (shadow : Bool) (cursor : Nat)
  /-- WINDOW_WRITE_IGNORED (R48). A write to a window register while BUSY is set is ignored and counted. -/
  | windowWriteIgnored (table : Bool) (w : Nat)
  /-- BATCH_ENABLE (R50). Setting BATCH_CTRL[0] starts the batch engine, or sets the configuration error when the ring size is invalid. -/
  | batchEnable (f : Nat) (ie : Bool)
  /-- BATCH_ERROR_CLEAR (R50). A W1C write clears the batch configuration error bit. -/
  | batchErrorClear (f : Nat)
  /-- BATCH_DESCRIPTOR (R52). The engine reads the next descriptor, executes its operation list, writes the results and sets DONE. -/
  | batchDescriptor (f : Nat) (desc : Bytes) (ops : Bytes) (readErr : Nat) (writeErr : Bool)
  /-- UOP_REQUEST (R58). A UOP message is checked for rate, format, session, tag and replay, then executed and answered. -/
  | uopRequest (chan : Bool) (num : Nat) (data : Bytes)
  /-- HDLC_FRAME (R63). An HDLC frame received on a data channel is unescaped, checked and handed over as a UOP message. -/
  | hdlcFrame (c : Nat) (octets : Bytes)
  /-- SESSION_KEY_WRITE (R59). A session key write resets H and the replay record. -/
  | sessionKeyWrite (w : Nat) (k : Nat) (key : Bytes)
  /-- CROSSING_STALL (R15). The crossing watchdog expires and the far island is declared stalled, with the action set for its kind. -/
  | crossingStall (i : Nat) (src : Nat)
  /-- ISLAND_RECOVER (R15). A stalled island accepts data again and its state returns to running. -/
  | islandRecover (i : Nat)
  /-- RECONFIGURE_DONE (R67). The lanes of the new mode are powered and started, and the port enters state 1. -/
  | reconfigureDone (p : Nat)
  /-- LANE_SIGNAL_DETECT (R72). A lane detects signal and starts receiver adaptation. -/
  | laneSignalDetect (l : Nat)
  /-- LANE_ADAPT_DONE (R72). Receiver adaptation of a lane completes. -/
  | laneAdaptDone (l : Nat) (ctle : Nat) (dfe : Nat) (snr : Nat)
  /-- LOS_DECLARE (R82). A used lane's signal has been below threshold for 100 ns and LOS is set. -/
  | losDeclare (l : Nat)
  /-- LOS_CLEAR (R82). The signal has been above threshold for 1 µs and LOS clears. -/
  | losClear (l : Nat)
  /-- CDR_LOCK_CHANGE (R82). A used lane gains or loses CDR lock. -/
  | cdrLockChange (l : Nat) (locked : Bool)
  /-- FEC_LOCK_CHANGE (R82). FEC or alignment-marker lock is gained or lost. -/
  | fecLockChange (p : Nat) (locked : Bool)
  /-- DESKEW_FAULT (R82). Lane skew goes beyond, or returns within, the IEEE 802.3 limits. -/
  | deskewFault (p : Nat) (on : Bool)
  /-- REMOTE_FAULT_RX (R82). Remote fault signalling starts or stops arriving from the partner. -/
  | remoteFaultRx (p : Nat) (on : Bool)
  /-- LOCAL_FAULT_RX (R82). Local fault signalling starts or stops arriving. -/
  | localFaultRx (p : Nat) (on : Bool)
  /-- RX_PPM_MEASURE (R77). Each second the receive clock offset is measured, and cut-through is inhibited or resumed. -/
  | rxPpmMeasure (p : Nat) (ofs : Int)
  /-- ERR_INJECT (R78). A write of 2040h.06 injects bit errors into the generated pattern. -/
  | errInject (w : Nat) (l : Nat) (n : Nat)
  /-- CHK_LOCK_LOSS (R78). A pattern checker loses lock after holding it for at least 1 ms. -/
  | chkLockLoss (l : Nat)
  /-- PORT_ADMIN (R81). A write of 2400h.02 enables or disables the port. -/
  | portAdmin (w : Nat) (p : Nat) (on : Bool)
  /-- UP_HOLD_EXPIRY (R81). The up-hold time passes with no fault and the port enters state 3. -/
  | upHoldExpiry (p : Nat)
  /-- DOWN_HOLDOFF_EXPIRY (R81). The down hold-off passes with the fault still present, which gives a declared down. -/
  | downHoldoffExpiry (p : Nat)
  /-- DAMP_TICK (R84). Every 1 ms the dampening figure decays, and a suppressed port may be released. -/
  | dampTick (p : Nat)
  /-- DAMP_DISABLE (R84). Writing false to 2410h.03 zeroes the figure and releases a suppressed port. -/
  | dampDisable (w : Nat) (p : Nat)
  /-- FRAME_RECEIVE (R85). A frame ends at the MAC and is checked for length, jabber and FCS. -/
  | frameReceive (p : Nat) (id : Nat) (data : Bytes) (fecBad : Bool) (idle : Bool) (frags : Nat) (frag : Nat)
  /-- REF_FAIL (R93). The active reference fails: the device switches references, or holds the PLL and enters holdover. -/
  | refFail (r : Nat) (cause : Nat)
  /-- REF_GOOD (R93). A reference becomes good and is switched onto when none was usable. -/
  | refGood (r : Nat)
  /-- REF_REVERT_EXPIRY (R93). Reference A has been good for the revert wait and the device returns to it. -/
  | refRevertExpiry
  /-- OFFSET_IN (R95). An offset written to 1820h.02, or from PPS_IN, steers the servo frequency. -/
  | offsetIn (w : Nat) (o : Nat)
  /-- FEED_TIMEOUT (R97). No offset arrives for 1820h.07 ms and the time base enters holdover. -/
  | feedTimeout
  /-- SERVO_MODE_WRITE (R94). A write of 1820h.01 changes the servo mode and clears the integrator. -/
  | servoModeWrite (w : Nat) (mode : Nat)
  /-- STEP_DELTA (R98). A write of 1801h.01 requests a relative step and fixes its change instant. -/
  | stepDelta (w : Nat) (d : Nat)
  /-- STEP_SET (R98). A write of 1801h.02 requests an absolute step and fixes its change instant. -/
  | stepSet (w : Nat) (t : Nat)
  /-- STEP_APPLY (R98). At the step instant, network time moves in every island and gate calendars re-phase. -/
  | stepApply
  /-- TS_REFL_DELIVER (R104). A held time-stamp Reflection is delivered once its destination can take it. -/
  | tsReflDeliver (p : Nat)
  /-- PPS_OUT_EDGE (R105). PPS_OUT rises at a whole second plus the offset, and falls after the width. -/
  | ppsOutEdge (rise : Bool)
  /-- PPS_IN_ABSENT (R106). No confirmed PPS_IN edge arrives for 1.1 s. -/
  | ppsInAbsent
  /-- PLUMB_FRAME_RX (R125). An aligned Plumb frame is received: page choice, overhead, justification vote and parity. -/
  | plumbFrameRx (p : Nat) (blocks : List Nat)
  /-- PLUMB_FRAME_TX (R120). For each output frame, the mapper sets JC from the FIFO fill and sends the frame. -/
  | plumbFrameTx (p : Nat)
  /-- CM_PAGE_SWAP (R123). A slotted port swaps connection pages at the multiframe or network-time trigger. -/
  | cmPageSwap (p : Nat)
  /-- RX_MAP_WRITE (R124). A receive-map write is refused with 0402h when it targets the page in use. -/
  | rxMapWrite (w : Nat) (sub : Nat) (e : Nat) (v : Nat)
  /-- PC_FRAME_RX (R127). A frame demapped from a packet-client tributary is checked and passed to the bay. -/
  | pcFrameRx (e : Nat) (data : Bytes) (fecBad : Bool)
  /-- OHP_FRAME (R135). A 12.8 µs overhead-port frame moves data-channel bytes in both directions. -/
  | ohpFrame (n : Nat) (rx : Bytes)
  /-- BER_WINDOW_END (R141). A degrade window ends: the BER estimate is taken and SD is evaluated. -/
  | berWindowEnd (trib : Bool) (id : Nat)
  /-- PM_SECOND (R145). Each second is classified as ES, SES or neither, and unavailability is updated. -/
  | pmSecond (trib : Bool) (id : Nat)
  /-- PM_BIN_CLOSE (R146). A 15-minute or 24-hour bin closes 10 s after its end and moves into history. -/
  | pmBinClose (trib : Bool) (id : Nat) (day : Bool)
  /-- PG_HOLDOFF_EXPIRY (R151). The hold-off ends and an SF or SD request is raised if its condition still holds. -/
  | pgHoldoffExpiry (g : Nat) (prot : Bool)
  /-- PG_WTR_EXPIRY (R152). Wait-to-restore expires and the selector reverts to working. -/
  | pgWtrExpiry (g : Nat)
  /-- APS_FOP_TIMER (R154). A protocol mismatch held for 50 ms declares, or its absence for 50 ms clears, a protocol failure. -/
  | apsFopTimer (g : Nat)
  /-- PG_CLEAR (R156). Command 0 clears the commanded requests. -/
  | pgClear (w : Nat) (g : Nat)
  /-- PG_LOCKOUT (R156). Command 1 places a lockout of protection. -/
  | pgLockout (w : Nat) (g : Nat)
  /-- PG_FORCED_SWITCH (R156). Command 2 places a forced switch. -/
  | pgForcedSwitch (w : Nat) (g : Nat)
  /-- PG_MANUAL_PROTECT (R156). Command 3 requests a manual switch to protect. -/
  | pgManualProtect (w : Nat) (g : Nat)
  /-- PG_MANUAL_WORKING (R156). Command 4 returns a non-revertive group to working. -/
  | pgManualWorking (w : Nat) (g : Nat)
  /-- INPUT_RAW_CHANGE (R157). The raw level of a filtered input changes and the dwell starts. -/
  | inputRawChange (i : Nat) (level : Bool)
  /-- INPUT_DWELL_EXPIRY (R157). A raw level has held for the dwell time and becomes the filtered level. -/
  | inputDwellExpiry (i : Nat)
  /-- INPUT_CHATTER_RELEASE (R158). A whole second within the chatter limit releases a frozen input. -/
  | inputChatterRelease (i : Nat)
  /-- INPUT_STUCK (R159). An input asserted longer than its watchdog is declared stuck. -/
  | inputStuck (i : Nat)
  /-- INPUT_STUCK_RELEASE (R159). A stuck input inactive for its release time is released. -/
  | inputStuckRelease (i : Nat)
  /-- FIFO_ENTRY (R163). A frame enters the bay pre-pipeline FIFO with a pre-class, or is shed. -/
  | fifoEntry (p : Nat) (data : Bytes) (idle : Bool)
  /-- FRAME_PIPELINE (R170). A frame is parsed and runs the match-action stages until it waits at stage 9 or leaves stage 12. -/
  | framePipeline (id : Nat) (bad : List Nat)
  /-- PRISM_SCRUB_PASS (R182). A bay compares every Prism row with its check copy and disables rows that differ. -/
  | prismScrubPass (b : Nat) (bad : List Nat)
  /-- BAY_TABLE_APPLY (R184). A bay applies a forwarding-table write sent by the manager, between two lookups. -/
  | bayTableApply (b : Nat)
  /-- BAY_COPY_REPAIR (R185). The manager rewrites an uncorrectable bay-copy word from the master copy. -/
  | bayCopyRepair (b : Nat) (kind : Nat) (addr : Nat)
  /-- LPM_READY_WRITE (R190). A write of 3441h.02 moves each bay between the Prism and the trie. -/
  | lpmReadyWrite (w : Nat) (on : Bool)
  /-- TRIE_REBUILD_DONE (R191). A bay's trie rebuild ends and the bay returns to the trie. -/
  | trieRebuildDone (b : Nat)
  /-- LEARN_REQUEST (R202). A learn request reaches the table manager and passes its limits before insertion. -/
  | learnRequest
  /-- MOVE_REQUEST (R201). A move request rewrites an entry's location and counts the move. -/
  | moveRequest
  /-- MOVE_SECOND_END (R201). At the end of a device-time second, entries moved too often are frozen. -/
  | moveSecondEnd
  /-- FREEZE_EXPIRY (R201). A frozen learning entry's freeze period ends. -/
  | freezeExpiry (addr : Nat)
  /-- LEARN_AGING_PASS (R204). Every T/3 s the manager ages the dynamic entries of the learning table. -/
  | learnAgingPass
  /-- FLOW_LOOKUP (R217). A flow request is served by the home Sill from the cache, or starts a fetch. -/
  | flowLookup (id : Nat) (bad : Bool)
  /-- FLOW_FETCH_DONE (R223). A DRAM fetch completes: the record is installed and its waiting frames resume. -/
  | flowFetchDone (k : Nat) (wait : Nat) (bad : List Nat)
  /-- PARK_TIMEOUT (R222). A waiting frame reaches the park limit and receives the miss-overflow action. -/
  | parkTimeout (id : Nat)
  /-- FLOW_COMMIT (R234). At ingress end, the frame's commit updates counts, TCP state and meter in the cached entry. -/
  | flowCommit (id : Nat)
  /-- FLOW_SAMPLE (R237). A departure latency sample is added to the flow's histogram delta. -/
  | flowSample (id : Nat)
  /-- FLOW_AGING_PASS (R238). The aging timer starts a pass over every flow record and submits aging segments. -/
  | flowAgingPass (k : Nat)
  /-- POOL_SCAN_DONE (R451). After a data-plane reset, the scan rebuilding an address-translation pool's free map ends. -/
  | poolScanDone (n : Nat)
  /-- TASK_DISPATCH (R263). A ready task is dispatched to a core as its root thread at its kind's entry. -/
  | taskDispatch (k : Nat)
  /-- MICROWORD_ISSUE (R245). A thread issues one microword, whose fields take effect together. -/
  | microwordIssue (n : Nat) (t : Nat) (err : Nat) (entry : Nat) (late : List Nat)
  /-- WAIT_END (R252). A waiting microword's wait ends and all its fields take effect together. -/
  | waitEnd (n : Nat) (t : Nat)
  /-- DOVETAIL_RELEASE (R266). A held ordered completion is released once every earlier task of its domain has released. -/
  | dovetailRelease (k : Nat) (d : Nat)
  /-- PREEMPT_POST (R271). A task waits for the preempt wait with no free thread and a preempt is posted to a victim. -/
  | preemptPost (k : Nat)
  /-- TASK_RETRY_READY (R272). An aborted task becomes ready again RETRY µs later. -/
  | taskRetryReady (k : Nat)
  /-- SPAWN_TIMEOUT (R267). A SPAWN finds no place within 3843h.03 and fails. -/
  | spawnTimeout (n : Nat) (t : Nat)
  /-- DEADLOCK_DETECT (R274). Every thread of a core has waited for 65,536 cycles and deadlock is declared. -/
  | deadlockDetect (n : Nat)
  /-- CLAMP_WAIT_LIMIT (R275). A thread waiting on one clamp reaches the wait limit and starts recovery. -/
  | clampWaitLimit (n : Nat) (t : Nat)
  /-- DBG_HALT (R277). Writing true to 8400h.01 halts the thread at the next microword boundary. -/
  | dbgHalt (w : Nat) (n : Nat) (t : Nat)
  /-- DBG_RESUME (R277). Writing false to 8400h.01 resumes a halted thread. -/
  | dbgResume (w : Nat) (n : Nat) (t : Nat)
  /-- DBG_REG_WRITE (R277). Writes a register of a halted thread, or returns 0701h when the thread is not halted. -/
  | dbgRegWrite (w : Nat) (n : Nat) (t : Nat) (r : Nat) (v : Nat)
  /-- DBG_ABANDON (R278). Discards a halted thread's partial message and unlocks its channel. -/
  | dbgAbandon (w : Nat) (n : Nat) (t : Nat)
  /-- DBG_ABORT (R278). Aborts a halted thread's task regardless of checkpoints. -/
  | dbgAbort (w : Nat) (n : Nat) (t : Nat)
  /-- FRAME_ADMIT (R287). The Yard polices a frame or its copies and admits or refuses each under its rules. -/
  | frameAdmit (id : Nat)
  /-- RESIDUE_EXPIRY (R309). The residue head's deadline passes and the entry is dropped. -/
  | residueExpiry (q : Nat)
  /-- FLUSH_QUEUE (R305). A write of 1 to 4060h.01 flushes a queue and its residue. -/
  | flushQueue (w : Nat) (q : Nat)
  /-- FLUSH_BOUNDED (R305). A write of 1 to 4060h.02 flushes a port's bounded FIFO. -/
  | flushBounded (w : Nat) (p : Nat)
  /-- CELL_REMAP (R455). A retired cell is remapped to a spare once its last copy has ended. -/
  | cellRemap (cell : Nat)
  /-- POOL_PRODUCER_RESUME (R313). A waiting pool's occupancy falls to seven eighths of its limit and its producers resume. -/
  | poolProducerResume (k : Nat)
  /-- TRANSMIT_OPPORTUNITY (R316). At a transmit opportunity, a control frame, the bounded FIFO or a class is chosen and a frame starts. -/
  | transmitOpportunity (p : Nat) (e : Nat) (err : Nat) (cell : Nat) (gran : Nat)
  /-- FRAME_TX_END (R322). A frame ends at egress: the scheduler is charged, its cells are freed and the residue is retried. -/
  | frameTxEnd (p : Nat) (e : Nat)
  /-- GATE_EVENT (R329). A gate-list entry boundary opens or closes gates at its network time. -/
  | gateEvent (p : Nat)
  /-- GATE_CHANGE_SWAP (R331). At a port's effective change time T', its gate-list and preemption settings swap. -/
  | gateChangeSwap (p : Nat)
  /-- VERIFY_ATTEMPT (R325). A preemption verification attempt is sent, and further attempts follow 10 ms apart. -/
  | verifyAttempt (p : Nat)
  /-- VERIFY_RESPONSE (R325). A verify response is received and preemption becomes active. -/
  | verifyResponse (p : Nat)
  /-- VERIFY_TIMEOUT (R325). No response arrives 10 ms after the third attempt, and verification fails. -/
  | verifyTimeout (p : Nat)
  /-- POLICER_WRITE (R333). A write of a rate or burst refills both credits of the policer. -/
  | policerWrite (w : Nat) (sub : Nat) (i : Nat) (v : Nat)
  /-- PAUSE_RX (R336). A received PAUSE or PFC frame pauses classes, or is discarded. -/
  | pauseRx (p : Nat) (data : Bytes) (idle : Bool)
  /-- PAUSE_EXPIRY (R336). The received pause quanta run out and the class resumes. -/
  | pauseExpiry (p : Nat) (c : Nat)
  /-- FC_EVAL (R337). The periodic 1 µs evaluation moves a lossless class to XOFF or XON and queues a control frame. -/
  | fcEval (p : Nat) (c : Nat)
  /-- PFC_REPEAT (R337). The pause frame is repeated every half of its quanta while a class stays in XOFF. -/
  | pfcRepeat (p : Nat)
  /-- FC_WATCHDOG_TRIP (R338). A class paused continuously with frames queued for the watchdog time trips the watchdog. -/
  | fcWatchdogTrip (p : Nat) (c : Nat)
  /-- FC_WATCHDOG_END (R338). The watchdog recovery time ends and pause is honoured again. -/
  | fcWatchdogEnd (p : Nat) (c : Nat)
  /-- DRAM_REQUEST (R346). A DRAM channel serves a queued request by the bank scheduling rules. -/
  | dramRequest (n : Nat) (lat : Nat) (err : Nat)
  /-- REFRESH_TICK (R348). Each per-bank refresh interval raises the owed count, and forces a refresh at 8. -/
  | refreshTick (n : Nat) (bank : Nat)
  /-- DRAM_TEMP_READ (R347). Every 16 ms the channel temperature sets the refresh multiplier. -/
  | dramTempRead (n : Nat) (temp : Int)
  /-- DRIFT_TRACK (R350). A byte lane re-centres its delays and may degrade the channel. -/
  | driftTrack (n : Nat) (lane : Nat) (rd : Int) (wr : Int) (rw : Nat) (ww : Nat)
  /-- SCRUB_BURST (R352). The scrubber reads a burst and writes back a corrected value. -/
  | scrubBurst (n : Nat) (burst : Nat) (err : Nat)
  /-- CH_RETIRE (R354). A DRAM channel is retired and its segments are re-placed and filled. -/
  | chRetire (w : Nat) (n : Nat)
  /-- SEGMENT_FILL_DONE (R354). A re-placed segment has been filled with empty bursts and its held writes proceed. -/
  | segmentFillDone (k : Nat) (seg : Nat)
  /-- RING_CONFIG_WRITE (R360). A write of RING_BASE, RING_SIZE or RING_LIMIT is ignored and flags an error while the ring runs. -/
  | ringConfigWrite (r : Nat) (reg : Nat) (v : Nat)
  /-- RING_ENABLE (R360). Setting RING_CTRL[0] starts a ring, or flags a configuration error. -/
  | ringEnable (r : Nat) (ie : Bool)
  /-- RING_DISABLE (R360). Clearing RING_CTRL[0] stops the ring at the next entry boundary. -/
  | ringDisable (r : Nat)
  /-- RING_INTERRUPT_ENABLE (R368). RING_CTRL[1] enables or disables signalling of the ring's completions. -/
  | ringInterruptEnable (r : Nat) (on : Bool)
  /-- RING_ERROR_CLEAR (R360). A W1C write clears the ring configuration error. -/
  | ringErrorClear (r : Nat)
  /-- RING_TAIL_POLL (R361). The device reads RING_TAIL when it needs entries, and at least every 1 µs. -/
  | ringTailPoll (r : Nat) (err : Nat)
  /-- PUNT_DELIVER (R363). A waiting punt fills a posted descriptor and the head advances. -/
  | puntDeliver (r : Nat) (desc : Bytes)
  /-- INJECT_TAKE (R366). The inject engine takes one frame from a ring into pool 1, or refuses the descriptor. -/
  | injectTake (r : Nat) (desc : Bytes) (data : Bytes) (err : Nat)
  /-- INJECT_FIFO_ENTER (R366). An injected frame enters the bay FIFO once there is room below its threshold. -/
  | injectFifoEnter (r : Nat)
  /-- LEDGER_RECORD (R408). The writer forms and numbers a record from an event message, delivers it and offers it for storage. -/
  | ledgerRecord
  /-- MSIX_HOLDOFF_EXPIRY (R368). The holdoff since the first uncounted completion passes and the message is sent. -/
  | msixHoldoffExpiry (i : Nat)
  /-- PCIE_ERROR (R369). A correctable or uncorrectable PCI Express error is recorded in AER. -/
  | pcieError (f : Nat) (kind : Nat) (aer : Nat)
  /-- BAR_UNMAPPED_ACCESS (R358). An access to an unmapped BAR offset or a BAR2 write is ignored and counted. -/
  | barUnmappedAccess
  /-- LINK_RETRAIN (R357). The PCI Express link retrains, possibly to a lower rate or width. -/
  | linkRetrain (rate : Nat) (width : Nat)
  /-- HOST_ATTACH (R374). A write of 1 to HOST_ATTACH enters the attached state. -/
  | hostAttach (ready : Bool)
  /-- HOST_DETACH (R372). A write of 2 to HOST_ATTACH starts the host-vanished behaviour with cause 5. -/
  | hostDetach
  /-- HOST_HEARTBEAT (R371). A write restarts the host watchdog. -/
  | hostHeartbeat
  /-- HOST_WDOG_EXPIRY (R372). The host watchdog expires without a heartbeat. -/
  | hostWdogExpiry
  /-- PCIE_LINK_DOWN (R372). The PCI Express link goes down. -/
  | pcieLinkDown
  /-- FUNCTION_LEVEL_RESET (R373). A Function Level Reset resets that function's BAR0 registers. -/
  | functionLevelReset (f : Nat)
  /-- BUS_MASTER_DISABLE (R372). Bus Master Enable of function 0 is cleared. -/
  | busMasterDisable
  /-- D3HOT_ENTRY (R372). Function 0 enters D3hot. -/
  | d3hotEntry
  /-- PERST_ASSERT (R375). PERST_N is asserted and holds the link and both functions in reset. -/
  | perstAssert
  /-- PERST_RELEASE (R375). PERST_N is released and the link trains. -/
  | perstRelease (rate : Nat) (width : Nat)
  /-- GROUP_COMPOSE_WRITE (R379). A composed-group key write is checked for type and readability. -/
  | groupComposeWrite (w : Nat) (i : Nat) (key : Nat)
  /-- SNAP_NOW (R382). A write of 6002h.01 sets a snapshot instant for a group or all groups. -/
  | snapNow (w : Nat) (g : Nat)
  /-- SNAP_INSTANT (R381). At a snapshot instant every island latches the group's counters. -/
  | snapInstant
  /-- SNAP_SWAP (R382). Latched values fill the hidden bank and the banks swap. -/
  | snapSwap
  /-- BW_WINDOW_END (R383). A bandwidth window ends and its rate enters the history. -/
  | bwWindowEnd (p : Nat) (tx : Bool)
  /-- MON_CONFIG_WRITE (R384). A change of monitor quantity or scope restarts the interval empty. -/
  | monConfigWrite (w : Nat) (sub : Nat) (m : Nat) (v : Nat)
  /-- MON_SAMPLE (R385). A sample enters its monitor interval. -/
  | monSample (m : Nat) (v : Nat)
  /-- MON_INTERVAL_END (R385). 50 µs after an interval ends, its values become the previous values. -/
  | monIntervalEnd (m : Nat)
  /-- TRACE_CLEAR (R388). A write of 1 to 6041h.06 empties the trace ring. -/
  | traceClear (w : Nat)
  /-- UWORD_SAMPLE (R389). Every 2^k cycles a core writes microword sample records. -/
  | uwordSample (n : Nat) (t : Nat)
  /-- SAMPLE_CLEAR (R389). A write of 1 to 6051h.05 empties the sample ring. -/
  | sampleClear (w : Nat) (k : Nat)
  /-- EXPORT_FLUSH_EXPIRY (R395). The oldest buffered export record has waited 6070h.0B ms and the message is sent. -/
  | exportFlushExpiry (k : Nat)
  /-- EXPORT_TEMPLATE_SEND (R395). The template sets are sent at enable, after a reset and every 6070h.09 s. -/
  | exportTemplateSend
  /-- LIMITER_SECOND (R402). Once per second, a 6401h record reports each source's suppressions. -/
  | limiterSecond
  /-- LEDGER_DISCARD_SUMMARY (R410). Once per 60 s with discards, a 6403h record reports them by severity. -/
  | ledgerDiscardSummary
  /-- LEDGER_READ (R412). A read of 6420h.02 returns the next present record and advances the cursor. -/
  | ledgerRead (w : Nat) (bad : List Nat)
  /-- LEDGER_CLEAR (R413). A write of 6420h.04 deletes the records below a severity. -/
  | ledgerClear (w : Nat) (v : Nat)
  /-- SRC_LATCH_CLEAR (R405). W1C of a source latch may deassert FAULT_N. -/
  | srcLatchClear (w : Nat) (i : Nat) (v : Nat)
  /-- OPERATING_TIME_TICK (R409). Every 1/16 s the operating time increments and is stored. -/
  | operatingTimeTick
  /-- UPD_CHUNK (R429). A 256-byte chunk of an update image is written, taking update ownership. -/
  | updChunk (w : Nat) (k : Nat) (data : Bytes)
  /-- UPD_VERIFY (R429). Command 1 checks the image and writes it to the inactive slot. -/
  | updVerify (w : Nat)
  /-- UPD_VERIFY_DONE (R429). Verification ends in the verified or refused state. -/
  | updVerifyDone
  /-- UPD_ACTIVATE (R430). Command 2 activates the new firmware or patch on trial. -/
  | updActivate (w : Nat)
  /-- UPD_CONFIRM (R431). Command 3 raises rollback counters, revokes key slots and confirms. -/
  | updConfirm (w : Nat) (fail : List Nat)
  /-- UPD_ABORT (R429). Command 4 discards the staged image or reverts a trial. -/
  | updAbort (w : Nat)
  /-- UPD_TRIAL_EXPIRY (R431). The trial countdown reaches 0 and the update reverts. -/
  | updTrialExpiry
  /-- CORE_BOOT (R426). The boot ROM selects and checks a firmware slot and starts the core. -/
  | coreBoot (c : Nat)
  /-- CORE_IN_SERVICE (R426). A management core comes into service and takes back its sessions. -/
  | coreInService (c : Nat)
  /-- CORE_WDOG_EXPIRY (R432). The management-core watchdog is not serviced in time. -/
  | coreWdogExpiry (c : Nat)
  /-- CORE_RESTART_CMD (R433). A write of 1 to 1460h.04 restarts a core by planned handover, or releases a failed core. -/
  | coreRestartCmd (w : Nat) (c : Nat)
  /-- ZEROIZE (R437). A write of 1 to 1430h.03 erases all session keys and disables the sessions. -/
  | zeroize (w : Nat)
  /-- KEY_LOCK (R437). Writing true to 1430h.02 locks key writes from the host until power-up. -/
  | keyLock (w : Nat)
  /-- USER_EXTEND (R439). A write of 1450h.02 extends the user measurement. -/
  | userExtend (w : Nat) (data : Bytes)
  /-- ATT_REQUEST (R440). A nonce write queues an attestation report for a plane. -/
  | attRequest (w : Nat) (pl : Nat) (nonce : Bytes)
  /-- ATT_SIGN_DONE (R440). Signing of the report completes and the report becomes readable. -/
  | attSignDone (pl : Nat) (ms : Nat)
  /-- DBG_SUBMIT (R441). A write of 1 to 8000h.03 submits a debug token for verification. -/
  | dbgSubmit (w : Nat) (pl : Nat)
  /-- DBG_VERIFY_DONE (R441). Token verification unlocks the scope or refuses the token. -/
  | dbgVerifyDone
  /-- DBG_LOCK (R442). A write of 2 to 8000h.03 ends the debug unlock. -/
  | dbgLock (w : Nat) (pl : Nat)
  /-- DBG_UNLOCK_EXPIRY (R442). The unlock DURATION passes and debug locks. -/
  | dbgUnlockExpiry
  /-- PORST_ASSERT (R445). Asserting PORST_N starts a power-on reset and stops every transmitter. -/
  | porstAssert
  /-- POWER_UP (R446). After PORST_N release, the device runs its start-up sequence up to data-plane ready. -/
  | powerUp (slots : List Nat) (pegs : List Nat) (otp : List Nat) (cells : List Nat) (dram : List Nat) (recs : List Nat) (rails : List Nat) (noClock : List Nat)
  /-- WARM_RESTART_CMD (R444). A write of 1 to 7000h.01 commands a warm restart, which begins 1 ms later. -/
  | warmRestartCmd (w : Nat)
  /-- DP_RESET_CMD (R444). A write of 2 to 7000h.01 commands a data-plane reset. -/
  | dpResetCmd (w : Nat)
  /-- DEVICE_RESET_CMD (R444). A write of 3 to 7000h.01 commands a device reset. -/
  | deviceResetCmd (w : Nat)
  /-- DATA_PLANE_RESET (R448). A data-plane reset stops transmitters, restarts the data-plane islands and rewrites kept content. -/
  | dataPlaneReset
  /-- DP_READY (R448). A data-plane reset reaches ready and the enabled ports return to state 1. -/
  | dpReady (dram : List Nat)
  /-- WARM_RESTART (R453). A warm restart resets the host interface registers and restarts both management cores. -/
  | warmRestart
  /-- DEVICE_RESET (R444). A device reset restarts everything, as at power-on. -/
  | deviceReset (slots : List Nat) (pegs : List Nat) (otp : List Nat) (cells : List Nat) (dram : List Nat) (recs : List Nat) (noClock : List Nat)
  /-- RAIL_SAMPLE (R463). Every 1 µs each rail is checked against its range. -/
  | railSample (k : Nat) (mv : Nat) (ma : Nat)
  /-- SENSOR_SAMPLE (R467). Every 1 ms each thermal sensor is read. -/
  | sensorSample (k : Nat) (raw : Int)
  /-- THERM_DEASSERT (R468). All sensors read 3 °C below the threshold for 1 s and THERM_N is released. -/
  | thermDeassert
  /-- POWER_WARN_EXCEED (R477). Power above POWER_WARN for 1 s raises source 580. -/
  | powerWarnExceed
  /-- LIFE_TICK (R466). Each second the life estimate is raised by the acceleration factor. -/
  | lifeTick
  /-- SMB_HOTTEST_SENSOR (R471). SMBus command 00h returns the hottest sensor. -/
  | smbHottestSensor
  /-- SMB_SENSOR (R471). SMBus commands 01h–10h return one sensor. -/
  | smbSensor (k : Nat)
  /-- SMB_RAIL_VOLTAGE (R471). SMBus commands 20h–2Ch return a rail voltage. -/
  | smbRailVoltage (k : Nat)
  /-- SMB_RAIL_CURRENT (R471). SMBus commands 30h–3Ch return a rail current. -/
  | smbRailCurrent (k : Nat)
  /-- SMB_TOTAL_POWER (R471). SMBus command 40h returns total power. -/
  | smbTotalPower
  /-- SMB_STATUS (R471). SMBus command 41h returns the status bits. -/
  | smbStatus
  /-- SMB_IDENTITY (R471). SMBus command 50h returns the part number and serial. -/
  | smbIdentity
  /-- SMB_ALERT_RESPONSE (R471). An Alert Response Address read releases SMB_ALERT_N. -/
  | smbAlertResponse
  /-- FATAL_FIRMWARE_FAULT (R432). A fatal firmware fault on a management core causes an unplanned restart with cause 4. -/
  | fatalFirmwareFault (c : Nat)
  /-- TABLE_OP_SUBMIT_TIMEOUT (R267). A table operation on 3800h.01 that cannot be submitted to the dispatcher within 50 µs returns 0701h. -/
  | tableOpSubmitTimeout (k : Nat)
  /-- CHK_LOCK_ACQUIRE (R78). A lane pattern checker synchronises by itself to the received pattern and 2040h.03 becomes true. -/
  | chkLockAcquire (l : Nat)
  deriving DecidableEq, Repr

end Sys2Proof
end

