-- ==== Sys2Proof/Machine/Bits.lean ====
section
/-! DEFINITION. Bit fields, octet strings, two's complement and the check codes that several chapters use:
CRC-32 (IEEE 802.3), CRC-32C (pegged copies, Joinery hash), CRC-16 (Ledger records), ones' complement sums. -/

namespace Sys2Proof

/-- Bits `[lo + w - 1 : lo]` of `x` (R1). -/
def fld (x lo w : Nat) : Nat := (x >>> lo) % 2 ^ w

/-- Bit `i` of `x`. -/
def bitOf (x i : Nat) : Bool := (x >>> i) % 2 == 1

/-- `x` with bits `[lo + w - 1 : lo]` replaced by `v`. -/
def putFld (x lo w v : Nat) : Nat :=
  x - (fld x lo w) <<< lo + (v % 2 ^ w) <<< lo

/-- `x` with bit `i` set to `b`. -/
def setBit (x i : Nat) (b : Bool) : Nat := putFld x i 1 b.toNat

/-- `x AND NOT m`: the bits of `m` cleared in `x`. -/
def clearBits (x m : Nat) : Nat := x ^^^ (x &&& m)

/-- A Boolean as the octet that encodes it (R29). -/
def ofBool (b : Bool) : Nat := if b then 1 else 0

/-- The two's complement reading of a `w`-bit value. -/
def toS (w x : Nat) : Int := if x < 2 ^ (w - 1) then (x : Int) else (x : Int) - 2 ^ w

/-- The `w`-bit two's complement encoding of an integer. -/
def ofS (w : Nat) (i : Int) : Nat := (i % 2 ^ w).toNat

/-- Clamp an integer into a range. -/
def clampI (lo hi x : Int) : Int := max lo (min hi x)

/-- Ceiling of a quotient. -/
def ceilDiv (a b : Nat) : Nat := (a + b - 1) / b

/-- `x + n`, saturating at `2^w - 1`. -/
def satAdd (w x n : Nat) : Nat := min (2 ^ w - 1) (x + n)

/-- Rotate a `w`-bit value left by `n`. -/
def rotl (w x n : Nat) : Nat :=
  let k := n % w
  ((x <<< k) % 2 ^ w) ||| (x >>> (w - k))

/-- Reverse the lowest `n` bits of `x`. -/
def revBits : Nat → Nat → Nat
  | 0, _ => 0
  | n + 1, x => (x % 2) <<< n + revBits n (x / 2)

/-- The number of one bits among the lowest `n`. -/
def popcount : Nat → Nat → Nat
  | 0, _ => 0
  | n + 1, x => x % 2 + popcount n (x / 2)

/-- The number of leading zeros of a `w`-bit value. -/
def clz (w x : Nat) : Nat := if x = 0 then w else w - 1 - Nat.log2 x

/-- The octets of `x`, `n` of them, most significant first (R29). -/
def toBytes : Nat → Nat → Bytes
  | 0, _ => []
  | n + 1, x => BitVec.ofNat 8 (x >>> (8 * n)) :: toBytes n x

/-- The number that octets spell, most significant first (R29). -/
def ofBytes (b : Bytes) : Nat := b.foldl (fun a x => a * 256 + x.toNat) 0

/-- Octet `i` of a string, 0 past its end. -/
def byteAt (b : Bytes) (i : Nat) : Nat := (b.getD i 0#8).toNat

/-- `n` octets from offset `o`, as a number; octets past the end read 0. -/
def beAt (b : Bytes) (o n : Nat) : Nat :=
  (List.range n).foldl (fun a k => a * 256 + byteAt b (o + k)) 0

/-- A slice of `n` octets from offset `o`. -/
def slice (b : Bytes) (o n : Nat) : Bytes := (b.drop o).take n

/-- Replace the octets from offset `o` by `v`. -/
def overlay (b : Bytes) (o : Nat) (v : Bytes) : Bytes :=
  b.take o ++ v ++ b.drop (o + v.length)

/-- Pad with zero octets to a multiple of `m`. -/
def padTo (m : Nat) (b : Bytes) : Bytes :=
  b ++ List.replicate (ceilDiv b.length m * m - b.length) 0#8

/-- Pad with zero octets to exactly `n`, or cut to `n`. -/
def fitTo (n : Nat) (b : Bytes) : Bytes := (b ++ List.replicate (n - b.length) 0#8).take n

/-- Eight steps of a reflected CRC with polynomial `poly`. -/
def crcStep (poly : Nat) : Nat → Nat → Nat
  | 0, c => c
  | n + 1, c => crcStep poly n (if c % 2 = 1 then (c / 2) ^^^ poly else c / 2)

/-- A reflected CRC over octets from an accumulator. -/
def crcRefl (poly : Nat) (acc : Nat) (b : Bytes) : Nat :=
  b.foldl (fun c x => crcStep poly 8 (c ^^^ x.toNat)) acc

/-- The CRC-32 of IEEE 802.3. -/
def crc32 (b : Bytes) : Nat := crcRefl 0xEDB88320 0xFFFFFFFF b ^^^ 0xFFFFFFFF

/-- CRC-32C (Castagnoli). -/
def crc32c (b : Bytes) : Nat := crcRefl 0x82F63B78 0xFFFFFFFF b ^^^ 0xFFFFFFFF

/-- One octet of the CRC-16 with polynomial 1021h, not reflected. -/
def crc16Step : Nat → Nat → Nat
  | 0, c => c
  | n + 1, c => crc16Step n (if c ≥ 0x8000 then ((c * 2) % 65536) ^^^ 0x1021 else c * 2)

/-- The CRC-16 of Ledger records and microword samples (R390, R406): initial value FFFFh, no final XOR. -/
def crc16 (b : Bytes) : Nat := b.foldl (fun c x => crc16Step 8 (c ^^^ (x.toNat <<< 8))) 0xFFFF

/-- The FCS octets of a frame, in transmission order (least significant octet of the CRC first). -/
def fcsBytes (b : Bytes) : Bytes :=
  let c := crc32 b
  [BitVec.ofNat 8 c, BitVec.ofNat 8 (c >>> 8), BitVec.ofNat 8 (c >>> 16), BitVec.ofNat 8 (c >>> 24)]

/-- Ones' complement sum of 16-bit words, folded, over at most `n` octets (n even or padded). -/
def onesSum : Nat → Bytes → Nat → Nat
  | acc, a :: b :: r, fuel + 1 =>
    let t := acc + a.toNat * 256 + b.toNat
    onesSum (t % 65536 + t / 65536) r fuel
  | acc, [a], _ =>
    let t := acc + a.toNat * 256
    t % 65536 + t / 65536
  | acc, _, _ => acc

/-- The Internet checksum of octets. -/
def inetChecksum (b : Bytes) : Nat := 0xFFFF - onesSum 0 b b.length

end Sys2Proof
end

