-- ==== Sys2Proof/Machine/Maps.lean ====
section
/-! DEFINITION. Sparse maps in one canonical form: (key, value) pairs with keys strictly rising, and no entry equal to
what an unlisted key reads as. Every addressed store of the device (objects, tables, Joinery memory, DRAM records) is one. -/

namespace Sys2Proof

/-- A sparse map with values in `α`. -/
abbrev PMap (α : Type) := List (Nat × α)

/-- What key `k` reads as, where `d` gives the value of an unlisted key. -/
def mget {α : Type} (d : Nat → α) : PMap α → Nat → α
  | [], k => d k
  | (j, v) :: r, k => if k = j then v else mget d r k

/-- Put (k, v) before the first larger key. -/
def minsert {α : Type} (k : Nat) (v : α) : PMap α → PMap α
  | [] => [(k, v)]
  | (j, w) :: r => if k < j then (k, v) :: (j, w) :: r else (j, w) :: minsert k v r

/-- The map without an entry for `k`. -/
def mdrop {α : Type} (k : Nat) : PMap α → PMap α
  | [] => []
  | (j, w) :: r => if j = k then mdrop k r else (j, w) :: mdrop k r

/-- Write `v` at `k`, keeping the canonical form. -/
def mset {α : Type} [DecidableEq α] (d : Nat → α) (m : PMap α) (k : Nat) (v : α) : PMap α :=
  if v = d k then mdrop k m else minsert k v (mdrop k m)

/-- The canonical form: keys above `lo`, strictly rising, no default entry. -/
def mwfFrom {α : Type} [DecidableEq α] (d : Nat → α) : Option Nat → PMap α → Bool
  | _, [] => true
  | lo, (j, v) :: r => (match lo with | none => true | some l => decide (l < j)) && decide (v ≠ d j) && mwfFrom d (some j) r

/-- The canonical form of a map. -/
def mwf {α : Type} [DecidableEq α] (d : Nat → α) (m : PMap α) : Bool := mwfFrom d none m

/-- The constant default. -/
def dK {α : Type} (v : α) : Nat → α := fun _ => v

/-- A map of numbers whose unlisted keys read 0. -/
def nget (m : PMap Nat) (k : Nat) : Nat := mget (dK 0) m k

/-- Write in a map of numbers whose unlisted keys read 0. -/
def nset (m : PMap Nat) (k v : Nat) : PMap Nat := mset (dK 0) m k v

/-- A map whose unlisted keys read as absent. -/
def oget {α : Type} (m : PMap (Option α)) (k : Nat) : Option α := mget (dK none) m k

/-- Write in a map whose unlisted keys read as absent. -/
def oset {α : Type} [DecidableEq α] (m : PMap (Option α)) (k : Nat) (v : Option α) : PMap (Option α) := mset (dK none) m k v

/-- The keys present in a map. -/
def mkeys {α : Type} (m : PMap α) : List Nat := m.map Prod.fst

/-- Keep the entries whose key satisfies `f`. -/
def mfilter {α : Type} (f : Nat → Bool) (m : PMap α) : PMap α := m.filter (fun e => f e.1)

end Sys2Proof
end

