-- ==== Sys2Proof/Machine/DictTypes.lean ====
section
/-! DEFINITION. The shape of a row of the object dictionary: types and encodings (R29), access codes (R30),
plane rights (R31), flags S and P (R32) and the stated ranges of values. -/

namespace Sys2Proof

/-- The object types of R29. -/
inductive OType where
  | bool | u (bytes : Nat) | i (bytes : Nat) | q16 | time80 | oct (n : Nat) | bits (n : Nat) | enum8 | table
  deriving DecidableEq, Repr

/-- The length of a value in octets (R29). A TABLE is not transferred as a value. -/
def OType.len : OType → Nat
  | .bool => 1 | .u n => n | .i n => n | .q16 => 4 | .time80 => 10 | .oct n => n | .bits n => (n + 7) / 8
  | .enum8 => 1 | .table => 0

/-- The access codes of R30. -/
inductive Acc where
  | const | ro | rw | wo | rc | w1c
  deriving DecidableEq, Repr

/-- The planes listed for an object (R31): H, M, both, or F. -/
inductive Planes where
  | h | m | hm | f
  deriving DecidableEq, Repr

/-- The flags of R32: none, S, P, or both. -/
inductive Flags where
  | n | s | p | sp
  deriving DecidableEq, Repr

/-- The stated range of a written value. -/
inductive Rng where
  | any
  | rng (lo hi : Nat)
  | srng (lo hi : Int)
  | zeroOr (lo hi : Nat)
  | codes (l : List Nat)
  | orFF (lo hi : Nat)
  | orFFFF (lo hi : Nat)
  | bitsOf (mask : Nat)
  deriving DecidableEq, Repr

/-- One row of the dictionary. `size` is the number of instances; an object that is not an array has 1 (R28). -/
structure ObjRow where
  index : Nat
  sub : Nat
  size : Nat
  ty : OType
  acc : Acc
  planes : Planes
  flags : Flags
  dflt : Nat
  rng : Rng
  deriving DecidableEq, Repr

/-- Flag S (R32). -/
def ObjRow.staged (r : ObjRow) : Bool := r.flags == .s || r.flags == .sp

/-- Flag P (R32). -/
def ObjRow.pegged (r : ObjRow) : Bool := r.flags == .p || r.flags == .sp

/-- Whether a value lies in the stated range; `bits` is the width of the type. -/
def Rng.ok (r : Rng) (bits v : Nat) : Bool :=
  match r with
  | .any => true
  | .rng lo hi => lo ≤ v && v ≤ hi
  | .srng lo hi => lo ≤ toS bits v && toS bits v ≤ hi
  | .zeroOr lo hi => v == 0 || (lo ≤ v && v ≤ hi)
  | .codes l => l.contains v
  | .orFF lo hi => v == 0xFF || (lo ≤ v && v ≤ hi)
  | .orFFFF lo hi => v == 0xFFFF || (lo ≤ v && v ≤ hi)
  | .bitsOf m => clearBits v m == 0

/-- The check that the type itself sets on a value (R29, last column). -/
def OType.ok (t : OType) (v : Nat) : Bool :=
  match t with
  | .bool => v ≤ 1
  | .time80 => v % 2 ^ 32 < 1000000000
  | .bits n => v < 2 ^ n
  | _ => true

/-- The key of an instance as R48 lays it out: index in [47:32], sub-index in [31:24], instance in [23:0]. -/
def okey (index sub inst : Nat) : Nat := index <<< 32 + (sub % 256) <<< 24 + inst % 16777216

/-- The index of a key. -/
def keyIndex (k : Nat) : Nat := k >>> 32

/-- The sub-index of a key. -/
def keySub (k : Nat) : Nat := fld k 24 8

/-- The instance of a key. -/
def keyInst (k : Nat) : Nat := k % 2 ^ 24

end Sys2Proof
end

