-- ==== Sys2Proof/Machine/DictRows.lean ====
section
/-! DEFINITION. The rows of the object dictionary, area by area (R27), as the chapters' object tables give them: index, sub-index,
number of instances, type, access, planes, flags, default and stated range. Instance-dependent defaults are in `dfltAt`. -/

namespace Sys2Proof

/-- Rows of the area that begins at 1000h, part 0. -/
def rows04_0 : List ObjRow := [
  ⟨0x1000, 0x01, 1, (.u 2), .const, .hm, .n, 1216, .any⟩, -- DICT_INDICES, R40
  ⟨0x1000, 0x02, 1, (.u 4), .ro, .hm, .n, 0, .any⟩, -- DICT_VERSION, R40
  ⟨0x1000, 0x03, 1, (.oct 8), .const, .hm, .n, 0x4451383235360000, .any⟩, -- PART_NUMBER, R40
  ⟨0x1000, 0x04, 1, (.u 2), .ro, .f, .n, 0, .any⟩, -- SILICON_STEP, R40
  ⟨0x1000, 0x05, 1, (.oct 16), .ro, .f, .n, 0, .any⟩, -- SERIAL, R40
  ⟨0x1020, 0x01, 1, (.u 1), .wo, .hm, .n, 0, .codes [1, 2]⟩, -- COMMIT, R40
  ⟨0x1020, 0x02, 2, (.u 8), .ro, .hm, .n, 0, .any⟩, -- LAST_ACCEPTED, R40
  ⟨0x1020, 0x03, 1, (.u 8), .ro, .hm, .n, 0, .any⟩, -- VISIBLE_EPOCH, R40
  ⟨0x1020, 0x04, 1, (.u 1), .ro, .hm, .n, 0, .any⟩, -- COMMITS_PENDING, R40
  ⟨0x1020, 0x05, 36, .enum8, .ro, .hm, .n, 0, .any⟩, -- BANK_OWNER, R40
  ⟨0x1020, 0x06, 1, (.u 1), .wo, .hm, .n, 0, .any⟩, -- BANK_BREAK, R40
  ⟨0x1020, 0x07, 1, (.u 4), .rw, .hm, .p, 60, .rng 1 86400⟩, -- BANK_IDLE, R40
  ⟨0x1020, 0x08, 1, (.u 8), .ro, .hm, .n, 0, .any⟩, -- COMMITS_TOTAL, R40
  ⟨0x1030, 0x01, 1, (.u 4), .ro, .hm, .n, 0, .any⟩, -- PEG_COUNT, R44
  ⟨0x1030, 0x02, 69632, (.u 8), .ro, .hm, .n, 0, .any⟩, -- PEG_KEY, R44
  ⟨0x1030, 0x03, 69632, .enum8, .ro, .hm, .n, 0, .any⟩, -- PEG_STATE, R44
  ⟨0x1030, 0x04, 1, (.u 4), .rc, .hm, .n, 0, .any⟩, -- PEG_REPAIRS, R44
  ⟨0x1030, 0x05, 1, (.u 4), .ro, .hm, .n, 0, .any⟩, -- PEG_INDETERMINATE, R44
  ⟨0x1030, 0x06, 1, .time80, .ro, .hm, .n, 0, .any⟩, -- PEG_LAST_SCRUB, R44
  ⟨0x1100, 0x01, 256, .bool, .rw, .hm, .p, 1, .any⟩, -- UOP_PORT_EN, R64
  ⟨0x1100, 0x02, 1, (.u 2), .rw, .hm, .p, 0x88B5, .rng 0x600 0xFFFF⟩, -- UOP_ETHERTYPE, R64
  ⟨0x1100, 0x03, 1, (.oct 6), .rw, .hm, .p, 0, .any⟩, -- UOP_MAC, R64
  ⟨0x1100, 0x04, 1, (.oct 4), .rw, .hm, .p, 0, .any⟩, -- UOP_IPV4, R64
  ⟨0x1100, 0x05, 1, (.oct 16), .rw, .hm, .p, 0, .any⟩, -- UOP_IPV6, R64
  ⟨0x1100, 0x06, 1, (.u 2), .rw, .hm, .p, 49351, .rng 1 65535⟩, -- UOP_UDP_PORT, R64
  ⟨0x1100, 0x07, 1, (.u 4), .rw, .hm, .p, 4000, .rng 1 100000⟩, -- UOP_RATE_PORT, R64
  ⟨0x1100, 0x08, 1, (.u 4), .rw, .hm, .p, 1000, .rng 1 10000⟩, -- UOP_RATE_CHAN, R64
  ⟨0x1100, 0x09, 1, (.u 4), .rw, .hm, .p, 100000, .rng 1 400000⟩, -- UOP_RATE_DEV, R64
  ⟨0x1140, 0x01, 64, .bool, .rw, .hm, .p, 0, .any⟩, -- SESS_ENABLE, R64
  ⟨0x1140, 0x02, 64, (.oct 32), .wo, .hm, .p, 0, .any⟩, -- SESS_KEY, R64
  ⟨0x1140, 0x03, 64, .enum8, .rw, .hm, .p, 0, .codes [0, 1, 2]⟩, -- SESS_BIND, R64
  ⟨0x1140, 0x04, 64, (.u 2), .rw, .hm, .p, 0, .rng 0 255⟩, -- SESS_BIND_ID, R64
  ⟨0x1140, 0x05, 64, (.u 1), .rw, .hm, .p, 0, .codes [0, 1]⟩, -- SESS_CORE, R64
  ⟨0x1140, 0x06, 64, (.u 4), .ro, .hm, .n, 0, .any⟩, -- SESS_HIGH_SEQ, R64
  ⟨0x1140, 0x07, 64, .enum8, .ro, .hm, .n, 0, .any⟩, -- SESS_STATE, R64
  ⟨0x1140, 0x08, 64, (.u 8), .ro, .hm, .n, 0, .any⟩, -- SESS_ACCEPTED, R64
  ⟨0x1140, 0x09, 64, (.u 4), .rc, .hm, .n, 0, .any⟩, -- SESS_TAG_FAILS, R64
  ⟨0x1140, 0x0A, 64, (.u 4), .rc, .hm, .n, 0, .any⟩, -- SESS_REPLAYS, R64
  ⟨0x1140, 0x0B, 64, (.u 2), .ro, .hm, .n, 0x0000, .any⟩, -- SESS_LAST_ERR, R64
  ⟨0x1180, 0x01, 1, (.u 4), .rc, .hm, .n, 0, .any⟩, -- UOP_BAD_SESSION, R64
  ⟨0x1180, 0x02, 256, (.u 4), .rc, .hm, .n, 0, .any⟩, -- UOP_DROPS_PORT, R64
  ⟨0x1180, 0x03, 256, (.u 4), .rc, .hm, .n, 0, .any⟩] -- UOP_DROPS_CHAN, R64

/-- Rows of the area that begins at 1400h, part 0. -/
def rows05_0 : List ObjRow := [
  ⟨0x1400, 0x01, 1, (.u 4), .const, .hm, .n, 0, .any⟩, -- ROM_VERSION, R443
  ⟨0x1400, 0x02, 4, (.oct 32), .ro, .f, .n, 0, .any⟩, -- KEY_DIGEST, R443
  ⟨0x1400, 0x03, 4, .enum8, .ro, .hm, .n, 0, .any⟩, -- KEY_STATE, R443
  ⟨0x1400, 0x04, 2, (.u 1), .ro, .hm, .n, 0, .any⟩, -- ROLLBACK, R443
  ⟨0x1410, 0x01, 4, .enum8, .ro, .hm, .n, 0, .any⟩, -- SLOT_STATE, R443
  ⟨0x1410, 0x02, 4, (.u 4), .ro, .hm, .n, 0, .any⟩, -- SLOT_VERSION, R443
  ⟨0x1410, 0x03, 4, (.u 1), .ro, .hm, .n, 0, .any⟩, -- SLOT_SVN, R443
  ⟨0x1410, 0x04, 4, (.oct 32), .ro, .hm, .n, 0, .any⟩, -- SLOT_DIGEST, R443
  ⟨0x1410, 0x05, 2, .enum8, .ro, .hm, .n, 0xFF, .any⟩, -- ACTIVE_SLOT, R443
  ⟨0x1410, 0x06, 2, .enum8, .ro, .hm, .n, 0, .any⟩, -- TRY_STATE, R443
  ⟨0x1410, 0x07, 1, (.u 1), .ro, .hm, .n, 0, .any⟩, -- FW_TRY_LEFT, R443
  ⟨0x1420, 0x01, 1, .enum8, .ro, .hm, .n, 0, .any⟩, -- UPD_OWNER, R443
  ⟨0x1420, 0x02, 1, .enum8, .rw, .hm, .n, 1, .codes [1, 2]⟩, -- UPD_KIND, R443
  ⟨0x1420, 0x03, 65536, (.oct 256), .wo, .hm, .n, 0, .any⟩, -- UPD_CHUNK, R443
  ⟨0x1420, 0x04, 1, (.u 4), .rw, .hm, .n, 0, .rng 29920 16777216⟩, -- UPD_LENGTH, R443
  ⟨0x1420, 0x05, 1, (.u 1), .wo, .hm, .n, 0, .rng 1 4⟩, -- UPD_COMMAND, R443
  ⟨0x1420, 0x06, 1, .enum8, .ro, .hm, .n, 0, .any⟩, -- UPD_STATE, R443
  ⟨0x1420, 0x07, 1, (.u 4), .rw, .hm, .p, 600, .rng 60 86400⟩, -- UPD_CONFIRM_WAIT, R443
  ⟨0x1420, 0x08, 1, (.u 1), .ro, .hm, .n, 0, .any⟩, -- UPD_CAUSE, R443
  ⟨0x1420, 0x09, 1, (.u 4), .ro, .hm, .n, 0, .any⟩, -- UPD_TRIAL_LEFT, R443
  ⟨0x1430, 0x01, 1, (.bits 8), .rw, .hm, .p, 0x03, .bitsOf 0x03⟩, -- KEY_PLANES, R443
  ⟨0x1430, 0x02, 1, .bool, .rw, .hm, .n, 0, .any⟩, -- KEY_LOCK, R443
  ⟨0x1430, 0x03, 1, (.u 1), .wo, .hm, .n, 0, .codes [1]⟩, -- ZEROIZE, R443
  ⟨0x1430, 0x04, 1, (.u 4), .rc, .hm, .n, 0, .any⟩, -- KEY_WRITES, R443
  ⟨0x1440, 0x01, 1, (.oct 64), .ro, .hm, .n, 0, .any⟩, -- ID_PUBLIC_KEY, R443
  ⟨0x1440, 0x02, 1024, (.oct 256), .ro, .hm, .n, 0, .any⟩, -- ID_CHAIN, R443
  ⟨0x1440, 0x03, 1, (.u 4), .ro, .hm, .n, 59840, .any⟩, -- ID_CHAIN_LEN, R443
  ⟨0x1450, 0x01, 7, (.oct 32), .ro, .hm, .n, 0, .any⟩, -- MEASURE, R443
  ⟨0x1450, 0x02, 1, (.oct 32), .wo, .hm, .n, 0, .any⟩, -- USER_EXTEND, R443
  ⟨0x1450, 0x03, 2, (.oct 32), .wo, .hm, .n, 0, .any⟩, -- ATT_NONCE, R443
  ⟨0x1450, 0x04, 2, .enum8, .ro, .hm, .n, 0, .any⟩, -- ATT_STATE, R443
  ⟨0x1450, 0x05, 236, (.oct 256), .ro, .hm, .n, 0, .any⟩, -- ATT_REPORT, R443
  ⟨0x1450, 0x06, 1, (.u 4), .rc, .hm, .n, 0, .any⟩, -- ATT_SIGN_MAX, R443
  ⟨0x1460, 0x01, 2, .enum8, .ro, .hm, .n, 0, .any⟩, -- CORE_STATE, R443
  ⟨0x1460, 0x02, 2, .enum8, .ro, .hm, .n, 0, .any⟩, -- CORE_SLOT, R443
  ⟨0x1460, 0x03, 1, (.u 4), .rw, .hm, .p, 1000, .rng 100 10000⟩, -- CORE_WDOG, R443
  ⟨0x1460, 0x04, 2, (.u 1), .wo, .hm, .n, 0, .codes [1]⟩, -- CORE_RESTART, R443
  ⟨0x1460, 0x05, 2, (.u 4), .rc, .hm, .n, 0, .any⟩, -- CORE_UNPLANNED, R443
  ⟨0x1460, 0x06, 1, (.u 1), .ro, .hm, .n, 0xFF, .any⟩, -- SERVO_CORE, R443
  ⟨0x1460, 0x07, 1, (.u 1), .rw, .hm, .p, 3, .rng 1 20⟩, -- RESTART_LIMIT, R443
  ⟨0x1460, 0x08, 2, .enum8, .ro, .hm, .n, 0, .any⟩] -- RESTART_CAUSE, R443

/-- Rows of the area that begins at 1800h, part 0. -/
def rows06_0 : List ObjRow := [
  ⟨0x1800, 0x01, 1, .time80, .ro, .hm, .n, 0, .any⟩, -- TIME_NOW, R108
  ⟨0x1800, 0x02, 1, .enum8, .ro, .hm, .n, 0, .any⟩, -- TIME_STATE, R108
  ⟨0x1800, 0x03, 1, .bool, .ro, .hm, .n, 0, .any⟩, -- TIME_VALID, R108
  ⟨0x1800, 0x04, 1, (.u 8), .ro, .hm, .n, 0, .any⟩, -- DEVICE_TIME, R108
  ⟨0x1801, 0x01, 1, (.i 8), .wo, .hm, .n, 0, .srng (-(2^62)) (2^62)⟩, -- STEP_DELTA, R108
  ⟨0x1801, 0x02, 1, .time80, .wo, .hm, .n, 0, .any⟩, -- STEP_SET, R108
  ⟨0x1801, 0x03, 1, .bool, .ro, .hm, .n, 0, .any⟩, -- STEP_PENDING, R108
  ⟨0x1801, 0x04, 1, (.u 4), .rw, .hm, .p, 10000, .rng 1000 1000000⟩, -- STEP_LEAD, R108
  ⟨0x1802, 0x01, 1, .enum8, .rw, .hm, .p, 2, .rng 0 3⟩, -- REF_SELECT, R108
  ⟨0x1802, 0x02, 1, .enum8, .ro, .hm, .n, 0, .any⟩, -- REF_ACTIVE, R108
  ⟨0x1802, 0x03, 2, .enum8, .ro, .hm, .n, 0, .any⟩, -- REF_STATUS, R108
  ⟨0x1802, 0x04, 1, (.u 4), .rw, .hm, .p, 60, .rng 1 3600⟩, -- REF_REVERT_WAIT, R108
  ⟨0x1802, 0x05, 1, (.u 4), .rc, .hm, .n, 0, .any⟩, -- REF_SWITCHES, R108
  ⟨0x1810, 0x01, 256, .q16, .rw, .hm, .p, 0, .srng (-6553600) 6553600⟩, -- RX_TS_OFS, R108
  ⟨0x1810, 0x02, 256, .q16, .rw, .hm, .p, 0, .srng (-6553600) 6553600⟩, -- TX_TS_OFS, R108
  ⟨0x1810, 0x03, 256, .q16, .ro, .hm, .n, 0, .any⟩, -- RX_TS_EFF, R108
  ⟨0x1810, 0x04, 256, .q16, .ro, .hm, .n, 0, .any⟩, -- TX_TS_EFF, R108
  ⟨0x1810, 0x05, 256, .q16, .rw, .hm, .p, 0, .srng (-655360000) 655360000⟩, -- ASYMMETRY, R108
  ⟨0x1810, 0x06, 256, .q16, .rw, .hm, .n, 0, .srng (0) 1966080000⟩, -- LINK_DELAY, R108
  ⟨0x1820, 0x01, 1, .enum8, .rw, .hm, .p, 0, .codes [0, 1, 2]⟩, -- SERVO_MODE, R108
  ⟨0x1820, 0x02, 1, (.i 8), .wo, .hm, .n, 0, .any⟩, -- OFFSET_IN, R108
  ⟨0x1820, 0x03, 1, .q16, .rw, .hm, .p, 32768, .srng (0) 6553600⟩, -- SERVO_KP, R108
  ⟨0x1820, 0x04, 1, .q16, .rw, .hm, .p, 3277, .srng (0) 6553600⟩, -- SERVO_KI, R108
  ⟨0x1820, 0x05, 1, (.u 4), .rw, .hm, .p, 1000, .rng 10 1000000000⟩, -- JUMP_THRESH, R108
  ⟨0x1820, 0x06, 1, (.u 1), .rw, .hm, .p, 4, .rng 1 255⟩, -- REFUSE_LIMIT, R108
  ⟨0x1820, 0x07, 1, (.u 4), .rw, .hm, .p, 3000, .rng 100 600000⟩, -- FEED_TIMEOUT, R108
  ⟨0x1820, 0x08, 1, (.i 4), .ro, .hm, .n, 0, .any⟩, -- FREQ_ADJ, R108
  ⟨0x1820, 0x09, 1, (.i 4), .rw, .hm, .n, 0, .srng (-200000) 200000⟩, -- FREQ_SET, R108
  ⟨0x1820, 0x0A, 1, (.i 4), .ro, .hm, .n, 0, .any⟩, -- HOLDOVER_FREQ, R108
  ⟨0x1820, 0x0B, 1, (.i 8), .ro, .hm, .n, 0, .any⟩, -- OFFSET_LAST, R108
  ⟨0x1820, 0x0C, 1, (.u 4), .rc, .hm, .n, 0, .any⟩, -- OFFSETS_REFUSED, R108
  ⟨0x1820, 0x0D, 1, .enum8, .rw, .hm, .p, 0, .codes [0, 1]⟩, -- SERVO_SOURCE, R108
  ⟨0x1830, 0x01, 256, (.u 8), .ro, .hm, .n, 0, .any⟩, -- ONESTEP_DONE, R108
  ⟨0x1830, 0x02, 256, (.u 4), .rc, .hm, .n, 0, .any⟩, -- ONESTEP_SKIPPED, R108
  ⟨0x1830, 0x03, 256, (.u 8), .ro, .hm, .n, 0, .any⟩, -- TS_REFL_SENT, R108
  ⟨0x1830, 0x04, 256, (.u 4), .rc, .hm, .n, 0, .any⟩, -- TS_REFL_LOST, R108
  ⟨0x1830, 0x05, 256, .enum8, .rw, .hm, .n, 0, .codes [0, 1]⟩, -- TS_REFL_ROUTE, R108
  ⟨0x1840, 0x01, 1, .bool, .rw, .hm, .p, 0, .any⟩, -- PPS_OUT_EN, R108
  ⟨0x1840, 0x02, 1, (.i 4), .rw, .hm, .p, 0, .srng (-500000000) 499999999⟩, -- PPS_OUT_OFS, R108
  ⟨0x1840, 0x03, 1, (.u 4), .rw, .hm, .p, 100, .rng 1 500000⟩, -- PPS_OUT_WIDTH, R108
  ⟨0x1840, 0x04, 1, (.i 4), .rw, .hm, .p, 0, .srng (-100000) 100000⟩, -- PPS_IN_DELAY, R108
  ⟨0x1840, 0x05, 1, .time80, .ro, .hm, .n, 0, .any⟩] -- PPS_IN_LAST, R108

/-- Rows of the area that begins at 2000h, part 0. -/
def rows08_0 : List ObjRow := [
  ⟨0x2000, 0x01, 1024, .enum8, .ro, .hm, .n, 0, .any⟩, -- LANE_STATE, R76
  ⟨0x2000, 0x02, 1024, .bool, .rw, .hm, .n, 0, .any⟩, -- TX_INVERT, R76
  ⟨0x2000, 0x03, 1024, .bool, .rw, .hm, .n, 0, .any⟩, -- RX_INVERT, R76
  ⟨0x2000, 0x04, 1024, .bool, .rw, .hm, .n, 0, .any⟩, -- TX_PRECODE, R76
  ⟨0x2000, 0x05, 1024, .bool, .rw, .hm, .n, 0, .any⟩, -- RX_PRECODE, R76
  ⟨0x2010, 0x01, 1024, (.u 1), .rw, .hm, .n, 2, .rng 0 4⟩, -- FIR_PRESET, R76
  ⟨0x2010, 0x02, 1024, (.i 2), .rw, .hm, .n, 0, .srng (-64) 64⟩, -- FIR_PRE_OFS, R76
  ⟨0x2010, 0x03, 1024, (.i 2), .rw, .hm, .n, 0, .srng (-64) 64⟩, -- FIR_POST_OFS, R76
  ⟨0x2010, 0x04, 1024, (.i 2), .rw, .hm, .n, 0, .srng (-80) 80⟩, -- SWING_OFS, R76
  ⟨0x2010, 0x05, 1024, (.i 2), .ro, .hm, .n, 0, .any⟩, -- FIR_PRE_EFF, R76
  ⟨0x2010, 0x06, 1024, (.i 2), .ro, .hm, .n, 0, .any⟩, -- FIR_MAIN_EFF, R76
  ⟨0x2010, 0x07, 1024, (.i 2), .ro, .hm, .n, 0, .any⟩, -- FIR_POST_EFF, R76
  ⟨0x2010, 0x08, 1024, (.u 2), .ro, .hm, .n, 0, .any⟩, -- SWING_EFF, R76
  ⟨0x2010, 0x09, 1024, .bool, .ro, .hm, .n, 0, .any⟩, -- FIR_CLAMPED, R76
  ⟨0x2020, 0x01, 1024, .enum8, .rw, .hm, .n, 0, .codes [0, 1, 2]⟩, -- RX_ADAPT, R76
  ⟨0x2020, 0x02, 1024, (.u 1), .ro, .hm, .n, 0, .any⟩, -- RX_CTLE_EFF, R76
  ⟨0x2020, 0x03, 1024, (.i 2), .ro, .hm, .n, 0, .any⟩, -- RX_DFE_EFF, R76
  ⟨0x2020, 0x04, 1024, .q16, .ro, .hm, .n, 0, .any⟩, -- RX_SNR, R76
  ⟨0x2030, 0x01, 1024, (.i 2), .rw, .hm, .n, 0, .srng (-20) 20⟩, -- TERM_OFS, R75
  ⟨0x2030, 0x02, 1024, (.u 2), .ro, .hm, .n, 0, .any⟩, -- TERM_EFF, R75
  ⟨0x2030, 0x03, 1024, .enum8, .ro, .hm, .n, 0, .any⟩, -- CAL_STATE, R75
  ⟨0x2040, 0x01, 1024, .enum8, .rw, .hm, .n, 0, .rng 0 6⟩, -- GEN_PATTERN, R79
  ⟨0x2040, 0x02, 1024, .enum8, .rw, .hm, .n, 0, .rng 0 6⟩, -- CHK_PATTERN, R79
  ⟨0x2040, 0x03, 1024, .bool, .ro, .hm, .n, 0, .any⟩, -- CHK_LOCK, R79
  ⟨0x2040, 0x04, 1024, (.u 8), .rc, .hm, .n, 0, .any⟩, -- CHK_BITS, R79
  ⟨0x2040, 0x05, 1024, (.u 8), .rc, .hm, .n, 0, .any⟩, -- CHK_ERRORS, R79
  ⟨0x2040, 0x06, 1024, (.u 2), .wo, .hm, .n, 0, .rng 1 65535⟩] -- ERR_INJECT, R79

/-- Rows of the area that begins at 2400h, part 0. -/
def rows09_0 : List ObjRow := [
  ⟨0x2400, 0x01, 256, .enum8, .rw, .hm, .s, 0x06, .codes [1, 2, 3, 4, 5, 6, 0x11, 0x12, 0x14, 0x16]⟩, -- PORT_MODE, R86
  ⟨0x2400, 0x02, 256, .bool, .rw, .hm, .n, 0, .any⟩, -- PORT_ADMIN, R86
  ⟨0x2400, 0x03, 256, .enum8, .ro, .hm, .n, 0, .any⟩, -- PORT_STATE, R86
  ⟨0x2400, 0x04, 256, (.u 2), .rw, .hm, .n, 9216, .rng 1518 16383⟩, -- MAX_FRAME, R86
  ⟨0x2400, 0x05, 256, (.u 4), .rw, .hm, .n, 16384, .rng 1519 65535⟩, -- JABBER_LEN, R86
  ⟨0x2400, 0x06, 256, (.i 2), .ro, .hm, .n, 0, .any⟩, -- RX_PPM, R86
  ⟨0x2400, 0x07, 256, .bool, .ro, .hm, .n, 0, .any⟩, -- CT_INHIBIT, R86
  ⟨0x2410, 0x01, 256, (.u 4), .rw, .hm, .n, 0, .rng 0 10000000⟩, -- DOWN_HOLDOFF, R86
  ⟨0x2410, 0x02, 256, (.u 4), .rw, .hm, .n, 10000, .rng 0 60000000⟩, -- UP_HOLD, R86
  ⟨0x2410, 0x03, 256, .bool, .rw, .hm, .n, 0, .any⟩, -- DAMP_EN, R86
  ⟨0x2410, 0x04, 256, (.u 2), .rw, .hm, .n, 1000, .rng 1 10000⟩, -- DAMP_PENALTY, R86
  ⟨0x2410, 0x05, 256, (.u 2), .rw, .hm, .n, 5, .rng 1 60⟩, -- DAMP_HALFLIFE, R86
  ⟨0x2410, 0x06, 256, (.u 2), .rw, .hm, .n, 3000, .rng 2 65535⟩, -- DAMP_SUPPRESS, R86
  ⟨0x2410, 0x07, 256, (.u 2), .rw, .hm, .n, 1500, .rng 1 65534⟩, -- DAMP_REUSE, R86
  ⟨0x2410, 0x08, 256, (.u 2), .rw, .hm, .n, 12000, .rng 2 65535⟩, -- DAMP_MAX, R86
  ⟨0x2410, 0x09, 256, (.u 2), .ro, .hm, .n, 0, .any⟩, -- DAMP_FIGURE, R86
  ⟨0x2410, 0x0A, 256, (.u 4), .rc, .hm, .n, 0, .any⟩, -- LINK_DOWNS, R86
  ⟨0x2410, 0x0B, 256, (.u 4), .rc, .hm, .n, 0, .any⟩, -- SUPPRESSIONS, R86
  ⟨0x2410, 0x0C, 256, .time80, .ro, .hm, .n, 0, .any⟩, -- LAST_CHANGE, R86
  ⟨0x2410, 0x0D, 256, (.u 4), .rc, .hm, .n, 0, .any⟩, -- HOLDOFF_RIDES, R86
  ⟨0x2420, 0x01, 256, (.u 8), .ro, .hm, .n, 0, .any⟩, -- RX_FRAMES, R86
  ⟨0x2420, 0x02, 256, (.u 8), .ro, .hm, .n, 0, .any⟩, -- RX_OCTETS, R86
  ⟨0x2420, 0x03, 256, (.u 8), .ro, .hm, .n, 0, .any⟩, -- RX_FCS_ERR, R86
  ⟨0x2420, 0x04, 256, (.u 8), .ro, .hm, .n, 0, .any⟩, -- RX_STOMPED_UP, R86
  ⟨0x2420, 0x05, 256, (.u 8), .ro, .hm, .n, 0, .any⟩, -- RX_RUNTS, R86
  ⟨0x2420, 0x06, 256, (.u 8), .ro, .hm, .n, 0, .any⟩, -- RX_OVERSIZE, R86
  ⟨0x2420, 0x07, 256, (.u 8), .ro, .hm, .n, 0, .any⟩, -- RX_JABBER, R86
  ⟨0x2420, 0x08, 256, (.u 8), .ro, .hm, .n, 0, .any⟩, -- RX_TRUNCATED, R86
  ⟨0x2420, 0x09, 256, (.u 8), .ro, .hm, .n, 0, .any⟩, -- TX_FRAMES, R86
  ⟨0x2420, 0x0A, 256, (.u 8), .ro, .hm, .n, 0, .any⟩, -- TX_OCTETS, R86
  ⟨0x2420, 0x0B, 256, (.u 8), .ro, .hm, .n, 0, .any⟩, -- TX_FAULT_ENDED, R86
  ⟨0x2430, 0x01, 256, (.u 8), .ro, .hm, .n, 0, .any⟩, -- FEC_CW, R86
  ⟨0x2430, 0x02, 256, (.u 8), .ro, .hm, .n, 0, .any⟩, -- FEC_CORRECTED, R86
  ⟨0x2430, 0x03, 256, (.u 8), .ro, .hm, .n, 0, .any⟩, -- FEC_UNCORR, R86
  ⟨0x2431, 0x01, 1024, (.u 8), .ro, .hm, .n, 0, .any⟩, -- FEC_SYM_ERR, R86
  ⟨0x2432, 0x01, 256, (.u 8), .ro, .hm, .n, 0, .any⟩, -- FEC_HIST, R86
  ⟨0x2432, 0x02, 256, (.u 8), .ro, .hm, .n, 0, .any⟩, -- FEC_HIST, R86
  ⟨0x2432, 0x03, 256, (.u 8), .ro, .hm, .n, 0, .any⟩, -- FEC_HIST, R86
  ⟨0x2432, 0x04, 256, (.u 8), .ro, .hm, .n, 0, .any⟩, -- FEC_HIST, R86
  ⟨0x2432, 0x05, 256, (.u 8), .ro, .hm, .n, 0, .any⟩, -- FEC_HIST, R86
  ⟨0x2432, 0x06, 256, (.u 8), .ro, .hm, .n, 0, .any⟩, -- FEC_HIST, R86
  ⟨0x2432, 0x07, 256, (.u 8), .ro, .hm, .n, 0, .any⟩, -- FEC_HIST, R86
  ⟨0x2432, 0x08, 256, (.u 8), .ro, .hm, .n, 0, .any⟩, -- FEC_HIST, R86
  ⟨0x2432, 0x09, 256, (.u 8), .ro, .hm, .n, 0, .any⟩, -- FEC_HIST, R86
  ⟨0x2432, 0x0A, 256, (.u 8), .ro, .hm, .n, 0, .any⟩, -- FEC_HIST, R86
  ⟨0x2432, 0x0B, 256, (.u 8), .ro, .hm, .n, 0, .any⟩, -- FEC_HIST, R86
  ⟨0x2432, 0x0C, 256, (.u 8), .ro, .hm, .n, 0, .any⟩, -- FEC_HIST, R86
  ⟨0x2432, 0x0D, 256, (.u 8), .ro, .hm, .n, 0, .any⟩, -- FEC_HIST, R86
  ⟨0x2432, 0x0E, 256, (.u 8), .ro, .hm, .n, 0, .any⟩, -- FEC_HIST, R86
  ⟨0x2432, 0x0F, 256, (.u 8), .ro, .hm, .n, 0, .any⟩, -- FEC_HIST, R86
  ⟨0x2432, 0x10, 256, (.u 8), .ro, .hm, .n, 0, .any⟩, -- FEC_HIST, R86
  ⟨0x2432, 0x11, 256, (.u 8), .ro, .hm, .n, 0, .any⟩, -- FEC_HIST, R86
  ⟨0x2440, 0x01, 256, (.bits 16), .ro, .hm, .n, 0, .any⟩, -- FAULT_CAUSE, R86
  ⟨0x2440, 0x02, 256, (.bits 16), .w1c, .hm, .n, 0, .bitsOf 0x03FF⟩, -- FAULT_LATCH, R86
  ⟨0x2440, 0x03, 256, .bool, .ro, .hm, .n, 1, .any⟩] -- TX_STOPPED, R86

/-- Rows of the area that begins at 2800h, part 0. -/
def rows0A_0 : List ObjRow := [
  ⟨0x2800, 0x01, 256, .enum8, .ro, .hm, .n, 0, .any⟩, -- LINE_STATE, R137
  ⟨0x2800, 0x02, 256, .enum8, .ro, .hm, .n, 0, .any⟩, -- RX_PAGE, R137
  ⟨0x2800, 0x03, 256, .enum8, .ro, .hm, .n, 0, .any⟩, -- TX_PAGE, R137
  ⟨0x2800, 0x04, 256, (.u 4), .rc, .hm, .n, 0, .any⟩, -- PI_IGNORED, R137
  ⟨0x2800, 0x05, 256, (.u 4), .rc, .hm, .n, 0, .any⟩, -- PI_RESYNCS, R137
  ⟨0x2810, 0x01, 40960, .enum8, .rw, .hm, .s, 0, .rng 0 3⟩, -- CM_MODE, R137
  ⟨0x2810, 0x02, 40960, (.u 2), .rw, .hm, .s, 0, .rng 0 40959⟩, -- CM_SOURCE, R137
  ⟨0x2810, 0x03, 40960, (.u 2), .rw, .hm, .s, 0, .rng 0 40959⟩, -- CM_TRIB, R137
  ⟨0x2810, 0x04, 40960, (.u 1), .rw, .hm, .s, 0, .rng 0 15⟩, -- CM_SUBQ, R137
  ⟨0x2810, 0x05, 40960, (.u 1), .rw, .hm, .s, 8, .rng 4 64⟩, -- CM_TARGET, R137
  ⟨0x2811, 0x01, 1, .enum8, .rw, .hm, .s, 0, .codes [0, 1]⟩, -- CM_SWAP_MODE, R137
  ⟨0x2811, 0x02, 1, .time80, .rw, .hm, .s, 0, .any⟩, -- CM_SWAP_TIME, R137
  ⟨0x2811, 0x03, 1, (.u 4), .rc, .hm, .n, 0, .any⟩, -- CM_SWAPS, R137
  ⟨0x2811, 0x04, 1, (.u 4), .rc, .hm, .n, 0, .any⟩, -- CM_LATE, R137
  ⟨0x2820, 0x01, 40960, .enum8, .rw, .hm, .n, 0, .rng 0 3⟩, -- RX_MODE_A, R137
  ⟨0x2820, 0x02, 40960, (.u 2), .rw, .hm, .n, 0, .rng 0 40959⟩, -- RX_TRIB_A, R137
  ⟨0x2820, 0x03, 40960, .enum8, .rw, .hm, .n, 0, .rng 0 3⟩, -- RX_MODE_B, R137
  ⟨0x2820, 0x04, 40960, (.u 2), .rw, .hm, .n, 0, .rng 0 40959⟩, -- RX_TRIB_B, R137
  ⟨0x2830, 0x01, 40960, (.u 1), .ro, .hm, .n, 0, .any⟩, -- TRIB_RX_SL, R137
  ⟨0x2830, 0x02, 40960, (.u 1), .ro, .hm, .n, 0, .any⟩, -- TRIB_RX_SIZE, R137
  ⟨0x2830, 0x03, 40960, (.u 8), .ro, .hm, .n, 0, .any⟩, -- JC_POSITIVE, R137
  ⟨0x2830, 0x04, 40960, (.u 8), .ro, .hm, .n, 0, .any⟩, -- JC_NEGATIVE, R137
  ⟨0x2830, 0x05, 40960, (.u 4), .rc, .hm, .n, 0, .any⟩, -- JC_AMBIGUOUS, R137
  ⟨0x2830, 0x06, 40960, (.u 4), .rc, .hm, .n, 0, .any⟩, -- JC_INVALID, R137
  ⟨0x2830, 0x07, 40960, (.u 4), .rc, .hm, .n, 0, .any⟩, -- SIZE_MISMATCH, R137
  ⟨0x2831, 0x01, 40960, .enum8, .ro, .hm, .n, 0, .any⟩, -- OUT_STATE, R137
  ⟨0x2831, 0x02, 40960, (.u 4), .ro, .hm, .n, 0, .any⟩, -- OUT_DELAY, R137
  ⟨0x2831, 0x03, 40960, (.u 2), .ro, .hm, .n, 0, .any⟩, -- FIFO_FILL, R137
  ⟨0x2831, 0x04, 40960, (.u 4), .rc, .hm, .n, 0, .any⟩, -- FIFO_SLIPS, R137
  ⟨0x2831, 0x05, 40960, (.u 4), .rc, .hm, .n, 0, .any⟩, -- REESTABLISHED, R137
  ⟨0x2831, 0x06, 40960, (.u 4), .rc, .hm, .n, 0, .any⟩, -- REFUSED, R137
  ⟨0x2832, 0x01, 40960, (.u 2), .rw, .hm, .n, 9216, .rng 1518 16383⟩, -- PC_MAX_FRAME, R137
  ⟨0x2832, 0x02, 40960, (.u 8), .ro, .hm, .n, 0, .any⟩, -- PC_RX_FRAMES, R137
  ⟨0x2832, 0x03, 40960, (.u 8), .ro, .hm, .n, 0, .any⟩, -- PC_RX_OCTETS, R137
  ⟨0x2832, 0x04, 40960, (.u 8), .ro, .hm, .n, 0, .any⟩, -- PC_RX_ERRORS, R137
  ⟨0x2832, 0x05, 40960, (.u 8), .ro, .hm, .n, 0, .any⟩, -- PC_RX_STOMPED_UP, R137
  ⟨0x2832, 0x06, 40960, (.u 8), .ro, .hm, .n, 0, .any⟩, -- PC_RX_LENGTH, R137
  ⟨0x2832, 0x07, 40960, (.u 8), .ro, .hm, .n, 0, .any⟩, -- PC_RX_LABEL_DROPS, R137
  ⟨0x2832, 0x08, 40960, (.u 8), .ro, .hm, .n, 0, .any⟩, -- PC_TX_FRAMES, R137
  ⟨0x2832, 0x09, 40960, (.u 8), .ro, .hm, .n, 0, .any⟩, -- PC_TX_OCTETS, R137
  ⟨0x2833, 0x01, 256, (.u 8), .ro, .hm, .n, 0, .any⟩, -- PC_UNBOUND_DROPS, R137
  ⟨0x2834, 0x01, 40960, .bool, .ro, .hm, .n, 0, .any⟩, -- TP_LOCK, R137
  ⟨0x2834, 0x02, 40960, (.u 8), .rc, .hm, .n, 0, .any⟩, -- TP_ERR_BLOCKS, R137
  ⟨0x2850, 0x01, 31, (.oct 16), .rw, .hm, .s, 0xFFFFFFFFFFFFFFFFFFFFFFFFFFFFFFFF, .any⟩, -- BOND_MEMBERS, R137
  ⟨0x2850, 0x02, 31, .enum8, .ro, .hm, .n, 0, .any⟩, -- BOND_STATE, R137
  ⟨0x2850, 0x03, 31, (.u 4), .ro, .hm, .n, 0, .any⟩, -- BOND_SKEW, R137
  ⟨0x2850, 0x04, 31, (.u 4), .rc, .hm, .n, 0, .any⟩, -- BOND_SKEW_FAILS, R137
  ⟨0x2870, 0x01, 256, .enum8, .rw, .hm, .p, 1, .codes [0, 1, 2]⟩, -- DCC_ROUTE, R137
  ⟨0x2870, 0x02, 256, (.u 1), .rw, .hm, .p, 0, .rng 0 31⟩, -- DCC_OHP_SLOT, R137
  ⟨0x2870, 0x03, 256, (.u 8), .ro, .hm, .n, 0, .any⟩, -- DCC_RX_OCTETS, R137
  ⟨0x2870, 0x04, 256, (.u 8), .ro, .hm, .n, 0, .any⟩, -- DCC_TX_OCTETS, R137
  ⟨0x2870, 0x05, 256, (.u 4), .rc, .hm, .n, 0, .any⟩, -- DCC_OVERFLOW, R137
  ⟨0x2871, 0x01, 8, .bool, .rw, .hm, .p, 0, .any⟩, -- OHP_ENABLE, R137
  ⟨0x2871, 0x02, 8, .bool, .ro, .hm, .n, 0, .any⟩, -- OHP_READY, R137
  ⟨0x2880, 0x01, 256, (.bits 16), .ro, .hm, .n, 0, .any⟩, -- DEFECTS, R161
  ⟨0x2880, 0x02, 256, (.bits 16), .w1c, .hm, .n, 0, .bitsOf 0x03FF⟩, -- DEFECT_LATCH, R161
  ⟨0x2880, 0x03, 256, (.u 8), .ro, .hm, .n, 0, .any⟩, -- BIP_VIOL, R161
  ⟨0x2880, 0x04, 256, (.u 4), .ro, .hm, .n, 0, .any⟩, -- BER_EST, R161
  ⟨0x2880, 0x05, 256, (.u 1), .rw, .hm, .p, 7, .rng 5 9⟩, -- DEG_EXP, R161
  ⟨0x2880, 0x06, 256, (.u 4), .rc, .hm, .n, 0, .any⟩] -- SF_COUNT, R161

/-- Rows of the area that begins at 2800h, part 1. -/
def rows0A_1 : List ObjRow := [
  ⟨0x2881, 0x01, 40960, (.bits 16), .ro, .hm, .n, 0, .any⟩, -- DEFECTS, R161
  ⟨0x2881, 0x02, 40960, (.bits 16), .w1c, .hm, .n, 0, .bitsOf 0x03FF⟩, -- DEFECT_LATCH, R161
  ⟨0x2881, 0x03, 40960, (.u 8), .ro, .hm, .n, 0, .any⟩, -- BIP_VIOL, R161
  ⟨0x2881, 0x04, 40960, (.u 4), .ro, .hm, .n, 0, .any⟩, -- BER_EST, R161
  ⟨0x2881, 0x05, 40960, (.u 1), .rw, .hm, .p, 7, .rng 5 9⟩, -- DEG_EXP, R161
  ⟨0x2881, 0x06, 40960, (.u 4), .rc, .hm, .n, 0, .any⟩, -- SF_COUNT, R161
  ⟨0x2890, 0x01, 256, (.u 4), .ro, .hm, .n, 0, .any⟩, -- PM_CURRENT, R161
  ⟨0x2890, 0x02, 256, (.u 4), .ro, .hm, .n, 0, .any⟩, -- PM_CURRENT, R161
  ⟨0x2890, 0x03, 256, (.u 4), .ro, .hm, .n, 0, .any⟩, -- PM_CURRENT, R161
  ⟨0x2890, 0x04, 256, (.u 4), .ro, .hm, .n, 0, .any⟩, -- PM_CURRENT, R161
  ⟨0x2890, 0x05, 256, (.u 4), .ro, .hm, .n, 0, .any⟩, -- PM_CURRENT, R161
  ⟨0x2890, 0x06, 256, (.u 4), .ro, .hm, .n, 0, .any⟩, -- PM_CURRENT, R161
  ⟨0x2890, 0x07, 256, (.bits 8), .ro, .hm, .n, 0, .any⟩, -- PM_FLAGS, R161
  ⟨0x2890, 0x08, 256, .enum8, .ro, .hm, .n, 0, .any⟩, -- PM_AVAIL, R161
  ⟨0x2891, 0x01, 24576, (.u 4), .ro, .hm, .n, 0, .any⟩, -- PM_HIST15, R161
  ⟨0x2891, 0x02, 24576, (.u 4), .ro, .hm, .n, 0, .any⟩, -- PM_HIST15, R161
  ⟨0x2891, 0x03, 24576, (.u 4), .ro, .hm, .n, 0, .any⟩, -- PM_HIST15, R161
  ⟨0x2891, 0x04, 24576, (.u 4), .ro, .hm, .n, 0, .any⟩, -- PM_HIST15, R161
  ⟨0x2891, 0x05, 24576, .time80, .ro, .hm, .n, 0, .any⟩, -- PM_HIST15_END, R161
  ⟨0x2892, 0x01, 1792, (.u 4), .ro, .hm, .n, 0, .any⟩, -- PM_HIST24, R161
  ⟨0x2892, 0x02, 1792, (.u 4), .ro, .hm, .n, 0, .any⟩, -- PM_HIST24, R161
  ⟨0x2892, 0x03, 1792, (.u 4), .ro, .hm, .n, 0, .any⟩, -- PM_HIST24, R161
  ⟨0x2892, 0x04, 1792, (.u 4), .ro, .hm, .n, 0, .any⟩, -- PM_HIST24, R161
  ⟨0x2892, 0x05, 1792, .time80, .ro, .hm, .n, 0, .any⟩, -- PM_HIST24, R161
  ⟨0x2893, 0x01, 1, (.u 4), .rw, .hm, .p, 120, .any⟩, -- PM_THRESH_LINE, R161
  ⟨0x2893, 0x02, 1, (.u 4), .rw, .hm, .p, 15, .any⟩, -- PM_THRESH_LINE, R161
  ⟨0x2893, 0x03, 1, (.u 4), .rw, .hm, .p, 10, .any⟩, -- PM_THRESH_LINE, R161
  ⟨0x2893, 0x04, 1, (.u 4), .rw, .hm, .p, 1200, .any⟩, -- PM_THRESH_LINE, R161
  ⟨0x2893, 0x05, 1, (.u 4), .rw, .hm, .p, 30, .any⟩, -- PM_THRESH_LINE, R161
  ⟨0x2893, 0x06, 1, (.u 4), .rw, .hm, .p, 10, .any⟩, -- PM_THRESH_LINE, R161
  ⟨0x2893, 0x07, 1, (.u 4), .rw, .hm, .p, 120, .any⟩, -- PM_THRESH_TRIB, R161
  ⟨0x2893, 0x08, 1, (.u 4), .rw, .hm, .p, 15, .any⟩, -- PM_THRESH_TRIB, R161
  ⟨0x2893, 0x09, 1, (.u 4), .rw, .hm, .p, 10, .any⟩, -- PM_THRESH_TRIB, R161
  ⟨0x2893, 0x0A, 1, (.u 4), .rw, .hm, .p, 1200, .any⟩, -- PM_THRESH_TRIB, R161
  ⟨0x2893, 0x0B, 1, (.u 4), .rw, .hm, .p, 30, .any⟩, -- PM_THRESH_TRIB, R161
  ⟨0x2893, 0x0C, 1, (.u 4), .rw, .hm, .p, 10, .any⟩, -- PM_THRESH_TRIB, R161
  ⟨0x28A0, 0x01, 40960, (.u 4), .ro, .hm, .n, 0, .any⟩, -- PM_CURRENT, R161
  ⟨0x28A0, 0x02, 40960, (.u 4), .ro, .hm, .n, 0, .any⟩, -- PM_CURRENT, R161
  ⟨0x28A0, 0x03, 40960, (.u 4), .ro, .hm, .n, 0, .any⟩, -- PM_CURRENT, R161
  ⟨0x28A0, 0x04, 40960, (.u 4), .ro, .hm, .n, 0, .any⟩, -- PM_CURRENT, R161
  ⟨0x28A0, 0x05, 40960, (.u 4), .ro, .hm, .n, 0, .any⟩, -- PM_CURRENT, R161
  ⟨0x28A0, 0x06, 40960, (.u 4), .ro, .hm, .n, 0, .any⟩, -- PM_CURRENT, R161
  ⟨0x28A0, 0x07, 40960, (.bits 8), .ro, .hm, .n, 0, .any⟩, -- PM_FLAGS, R161
  ⟨0x28A0, 0x08, 40960, .enum8, .ro, .hm, .n, 0, .any⟩, -- PM_AVAIL, R161
  ⟨0x28A1, 0x01, 3932160, (.u 4), .ro, .hm, .n, 0, .any⟩, -- PM_HIST15, R161
  ⟨0x28A1, 0x02, 3932160, (.u 4), .ro, .hm, .n, 0, .any⟩, -- PM_HIST15, R161
  ⟨0x28A1, 0x03, 3932160, (.u 4), .ro, .hm, .n, 0, .any⟩, -- PM_HIST15, R161
  ⟨0x28A1, 0x04, 3932160, (.u 4), .ro, .hm, .n, 0, .any⟩, -- PM_HIST15, R161
  ⟨0x28A1, 0x05, 3932160, .time80, .ro, .hm, .n, 0, .any⟩, -- PM_HIST15_END, R161
  ⟨0x28A2, 0x01, 286720, (.u 4), .ro, .hm, .n, 0, .any⟩, -- PM_HIST24, R161
  ⟨0x28A2, 0x02, 286720, (.u 4), .ro, .hm, .n, 0, .any⟩, -- PM_HIST24, R161
  ⟨0x28A2, 0x03, 286720, (.u 4), .ro, .hm, .n, 0, .any⟩, -- PM_HIST24, R161
  ⟨0x28A2, 0x04, 286720, (.u 4), .ro, .hm, .n, 0, .any⟩, -- PM_HIST24, R161
  ⟨0x28A2, 0x05, 286720, .time80, .ro, .hm, .n, 0, .any⟩, -- PM_HIST24, R161
  ⟨0x28C0, 0x01, 1024, .enum8, .rw, .hm, .sp, 0, .rng 0 4⟩, -- PG_TYPE, R161
  ⟨0x28C0, 0x02, 1024, (.u 2), .rw, .hm, .sp, 0, .any⟩, -- PG_WORK, R161
  ⟨0x28C0, 0x03, 1024, (.u 2), .rw, .hm, .sp, 0, .any⟩, -- PG_PROT, R161
  ⟨0x28C0, 0x04, 1024, .bool, .rw, .hm, .sp, 1, .any⟩, -- PG_BIDIR, R161
  ⟨0x28C0, 0x05, 1024, .bool, .rw, .hm, .sp, 1, .any⟩, -- PG_REVERT, R161
  ⟨0x28C0, 0x06, 1024, (.u 4), .rw, .hm, .sp, 0, .rng 0 100000⟩] -- PG_HOLDOFF, R161

/-- Rows of the area that begins at 2800h, part 2. -/
def rows0A_2 : List ObjRow := [
  ⟨0x28C0, 0x07, 1024, (.u 2), .rw, .hm, .sp, 300, .rng 0 720⟩, -- PG_WTR, R161
  ⟨0x28C0, 0x08, 1024, .bool, .rw, .hm, .sp, 1, .any⟩, -- PG_SD_TRIG, R161
  ⟨0x28C1, 0x01, 1024, (.u 1), .wo, .hm, .n, 0, .rng 0 4⟩, -- PG_COMMAND, R161
  ⟨0x28C1, 0x02, 1024, .enum8, .ro, .hm, .n, 0, .any⟩, -- PG_STATE, R161
  ⟨0x28C1, 0x03, 1024, (.u 1), .ro, .hm, .n, 0, .any⟩, -- PG_LOCAL_REQ, R161
  ⟨0x28C1, 0x04, 1024, (.u 1), .ro, .hm, .n, 0, .any⟩, -- PG_FAR_REQ, R161
  ⟨0x28C1, 0x05, 1024, .enum8, .ro, .hm, .n, 0, .any⟩, -- PG_SELECTED, R161
  ⟨0x28C1, 0x06, 1024, (.u 4), .rc, .hm, .n, 0, .any⟩, -- PG_SWITCHES, R161
  ⟨0x28C1, 0x07, 1024, .time80, .ro, .hm, .n, 0, .any⟩, -- PG_LAST_SWITCH, R161
  ⟨0x28C1, 0x08, 1024, .enum8, .ro, .hm, .n, 0, .any⟩, -- PG_FOP, R161
  ⟨0x28C1, 0x09, 1024, (.u 2), .ro, .hm, .n, 0, .any⟩, -- PG_WTR_LEFT, R161
  ⟨0x28E0, 0x01, 18, (.u 4), .rw, .hm, .p, 0, .rng 1 10000⟩, -- IN_DWELL, R161
  ⟨0x28E0, 0x02, 18, (.u 2), .rw, .hm, .p, 0, .rng 2 1000⟩, -- IN_CHATTER, R161
  ⟨0x28E0, 0x03, 18, (.u 4), .rw, .hm, .p, 0, .rng 0 3600000⟩, -- IN_WATCHDOG, R161
  ⟨0x28E0, 0x04, 18, (.u 4), .rw, .hm, .p, 0, .rng 1 60000⟩, -- IN_RELEASE, R161
  ⟨0x28E0, 0x05, 18, .enum8, .ro, .hm, .n, 0, .any⟩, -- IN_STATE, R161
  ⟨0x28E0, 0x06, 18, .bool, .ro, .hm, .n, 0, .any⟩, -- IN_LEVEL, R161
  ⟨0x28E0, 0x07, 18, (.u 4), .rc, .hm, .n, 0, .any⟩, -- IN_CHATTERS, R161
  ⟨0x28E0, 0x08, 18, (.u 4), .rc, .hm, .n, 0, .any⟩, -- IN_STUCKS, R161
  ⟨0x28E1, 0x01, 8, (.u 2), .rw, .hm, .p, 0, .rng 0 1023⟩, -- PIN_GROUP, R161
  ⟨0x28E1, 0x02, 8, .enum8, .rw, .hm, .p, 0, .rng 0 3⟩] -- PIN_REQUEST, R161

/-- Rows of the area that begins at 3000h, part 0. -/
def rows0C_0 : List ObjRow := [
  ⟨0x3000, 0x01, 1, .table, .rw, .hm, .s, 0, .any⟩, -- PARSE_GRAPH, R183
  ⟨0x3010, 0x01, 256, (.u 1), .rw, .hm, .s, 0, .any⟩, -- PARSE_START, R183
  ⟨0x3010, 0x02, 256, .enum8, .rw, .hm, .s, 0, .rng 0 2⟩, -- DEPTH_POLICY, R183
  ⟨0x3010, 0x03, 256, .enum8, .rw, .hm, .s, 0, .codes [0, 1]⟩, -- INCONS_POLICY, R183
  ⟨0x3010, 0x04, 256, .bool, .rw, .hm, .s, 0, .any⟩, -- TRUST_LEN, R183
  ⟨0x3010, 0x05, 256, .enum8, .rw, .hm, .s, 0, .codes [0, 1, 2]⟩, -- PRE_CLASS_MODE, R183
  ⟨0x3010, 0x06, 256, (.u 1), .rw, .hm, .s, 0, .rng 0 7⟩, -- PRE_DEFAULT_TC, R183
  ⟨0x3011, 0x01, 2048, (.u 1), .rw, .hm, .s, 0, .rng 0 7⟩, -- PCP_MAP, R183
  ⟨0x3012, 0x01, 16384, (.u 1), .rw, .hm, .s, 0, .rng 0 7⟩, -- DSCP_MAP, R183
  ⟨0x3020, 0x01, 256, (.u 8), .ro, .hm, .n, 0, .any⟩, -- TRUNCATED, R183
  ⟨0x3020, 0x02, 256, (.u 8), .ro, .hm, .n, 0, .any⟩, -- INCONS_PARSE, R183
  ⟨0x3020, 0x03, 256, (.u 8), .ro, .hm, .n, 0, .any⟩, -- INCONS_LATE, R183
  ⟨0x3020, 0x04, 256, (.u 8), .ro, .hm, .n, 0, .any⟩, -- UNKNOWN_STATE, R183
  ⟨0x3020, 0x05, 256, (.u 8), .ro, .hm, .n, 0, .any⟩, -- PARSE_DROPS, R183
  ⟨0x3020, 0x06, 256, (.u 8), .ro, .hm, .n, 0, .any⟩, -- PARSE_PUNTS, R183
  ⟨0x3020, 0x07, 256, (.u 8), .ro, .hm, .n, 0, .any⟩, -- ACTION_DROPS, R183
  ⟨0x3020, 0x08, 256, (.u 8), .ro, .hm, .n, 0, .any⟩, -- NO_DEST_DROPS, R183
  ⟨0x3021, 0x01, 2048, (.u 8), .ro, .hm, .n, 0, .any⟩, -- PRE_SHED, R183
  ⟨0x3022, 0x01, 64, (.u 2), .rc, .hm, .n, 0, .any⟩, -- PRE_FIFO_PEAK, R183
  ⟨0x3023, 0x01, 1, (.u 2), .rw, .hm, .s, 640, .rng 1 1024⟩, -- PRE_THRESH, R183
  ⟨0x3023, 0x02, 1, (.u 2), .rw, .hm, .s, 688, .rng 1 1024⟩, -- PRE_THRESH, R183
  ⟨0x3023, 0x03, 1, (.u 2), .rw, .hm, .s, 736, .rng 1 1024⟩, -- PRE_THRESH, R183
  ⟨0x3023, 0x04, 1, (.u 2), .rw, .hm, .s, 784, .rng 1 1024⟩, -- PRE_THRESH, R183
  ⟨0x3023, 0x05, 1, (.u 2), .rw, .hm, .s, 832, .rng 1 1024⟩, -- PRE_THRESH, R183
  ⟨0x3023, 0x06, 1, (.u 2), .rw, .hm, .s, 880, .rng 1 1024⟩, -- PRE_THRESH, R183
  ⟨0x3023, 0x07, 1, (.u 2), .rw, .hm, .s, 928, .rng 1 1024⟩, -- PRE_THRESH, R183
  ⟨0x3023, 0x08, 1, (.u 2), .rw, .hm, .s, 976, .rng 1 1024⟩, -- PRE_THRESH, R183
  ⟨0x3050, 0x01, 16, (.u 1), .rw, .hm, .s, 0, .codes [0, 1, 4]⟩, -- HP_ADDR_WORDS, R183
  ⟨0x3050, 0x02, 16, (.u 1), .rw, .hm, .s, 0xFF, .orFF 0 127⟩, -- HP_SRC_ADDR, R183
  ⟨0x3050, 0x03, 16, (.u 1), .rw, .hm, .s, 0xFF, .orFF 0 127⟩, -- HP_DST_ADDR, R183
  ⟨0x3050, 0x04, 16, (.u 1), .rw, .hm, .s, 0xFF, .orFF 0 127⟩, -- HP_SRC_PORT, R183
  ⟨0x3050, 0x05, 16, (.u 1), .rw, .hm, .s, 0xFF, .orFF 0 127⟩, -- HP_DST_PORT, R183
  ⟨0x3050, 0x06, 16, (.u 1), .rw, .hm, .s, 0xFF, .orFF 0 127⟩, -- HP_PROTO, R183
  ⟨0x3050, 0x07, 16, .bool, .rw, .hm, .s, 0, .any⟩, -- HP_FLOW_EN, R183
  ⟨0x3100, 0x01, 1, .table, .rw, .hm, .s, 0, .any⟩, -- TENON_TABLE, R183
  ⟨0x3100, 0x02, 1, .table, .rw, .hm, .s, 0, .any⟩, -- TENON_TABLE, R183
  ⟨0x3100, 0x03, 1, .table, .rw, .hm, .s, 0, .any⟩, -- TENON_TABLE, R183
  ⟨0x3100, 0x04, 1, .table, .rw, .hm, .s, 0, .any⟩, -- TENON_TABLE, R183
  ⟨0x3100, 0x05, 1, .table, .rw, .hm, .s, 0, .any⟩, -- TENON_TABLE, R183
  ⟨0x3100, 0x06, 1, .table, .rw, .hm, .s, 0, .any⟩, -- TENON_TABLE, R183
  ⟨0x3100, 0x07, 1, .table, .rw, .hm, .s, 0, .any⟩, -- TENON_TABLE, R183
  ⟨0x3100, 0x08, 1, .table, .rw, .hm, .s, 0, .any⟩, -- TENON_TABLE, R183
  ⟨0x3100, 0x09, 1, .table, .rw, .hm, .s, 0, .any⟩, -- TENON_TABLE, R183
  ⟨0x3100, 0x0A, 1, .table, .rw, .hm, .s, 0, .any⟩, -- TENON_TABLE, R183
  ⟨0x3100, 0x0B, 1, .table, .rw, .hm, .s, 0, .any⟩, -- TENON_TABLE, R183
  ⟨0x3100, 0x0C, 1, .table, .rw, .hm, .s, 0, .any⟩, -- TENON_TABLE, R183
  ⟨0x3110, 0x01, 12, (.oct 10), .rw, .hm, .s, 0xFFFFFFFFFFFFFFFFFFFF, .any⟩, -- KEY_SEL, R183
  ⟨0x3110, 0x02, 12, .enum8, .rw, .hm, .s, 0, .codes [0, 1]⟩, -- KEY_WIDTH, R183
  ⟨0x3110, 0x03, 12, (.oct 64), .rw, .hm, .s, 0, .any⟩, -- DEFAULT_ACTION, R183
  ⟨0x3110, 0x04, 12, (.oct 20), .rw, .hm, .s, 0xFFFFFFFFFFFFFFFFFFFFFFFFFFFFFFFFFFFFFFFF, .any⟩, -- EXT_KEY_SEL, R183
  ⟨0x3110, 0x05, 12, .bool, .rw, .hm, .s, 0, .any⟩, -- EXT_ENABLE, R183
  ⟨0x3120, 0x01, 49152, (.u 8), .ro, .hm, .n, 0, .any⟩, -- TENON_HITS, R183
  ⟨0x3120, 0x02, 12, (.u 8), .ro, .hm, .n, 0, .any⟩, -- STAGE_MISSES, R183
  ⟨0x3200, 0x01, 1, .table, .rw, .hm, .n, 0, .any⟩, -- PRISM, R183
  ⟨0x3201, 0x01, 16384, (.u 8), .ro, .hm, .n, 0, .any⟩, -- PRISM_HITS, R183
  ⟨0x3210, 0x01, 64, (.u 4), .rc, .hm, .n, 0, .any⟩, -- PRISM_FALSE_HITS, R183
  ⟨0x3210, 0x02, 64, (.u 2), .ro, .hm, .n, 0, .any⟩, -- PRISM_DISABLED, R183
  ⟨0x3210, 0x03, 64, (.u 2), .ro, .hm, .n, 0, .any⟩, -- PRISM_LAST_DISABLED, R183
  ⟨0x3210, 0x04, 64, (.u 4), .ro, .hm, .n, 0, .any⟩, -- PRISM_SCRUB_PASSES, R183
  ⟨0x3210, 0x05, 1, (.u 4), .rw, .hm, .p, 1000, .rng 100 60000⟩] -- PRISM_SCRUB_PERIOD, R183

/-- Rows of the area that begins at 3400h, part 0. -/
def rows0D_0 : List ObjRow := [
  ⟨0x3400, 0x01, 1, .table, .rw, .hm, .n, 0, .any⟩, -- EM_TABLE, R210
  ⟨0x3400, 0x02, 1, .table, .rw, .hm, .n, 0, .any⟩, -- EM_TABLE, R210
  ⟨0x3400, 0x03, 1, .table, .rw, .hm, .n, 0, .any⟩, -- EM_TABLE, R210
  ⟨0x3400, 0x04, 1, .table, .rw, .hm, .n, 0, .any⟩, -- EM_TABLE, R210
  ⟨0x3400, 0x05, 1, .table, .rw, .hm, .n, 0, .any⟩, -- EM_TABLE, R210
  ⟨0x3400, 0x06, 1, .table, .rw, .hm, .n, 0, .any⟩, -- EM_TABLE, R210
  ⟨0x3400, 0x07, 1, .table, .rw, .hm, .n, 0, .any⟩, -- EM_TABLE, R210
  ⟨0x3400, 0x08, 1, .table, .rw, .hm, .n, 0, .any⟩, -- EM_TABLE, R210
  ⟨0x3401, 0x01, 8, (.u 4), .rw, .hm, .n, 0, .any⟩, -- EM_BUCKETS, R210
  ⟨0x3401, 0x02, 8, .enum8, .rw, .hm, .n, 0, .codes [0, 1]⟩, -- EM_KEY_WIDTH, R210
  ⟨0x3401, 0x03, 8, (.u 4), .ro, .hm, .n, 0, .any⟩, -- EM_ENTRIES, R210
  ⟨0x3401, 0x04, 8, (.u 4), .rc, .hm, .n, 0, .any⟩, -- EM_INSERT_FAILS, R210
  ⟨0x3401, 0x05, 8, (.u 8), .ro, .hm, .n, 0, .any⟩, -- EM_MOVES, R210
  ⟨0x3401, 0x06, 8, (.u 1), .rc, .hm, .n, 0, .any⟩, -- EM_CHAIN_MAX, R210
  ⟨0x3401, 0x07, 8, (.u 8), .ro, .hm, .n, 0, .any⟩, -- EM_HITS, R210
  ⟨0x3401, 0x08, 8, (.u 8), .ro, .hm, .n, 0, .any⟩, -- EM_MISSES, R210
  ⟨0x3401, 0x09, 8, (.u 4), .rc, .hm, .n, 0, .any⟩, -- EM_ECC_REPAIRS, R210
  ⟨0x3402, 0x01, 2, (.u 1), .rw, .hm, .n, 0, .rng 0 7⟩, -- EM_LOOKUP_TABLE, R210
  ⟨0x3430, 0x01, 1, (.u 1), .rw, .hm, .p, 0, .rng 0 7⟩, -- LEARN_TABLE, R210
  ⟨0x3430, 0x02, 256, .bool, .rw, .hm, .n, 0, .any⟩, -- LEARN_EN, R210
  ⟨0x3430, 0x03, 1, (.oct 10), .rw, .hm, .n, 0xFFFFFFFFFFFFFFFFFFFF, .any⟩, -- LEARN_KEY_SEL, R210
  ⟨0x3430, 0x04, 1, (.oct 12), .rw, .hm, .n, 0, .any⟩, -- LEARN_TEMPLATE, R210
  ⟨0x3430, 0x05, 1, .enum8, .rw, .hm, .n, 0, .codes [0, 1, 2]⟩, -- STATIC_ACTION, R210
  ⟨0x3430, 0x06, 1, (.u 4), .rw, .hm, .n, 1000000, .rng 1000 8000000⟩, -- LEARN_RATE, R210
  ⟨0x3430, 0x07, 1, (.u 2), .rw, .hm, .n, 10, .rng 1 1000⟩, -- MOVE_LIMIT, R210
  ⟨0x3430, 0x08, 1, (.u 4), .rw, .hm, .n, 60, .rng 1 86400⟩, -- MOVE_FREEZE, R210
  ⟨0x3430, 0x09, 1, (.u 4), .rw, .hm, .p, 300, .zeroOr 3 1000000⟩, -- AGE_TIME, R210
  ⟨0x3432, 0x01, 1, (.u 8), .ro, .hm, .n, 0, .any⟩, -- LEARNED, R210
  ⟨0x3432, 0x02, 1, (.u 8), .ro, .hm, .n, 0, .any⟩, -- LEARN_FAILS, R210
  ⟨0x3432, 0x03, 1, (.u 8), .ro, .hm, .n, 0, .any⟩, -- LEARN_QUEUE_DROPS, R210
  ⟨0x3432, 0x04, 1, (.u 8), .ro, .hm, .n, 0, .any⟩, -- LEARN_RATE_DROPS, R210
  ⟨0x3432, 0x05, 1, (.u 8), .ro, .hm, .n, 0, .any⟩, -- MOVES, R210
  ⟨0x3432, 0x06, 1, (.u 8), .ro, .hm, .n, 0, .any⟩, -- FROZEN_MOVES, R210
  ⟨0x3432, 0x07, 1, (.u 8), .ro, .hm, .n, 0, .any⟩, -- STATIC_VIOLATIONS, R210
  ⟨0x3432, 0x08, 1, (.u 8), .ro, .hm, .n, 0, .any⟩, -- AGED, R210
  ⟨0x3432, 0x09, 1, (.u 8), .ro, .hm, .n, 0, .any⟩, -- LEARN_LIMIT_DROPS, R210
  ⟨0x3433, 0x01, 256, (.u 4), .rw, .hm, .n, 0, .rng 0 1048576⟩, -- LEARN_LIMIT, R210
  ⟨0x3433, 0x02, 256, (.u 4), .ro, .hm, .n, 0, .any⟩, -- LEARNED_NOW, R210
  ⟨0x3440, 0x01, 1, .table, .rw, .hm, .n, 0, .any⟩, -- LPM, R210
  ⟨0x3440, 0x02, 1, (.u 4), .ro, .hm, .n, 0, .any⟩, -- LPM_UNITS_USED, R210
  ⟨0x3440, 0x03, 1, (.u 4), .const, .hm, .n, 2097152, .any⟩, -- LPM_UNITS_TOTAL, R210
  ⟨0x3440, 0x04, 1, (.u 4), .ro, .hm, .n, 0, .any⟩, -- LPM_PREFIXES, R210
  ⟨0x3440, 0x05, 1, (.u 4), .rc, .hm, .n, 0, .any⟩, -- LPM_INSERT_FAILS, R210
  ⟨0x3441, 0x01, 1, .enum8, .rw, .hm, .p, 2, .codes [0, 1, 2]⟩, -- LPM_MODE, R210
  ⟨0x3441, 0x02, 1, .bool, .rw, .hm, .n, 0, .any⟩, -- LPM_READY, R210
  ⟨0x3441, 0x03, 1, (.u 2), .rw, .hm, .p, 278, .rng 0 511⟩, -- LPM_FAMILY_BIT, R210
  ⟨0x3441, 0x04, 64, .enum8, .ro, .hm, .n, 1, .any⟩, -- LPM_BAY_STATE, R210
  ⟨0x3441, 0x05, 64, (.u 4), .rc, .hm, .n, 0, .any⟩, -- LPM_ECC_ERRORS, R210
  ⟨0x3441, 0x06, 64, (.u 8), .ro, .hm, .n, 0, .any⟩, -- LPM_FALLBACK_LOOKUPS, R210
  ⟨0x3450, 0x01, 4, (.u 1), .rw, .hm, .n, 0xFF, .any⟩, -- DIR_SEL, R210
  ⟨0x3450, 0x02, 4, (.u 1), .rw, .hm, .n, 0, .rng 0 31⟩, -- DIR_SHIFT, R210
  ⟨0x3451, 0x01, 16384, (.u 4), .rw, .hm, .n, 0, .any⟩, -- DIR_D0 to DIR_D3, R210
  ⟨0x3452, 0x01, 16384, (.u 4), .rw, .hm, .n, 0, .any⟩, -- DIR_D0 to DIR_D3, R210
  ⟨0x3453, 0x01, 4096, (.u 4), .rw, .hm, .n, 0, .any⟩, -- DIR_D0 to DIR_D3, R210
  ⟨0x3454, 0x01, 4096, (.u 4), .rw, .hm, .n, 0, .any⟩, -- DIR_D0 to DIR_D3, R210
  ⟨0x3460, 0x01, 4096, (.u 4), .rw, .hm, .n, 0, .any⟩, -- ECMP_RANGE, R210
  ⟨0x3460, 0x02, 4096, (.u 1), .rw, .hm, .n, 0, .rng 0 31⟩, -- ECMP_ROTATE, R210
  ⟨0x3461, 0x01, 262144, (.u 2), .rw, .hm, .n, 0, .any⟩, -- ECMP_BUCKET, R210
  ⟨0x3462, 0x01, 65536, (.u 8), .rw, .hm, .n, 0, .any⟩, -- ECMP_MEMBER, R210
  ⟨0x3463, 0x01, 4096, (.u 8), .ro, .hm, .n, 0, .any⟩] -- ECMP_NO_LIVE, R210

/-- Rows of the area that begins at 3400h, part 1. -/
def rows0D_1 : List ObjRow := [
  ⟨0x3463, 0x02, 1, (.u 8), .ro, .hm, .n, 0, .any⟩, -- BAD_GROUP, R210
  ⟨0x3470, 0x01, 256, (.u 1), .rw, .hm, .n, 0, .rng 0 31⟩, -- LAG_ROTATE, R210
  ⟨0x3470, 0x02, 256, (.u 2), .ro, .hm, .n, 0xFFFF, .any⟩, -- PORT_LAG, R210
  ⟨0x3471, 0x01, 4096, (.u 2), .rw, .hm, .n, 0xFFFF, .orFFFF 0 255⟩, -- LAG_MEMBER, R210
  ⟨0x3472, 0x01, 65536, (.u 1), .rw, .hm, .n, 0, .rng 0 15⟩, -- LAG_BUCKET, R210
  ⟨0x3473, 0x01, 256, (.u 8), .ro, .hm, .n, 0, .any⟩] -- LAG_NO_LIVE, R210

/-- Rows of the area that begins at 3800h, part 0. -/
def rows0E_0 : List ObjRow := [
  ⟨0x3800, 0x01, 1, .table, .rw, .hm, .n, 0, .any⟩, -- FLOW_TABLE, R243
  ⟨0x3800, 0x02, 2, (.u 4), .ro, .hm, .n, 0, .any⟩, -- FLOW_RECORDS, R243
  ⟨0x3801, 0x01, 1, (.u 4), .rw, .hm, .p, 2500, .rng 100 2500⟩, -- PARK_LIMIT, R243
  ⟨0x3802, 0x01, 16, .enum8, .rw, .hm, .n, 0, .codes [0, 1]⟩, -- KEY_MODE, R243
  ⟨0x3802, 0x02, 16, .enum8, .rw, .hm, .n, 0, .codes [0, 1, 2]⟩, -- NEW_POLICY, R243
  ⟨0x3802, 0x03, 16, .enum8, .rw, .hm, .n, 0, .codes [0, 1, 2]⟩, -- OVERFLOW_ACTION, R243
  ⟨0x3802, 0x04, 16, (.u 1), .rw, .hm, .n, 0xFF, .orFF 0 127⟩, -- TCPF_WORD, R243
  ⟨0x3802, 0x05, 16, (.u 1), .rw, .hm, .n, 0, .rng 0 24⟩, -- TCPF_SHIFT, R243
  ⟨0x3802, 0x06, 16, (.u 1), .rw, .hm, .n, 7, .rng 0 16⟩, -- HIST_SAMPLE, R243
  ⟨0x3802, 0x07, 16, .enum8, .rw, .hm, .n, 0, .codes [0, 1]⟩, -- FULL_POLICY, R243
  ⟨0x3803, 0x01, 65536, (.u 8), .rw, .hm, .n, 0, .any⟩, -- ACTION_DESC, R243
  ⟨0x3806, 0x01, 1, (.u 4), .rw, .hm, .p, 7200, .rng 1 1000000⟩, -- AGE_ESTABLISHED, R243
  ⟨0x3806, 0x02, 1, (.u 4), .rw, .hm, .p, 240, .rng 1 1000000⟩, -- AGE_TRANSITORY, R243
  ⟨0x3806, 0x03, 1, (.u 4), .rw, .hm, .p, 10, .rng 1 1000000⟩, -- AGE_CLOSED, R243
  ⟨0x3806, 0x04, 1, (.u 4), .rw, .hm, .p, 300, .rng 1 1000000⟩, -- AGE_OTHER, R243
  ⟨0x3806, 0x05, 1, (.u 4), .rw, .hm, .p, 10, .rng 1 3600⟩, -- AGE_PASS, R243
  ⟨0x3807, 0x01, 1, (.u 4), .rw, .hm, .n, 700, .any⟩, -- HIST_EDGE, R243
  ⟨0x3807, 0x02, 1, (.u 4), .rw, .hm, .n, 1000, .any⟩, -- HIST_EDGE, R243
  ⟨0x3807, 0x03, 1, (.u 4), .rw, .hm, .n, 2000, .any⟩, -- HIST_EDGE, R243
  ⟨0x3807, 0x04, 1, (.u 4), .rw, .hm, .n, 5000, .any⟩, -- HIST_EDGE, R243
  ⟨0x3807, 0x05, 1, (.u 4), .rw, .hm, .n, 10000, .any⟩, -- HIST_EDGE, R243
  ⟨0x3807, 0x06, 1, (.u 4), .rw, .hm, .n, 50000, .any⟩, -- HIST_EDGE, R243
  ⟨0x3807, 0x07, 1, (.u 4), .rw, .hm, .n, 200000, .any⟩, -- HIST_EDGE, R243
  ⟨0x3808, 0x01, 4096, (.u 4), .rw, .hm, .n, 0, .any⟩, -- METER_RATE, R243
  ⟨0x3808, 0x02, 4096, (.u 4), .rw, .hm, .n, 1518, .rng 1518 2147483647⟩, -- METER_BURST, R243
  ⟨0x3810, 0x01, 32, (.oct 16), .rw, .hm, .p, 0, .any⟩, -- POOL_ADDR, R243
  ⟨0x3810, 0x02, 32, (.u 2), .rw, .hm, .p, 1024, .rng 1 65535⟩, -- POOL_PORT_LOW, R243
  ⟨0x3810, 0x03, 32, (.u 2), .rw, .hm, .p, 65535, .rng 1 65535⟩, -- POOL_PORT_HIGH, R243
  ⟨0x3810, 0x04, 32, (.u 4), .ro, .hm, .n, 0, .any⟩, -- POOL_IN_USE, R243
  ⟨0x3810, 0x05, 32, (.u 4), .rc, .hm, .n, 0, .any⟩, -- POOL_EXHAUSTED, R243
  ⟨0x3812, 0x01, 131072, (.oct 16), .rw, .hm, .n, 0, .any⟩, -- LB_ADDR, R243
  ⟨0x3812, 0x02, 131072, (.u 2), .rw, .hm, .n, 0, .any⟩, -- LB_PORT, R243
  ⟨0x3812, 0x03, 131072, .bool, .rw, .hm, .n, 0, .any⟩, -- LB_ENABLE, R243
  ⟨0x3812, 0x04, 131072, (.u 8), .ro, .hm, .n, 0, .any⟩, -- LB_CHOSEN, R243
  ⟨0x3830, 0x01, 2, (.u 8), .ro, .hm, .n, 0, .any⟩, -- LOOKUPS, R243
  ⟨0x3830, 0x02, 2, (.u 8), .ro, .hm, .n, 0, .any⟩, -- HITS, R243
  ⟨0x3830, 0x03, 2, (.u 8), .ro, .hm, .n, 0, .any⟩, -- FETCHES, R243
  ⟨0x3830, 0x04, 2, (.u 8), .ro, .hm, .n, 0, .any⟩, -- COALESCED, R243
  ⟨0x3830, 0x05, 2, (.u 8), .ro, .hm, .n, 0, .any⟩, -- FETCH_BURSTS, R243
  ⟨0x3830, 0x06, 2, (.u 8), .ro, .hm, .n, 0, .any⟩, -- ABSENT, R243
  ⟨0x3830, 0x07, 2, (.u 8), .ro, .hm, .n, 0, .any⟩, -- INSERTED, R243
  ⟨0x3830, 0x08, 2, (.u 8), .ro, .hm, .n, 0, .any⟩, -- INSERT_FAILS, R243
  ⟨0x3830, 0x09, 2, (.u 8), .ro, .hm, .n, 0, .any⟩, -- DRAM_MOVES, R243
  ⟨0x3830, 0x0A, 2, (.u 1), .rc, .hm, .n, 0, .any⟩, -- CHAIN_MAX, R243
  ⟨0x3830, 0x0B, 2, (.u 8), .ro, .hm, .n, 0, .any⟩, -- EVICTIONS, R243
  ⟨0x3830, 0x0C, 2, (.u 8), .ro, .hm, .n, 0, .any⟩, -- WRITEBACKS, R243
  ⟨0x3830, 0x0D, 2, (.u 8), .ro, .hm, .n, 0, .any⟩, -- CACHE_MOVES, R243
  ⟨0x3830, 0x0E, 2, (.u 4), .rc, .hm, .n, 0, .any⟩, -- WAIT_PEAK, R243
  ⟨0x3830, 0x0F, 2, (.u 8), .ro, .hm, .n, 0, .any⟩, -- COMMITS_LOST, R243
  ⟨0x3830, 0x10, 2, (.u 8), .ro, .hm, .n, 0, .any⟩, -- SAMPLES_LOST, R243
  ⟨0x3830, 0x11, 2, (.u 8), .ro, .hm, .n, 0, .any⟩, -- AGED, R243
  ⟨0x3830, 0x12, 2, (.u 8), .ro, .hm, .n, 0, .any⟩, -- REPLACED, R243
  ⟨0x3830, 0x13, 2, (.u 4), .rc, .hm, .n, 0, .any⟩, -- RECORD_ERRORS, R243
  ⟨0x3830, 0x14, 2, (.u 4), .rc, .hm, .n, 0, .any⟩, -- SHARE_WAIT_MAX, R243
  ⟨0x3830, 0x15, 2, (.u 4), .ro, .hm, .n, 0, .any⟩, -- CACHE_ENTRIES, R243
  ⟨0x3830, 0x16, 2, (.u 8), .ro, .hm, .n, 0, .any⟩, -- NAT_FAMILY_SKIPS, R243
  ⟨0x3831, 0x01, 16, (.u 8), .ro, .hm, .n, 0, .any⟩, -- PARK_TIMEOUTS, R243
  ⟨0x3831, 0x02, 16, (.u 8), .ro, .hm, .n, 0, .any⟩, -- PARK_FULL, R243
  ⟨0x3831, 0x03, 16, (.u 8), .ro, .hm, .n, 0, .any⟩, -- NOT_INSERTED, R243
  ⟨0x3840, 0x01, 1, (.u 4), .const, .hm, .n, 0, .any⟩] -- ROM_VERSION, R280

/-- Rows of the area that begins at 3800h, part 1. -/
def rows0E_1 : List ObjRow := [
  ⟨0x3840, 0x02, 2, (.u 4), .ro, .hm, .n, 0, .any⟩, -- PATCH_VERSION, R280
  ⟨0x3840, 0x03, 2, (.oct 32), .ro, .hm, .n, 0, .any⟩, -- PATCH_DIGEST, R280
  ⟨0x3840, 0x04, 2, .enum8, .ro, .hm, .n, 0, .any⟩, -- PATCH_STATE, R280
  ⟨0x3840, 0x05, 128, (.u 4), .ro, .hm, .n, 0, .any⟩, -- MATCH_REG, R280
  ⟨0x3840, 0x06, 2, (.u 2), .ro, .hm, .n, 0, .any⟩, -- PATCH_WORDS, R280
  ⟨0x3841, 0x01, 512, (.u 2), .ro, .hm, .n, 0x7FFF, .any⟩, -- KIND_ENTRY, R280
  ⟨0x3842, 0x01, 32, (.oct 64), .rw, .hm, .p, 0, .any⟩, -- SLOT_TABLE, R280
  ⟨0x3843, 0x01, 1, (.u 4), .rw, .hm, .p, 2000, .zeroOr 500 100000⟩, -- PREEMPT_WAIT, R280
  ⟨0x3843, 0x02, 1, (.u 1), .rw, .hm, .p, 8, .rng 1 255⟩, -- RETRY_LIMIT, R280
  ⟨0x3843, 0x03, 1, (.u 4), .rw, .hm, .n, 10000, .rng 1000 1000000⟩, -- SPAWN_WAIT, R280
  ⟨0x3843, 0x04, 1, (.u 4), .rw, .hm, .p, 100, .rng 10 10000⟩, -- CLAMP_WAIT_LIMIT, R280
  ⟨0x3844, 0x01, 2, (.u 2), .ro, .hm, .n, 0, .any⟩, -- CLAMPS_HELD, R280
  ⟨0x3844, 0x02, 8192, (.u 2), .ro, .hm, .n, 0xFFFF, .any⟩, -- CLAMP_OWNER, R280
  ⟨0x3844, 0x03, 2, (.u 8), .ro, .hm, .n, 0, .any⟩, -- CLAMP_CONTENDED, R280
  ⟨0x3844, 0x04, 2, (.u 4), .rc, .hm, .n, 0, .any⟩, -- EXIT_RELEASES, R280
  ⟨0x3845, 0x01, 512, (.u 1), .ro, .hm, .n, 0, .any⟩, -- CHAN_MESSAGES, R280
  ⟨0x3845, 0x02, 512, (.u 2), .ro, .hm, .n, 0xFFFF, .any⟩, -- CHAN_WRITER, R280
  ⟨0x3845, 0x03, 2, (.u 4), .rc, .hm, .n, 0, .any⟩, -- PARTIALS_DISCARDED, R280
  ⟨0x3846, 0x01, 16, (.u 8), .ro, .hm, .n, 0, .any⟩, -- SOURCE_STALL, R280
  ⟨0x3846, 0x02, 2, (.u 4), .rc, .hm, .n, 0, .any⟩, -- SPAWN_FAILS, R280
  ⟨0x3847, 0x01, 32, (.u 4), .rc, .hm, .n, 0, .any⟩, -- DEADLOCKS, R280
  ⟨0x3847, 0x02, 32, (.u 4), .rc, .hm, .n, 0, .any⟩, -- CYCLE_ABORTS, R280
  ⟨0x3847, 0x03, 32, (.u 4), .rc, .hm, .n, 0, .any⟩, -- NOCYCLE_ABORTS, R280
  ⟨0x3847, 0x04, 32, .bool, .ro, .hm, .n, 0, .any⟩, -- DETECTOR_PAUSED, R280
  ⟨0x3847, 0x05, 32, (.u 4), .rc, .hm, .n, 0, .any⟩, -- CLAMP_TIMEOUTS, R280
  ⟨0x3850, 0x01, 512, .enum8, .ro, .hm, .n, 0, .any⟩, -- THREAD_STATE, R280
  ⟨0x3850, 0x02, 512, (.u 1), .ro, .hm, .n, 0, .any⟩, -- THREAD_KIND, R280
  ⟨0x3851, 0x01, 128, (.u 8), .ro, .hm, .n, 0, .any⟩, -- CLASS_ISSUED, R280
  ⟨0x3852, 0x01, 32, (.u 8), .ro, .hm, .n, 0, .any⟩, -- TASKS_STARTED, R280
  ⟨0x3852, 0x02, 32, (.u 8), .ro, .hm, .n, 0, .any⟩, -- TASKS_COMPLETED, R280
  ⟨0x3852, 0x03, 32, (.u 8), .ro, .hm, .n, 0, .any⟩, -- TASKS_ABORTED, R280
  ⟨0x3852, 0x04, 32, (.u 4), .rc, .hm, .n, 0, .any⟩, -- TASKS_FAILED, R280
  ⟨0x3852, 0x05, 32, (.u 8), .ro, .hm, .n, 0, .any⟩, -- PREEMPTED, R280
  ⟨0x3852, 0x06, 32, (.u 4), .rc, .hm, .n, 0, .any⟩, -- QUEUE_WAIT_MAX, R280
  ⟨0x3852, 0x07, 32, (.u 4), .rc, .hm, .n, 0, .any⟩, -- TAKE_MAX, R280
  ⟨0x3852, 0x08, 32, (.u 4), .rc, .hm, .n, 0, .any⟩, -- FAULTS, R280
  ⟨0x3852, 0x09, 32, (.u 4), .rc, .hm, .n, 0, .any⟩] -- UNDEFINED_KINDS, R280

/-- Rows of the area that begins at 4000h, part 0. -/
def rows10_0 : List ObjRow := [
  ⟨0x4000, 0x01, 1, (.u 4), .const, .hm, .n, 1572864, .any⟩, -- CELLS_TOTAL, R315
  ⟨0x4000, 0x02, 1, (.u 4), .ro, .hm, .n, 0, .any⟩, -- CELLS_FREE, R315
  ⟨0x4000, 0x03, 1, (.u 4), .ro, .hm, .n, 1228800, .any⟩, -- SHARED_SIZE, R315
  ⟨0x4000, 0x04, 1, (.u 4), .ro, .hm, .n, 0, .any⟩, -- SHARED_FREE, R315
  ⟨0x4000, 0x05, 1, (.u 4), .const, .hm, .n, 16384, .any⟩, -- COMPLETION_RESERVE, R315
  ⟨0x4000, 0x06, 1, (.u 4), .rc, .hm, .n, 0, .any⟩, -- RESERVE_HITS, R315
  ⟨0x4000, 0x08, 1, (.u 8), .ro, .hm, .n, 0, .any⟩, -- CELL_CORRECTED, R315
  ⟨0x4000, 0x09, 1, (.u 4), .rc, .hm, .n, 0, .any⟩, -- CELL_UNCORR, R315
  ⟨0x4000, 0x0A, 1, (.u 4), .ro, .hm, .n, 0, .any⟩, -- CELLS_RETIRED, R315
  ⟨0x4001, 0x01, 1, (.u 4), .rw, .hm, .sp, 131072, .rng 0 524288⟩, -- BOUNDED_POOL, R315
  ⟨0x4001, 0x02, 1, (.u 4), .rw, .hm, .sp, 65536, .rng 0 524288⟩, -- HEADROOM_POOL, R315
  ⟨0x4002, 0x01, 1, (.u 1), .rw, .hm, .s, 0xFF, .any⟩, -- ECN_IPV4_KIND, R315
  ⟨0x4002, 0x02, 1, (.u 1), .rw, .hm, .s, 0xFF, .any⟩, -- ECN_IPV6_KIND, R315
  ⟨0x4003, 0x01, 256, .bool, .rw, .hm, .n, 1, .any⟩, -- CT_IN_EN, R315
  ⟨0x4003, 0x02, 256, .bool, .rw, .hm, .n, 1, .any⟩, -- CT_OUT_EN, R315
  ⟨0x4010, 0x01, 32768, (.u 2), .rw, .hm, .s, 4, .rng 0 4096⟩, -- Q_MIN, R315
  ⟨0x4010, 0x02, 32768, (.i 2), .rw, .hm, .s, 0, .srng (-7) 3⟩, -- Q_DT_SHIFT, R315
  ⟨0x4010, 0x03, 32768, (.u 4), .rw, .hm, .s, 1572864, .rng 1 1572864⟩, -- Q_MAX, R315
  ⟨0x4010, 0x04, 32768, (.u 4), .rw, .hm, .s, 1024, .any⟩, -- ECN_KMIN, R315
  ⟨0x4010, 0x05, 32768, (.u 4), .rw, .hm, .s, 4096, .any⟩, -- ECN_KMAX, R315
  ⟨0x4010, 0x06, 32768, (.u 1), .rw, .hm, .s, 10, .rng 0 100⟩, -- ECN_PMAX, R315
  ⟨0x4010, 0x07, 32768, .enum8, .rw, .hm, .s, 0, .codes [0, 1, 2]⟩, -- ECN_MODE, R315
  ⟨0x4010, 0x08, 32768, (.u 4), .ro, .hm, .n, 0, .any⟩, -- Q_DEPTH, R315
  ⟨0x4010, 0x09, 32768, (.u 8), .ro, .hm, .n, 0, .any⟩, -- Q_DROPS, R315
  ⟨0x4010, 0x0A, 32768, (.u 8), .ro, .hm, .n, 0, .any⟩, -- ECN_MARKED, R315
  ⟨0x4010, 0x0B, 32768, (.u 8), .ro, .hm, .n, 0, .any⟩, -- ECN_DROPS, R315
  ⟨0x4010, 0x0C, 32768, (.u 4), .rc, .hm, .n, 0, .any⟩, -- Q_PEAK, R315
  ⟨0x4010, 0x0D, 32768, (.u 8), .ro, .hm, .n, 0, .any⟩, -- Q_ENQUEUED, R315
  ⟨0x4010, 0x0E, 32768, (.u 8), .ro, .hm, .n, 0, .any⟩, -- Q_STRANDED, R315
  ⟨0x4010, 0x0F, 32768, (.u 8), .ro, .hm, .n, 0, .any⟩, -- Q_FLUSHED, R315
  ⟨0x4010, 0x10, 32768, (.u 8), .ro, .hm, .n, 0, .any⟩, -- Q_RESIDUE_EXPIRED, R315
  ⟨0x4020, 0x01, 2048, .bool, .rw, .hm, .s, 0, .any⟩, -- LOSSLESS, R315
  ⟨0x4020, 0x02, 2048, (.u 4), .rw, .hm, .s, 0, .any⟩, -- HEADROOM, R315
  ⟨0x4020, 0x03, 2048, (.u 4), .ro, .hm, .n, 0, .any⟩, -- IN_SHARED, R315
  ⟨0x4020, 0x04, 2048, (.u 4), .ro, .hm, .n, 0, .any⟩, -- IN_HEADROOM, R315
  ⟨0x4020, 0x05, 2048, (.u 8), .ro, .hm, .n, 0, .any⟩, -- HEADROOM_DROPS, R315
  ⟨0x4020, 0x06, 2048, (.i 2), .rw, .hm, .s, 0, .srng (-7) 3⟩, -- IN_DT_SHIFT, R315
  ⟨0x4030, 0x01, 256, (.u 8), .ro, .hm, .n, 0, .any⟩, -- F_PROJ, R315
  ⟨0x4030, 0x02, 256, .q16, .ro, .hm, .n, 0, .any⟩, -- BLOCK_TERM, R315
  ⟨0x4030, 0x03, 256, .q16, .ro, .hm, .n, 0, .any⟩, -- EGRESS_PATH, R315
  ⟨0x4030, 0x04, 256, (.u 4), .rw, .hm, .s, 512, .rng 0 131072⟩, -- BOUNDED_CELLS, R315
  ⟨0x4030, 0x05, 256, (.u 4), .ro, .hm, .n, 0, .any⟩, -- BOUNDED_USED, R315
  ⟨0x4031, 0x01, 2048, .bool, .rw, .hm, .sp, 0, .any⟩, -- BOUNDED, R315
  ⟨0x4031, 0x02, 2048, (.u 4), .rw, .hm, .sp, 1000000, .rng 1000 10000000⟩, -- BOUND, R315
  ⟨0x4031, 0x03, 2048, (.u 2), .rw, .hm, .sp, 1518, .rng 64 16383⟩, -- BOUNDED_MAX, R315
  ⟨0x4031, 0x04, 2048, .enum8, .rw, .hm, .sp, 0, .codes [0, 1, 2]⟩, -- REFUSE_ACTION, R315
  ⟨0x4031, 0x05, 2048, (.u 1), .rw, .hm, .sp, 0, .rng 0 7⟩, -- DEMOTE_TC, R315
  ⟨0x4031, 0x06, 2048, .enum8, .rw, .hm, .sp, 0, .codes [0, 1, 2]⟩, -- DEMOTE_MARK, R315
  ⟨0x4031, 0x07, 2048, (.u 1), .rw, .hm, .sp, 0, .rng 0 63⟩, -- DEMOTE_DSCP, R315
  ⟨0x4031, 0x08, 2048, (.u 8), .ro, .hm, .n, 0, .any⟩, -- B_ADMITTED, R315
  ⟨0x4031, 0x09, 2048, (.u 8), .ro, .hm, .n, 0, .any⟩, -- B_REFUSED, R315
  ⟨0x4031, 0x0A, 2048, (.u 8), .ro, .hm, .n, 0, .any⟩, -- B_DEMOTED, R315
  ⟨0x4031, 0x0B, 2048, (.u 8), .ro, .hm, .n, 0, .any⟩, -- B_PUNTED, R315
  ⟨0x4031, 0x0C, 2048, (.u 8), .ro, .hm, .n, 0, .any⟩, -- B_STRANDED, R315
  ⟨0x4031, 0x0D, 2048, (.u 8), .ro, .hm, .n, 0, .any⟩, -- B_PAUSE_IGNORED, R315
  ⟨0x4031, 0x0E, 2048, (.u 4), .rc, .hm, .n, 0xFFFFFFFF, .any⟩, -- B_MARGIN_MIN, R315
  ⟨0x4031, 0x0F, 2048, (.u 4), .rc, .hm, .n, 0, .any⟩, -- B_LATE, R315
  ⟨0x4031, 0x10, 2048, (.u 8), .ro, .hm, .n, 0, .any⟩, -- B_FLUSHED, R315
  ⟨0x4031, 0x11, 2048, .enum8, .ro, .hm, .n, 0, .any⟩, -- B_LAST_CAUSE, R315
  ⟨0x4033, 0x01, 40960, (.u 8), .ro, .hm, .n, 0, .any⟩] -- TRIB_F_PROJ, R315

/-- Rows of the area that begins at 4000h, part 1. -/
def rows10_1 : List ObjRow := [
  ⟨0x4033, 0x02, 40960, (.u 8), .ro, .hm, .n, 0, .any⟩, -- TRIB_B_REFUSED, R315
  ⟨0x4040, 0x01, 2048, (.u 8), .ro, .hm, .n, 0, .any⟩, -- STOMPED, R315
  ⟨0x4040, 0x02, 2048, (.u 8), .ro, .hm, .n, 0, .any⟩, -- DISCARDED_AT_HEAD, R315
  ⟨0x4041, 0x01, 256, (.u 8), .ro, .hm, .n, 0, .any⟩, -- DOWN_DROPS, R315
  ⟨0x4050, 0x01, 65536, (.u 4), .rw, .hm, .n, 0, .any⟩, -- MC_GROUP, R315
  ⟨0x4051, 0x01, 262144, (.u 8), .rw, .hm, .n, 0, .any⟩, -- MC_COPY, R315
  ⟨0x4052, 0x01, 1, (.u 4), .rw, .hm, .p, 100000, .rng 1000 10000000⟩, -- RESIDUE_DEADLINE, R315
  ⟨0x4052, 0x02, 1, (.u 4), .ro, .hm, .n, 0, .any⟩, -- RESIDUE_USED, R315
  ⟨0x4052, 0x03, 1, (.u 8), .ro, .hm, .n, 0, .any⟩, -- RESIDUE_FULL, R315
  ⟨0x4052, 0x04, 1, (.u 8), .ro, .hm, .n, 0, .any⟩, -- MC_BAD_GROUP, R315
  ⟨0x4052, 0x05, 1, (.u 8), .ro, .hm, .n, 0, .any⟩, -- MC_EMPTY_GROUP, R315
  ⟨0x4060, 0x01, 32768, (.u 1), .wo, .h, .n, 0, .codes [1]⟩, -- FLUSH_QUEUE, R315
  ⟨0x4060, 0x02, 256, (.u 1), .wo, .h, .n, 0, .codes [1]⟩, -- FLUSH_BOUNDED, R315
  ⟨0x4301, 0x01, 16, (.u 2), .rw, .hm, .p, 0, .any⟩, -- POOL_MIN, R315
  ⟨0x4301, 0x02, 16, (.u 2), .rw, .hm, .p, 32768, .any⟩, -- POOL_MAX, R315
  ⟨0x4301, 0x03, 1, (.i 2), .rw, .hm, .p, 0, .srng (-7) 3⟩, -- POOL_DT_SHIFT, R315
  ⟨0x4302, 0x01, 16, (.u 2), .ro, .hm, .n, 0, .any⟩, -- POOL_USED, R315
  ⟨0x4302, 0x02, 16, (.u 2), .rc, .hm, .n, 0, .any⟩, -- POOL_PEAK, R315
  ⟨0x4302, 0x03, 16, (.u 8), .ro, .hm, .n, 0, .any⟩, -- POOL_DROPS, R315
  ⟨0x4302, 0x04, 16, (.u 8), .ro, .hm, .n, 0, .any⟩] -- POOL_STALL, R315

/-- Rows of the area that begins at 4400h, part 0. -/
def rows11_0 : List ObjRow := [
  ⟨0x4400, 0x01, 256, (.u 4), .rw, .hm, .s, 0, .rng 0 800000⟩, -- PORT_SHAPER_RATE, R340
  ⟨0x4400, 0x02, 256, (.u 4), .rw, .hm, .s, 16384, .rng 1538 16777215⟩, -- PORT_SHAPER_BURST, R340
  ⟨0x4410, 0x01, 256, .bool, .rw, .hm, .s, 0, .any⟩, -- PREEMPT_EN, R340
  ⟨0x4410, 0x02, 256, .bool, .rw, .hm, .s, 1, .any⟩, -- PREEMPT_VERIFY, R340
  ⟨0x4410, 0x03, 256, .enum8, .ro, .hm, .n, 0, .any⟩, -- PREEMPT_STATUS, R340
  ⟨0x4410, 0x04, 256, (.u 8), .ro, .hm, .n, 0, .any⟩, -- FRAGS_TX, R340
  ⟨0x4410, 0x05, 256, (.u 8), .ro, .hm, .n, 0, .any⟩, -- FRAGS_RX, R340
  ⟨0x4410, 0x06, 256, (.u 8), .ro, .hm, .n, 0, .any⟩, -- PREEMPTIONS, R340
  ⟨0x4410, 0x07, 256, (.u 4), .rc, .hm, .n, 0, .any⟩, -- REASSEMBLY_ERRORS, R340
  ⟨0x4410, 0x08, 256, (.u 4), .rc, .hm, .n, 0, .any⟩, -- VERIFY_FAILS, R340
  ⟨0x4420, 0x01, 2048, (.u 1), .rw, .hm, .s, 0, .rng 0 7⟩, -- CLASS_GROUP, R340
  ⟨0x4420, 0x02, 2048, (.u 4), .rw, .hm, .s, 16384, .rng 64 1048576⟩, -- CLASS_QUANTUM, R340
  ⟨0x4420, 0x03, 2048, .enum8, .rw, .hm, .s, 1, .codes [0, 1, 2]⟩, -- SUBQ_MODE, R340
  ⟨0x4420, 0x04, 2048, (.u 4), .rw, .hm, .s, 0, .rng 0 800000⟩, -- CBS_IDLE_SLOPE, R340
  ⟨0x4420, 0x05, 2048, (.i 4), .ro, .hm, .n, 0, .any⟩, -- CBS_CREDIT, R340
  ⟨0x4420, 0x06, 2048, (.u 8), .ro, .hm, .n, 0, .any⟩, -- CLASS_TX_FRAMES, R340
  ⟨0x4420, 0x07, 2048, (.u 8), .ro, .hm, .n, 0, .any⟩, -- CLASS_TX_OCTETS, R340
  ⟨0x4421, 0x01, 32768, (.u 4), .rw, .hm, .s, 16384, .rng 64 1048576⟩, -- SUBQ_QUANTUM, R340
  ⟨0x4421, 0x02, 32768, (.u 2), .rw, .hm, .s, 1, .rng 1 65535⟩, -- SUBQ_WEIGHT, R340
  ⟨0x4421, 0x03, 32768, (.i 4), .ro, .hm, .n, 0, .any⟩, -- SUBQ_DEFICIT, R340
  ⟨0x4421, 0x04, 32768, (.u 8), .ro, .hm, .n, 0, .any⟩, -- SUBQ_START_TAG, R340
  ⟨0x4430, 0x01, 65536, (.u 8), .rw, .hm, .s, 0x000001FF3B9ACA00, .any⟩, -- GATE_ENTRY, R340
  ⟨0x4431, 0x01, 256, (.u 2), .rw, .hm, .s, 0, .rng 0 256⟩, -- GATE_LEN, R340
  ⟨0x4431, 0x02, 256, (.u 4), .rw, .hm, .s, 1000000, .rng 1000 1000000000⟩, -- GATE_CYCLE, R340
  ⟨0x4431, 0x03, 256, .time80, .rw, .hm, .s, 0, .any⟩, -- GATE_BASE, R340
  ⟨0x4431, 0x04, 256, .time80, .rw, .hm, .s, 0, .any⟩, -- GATE_CHANGE_AT, R340
  ⟨0x4431, 0x05, 256, .bool, .rw, .hm, .s, 0, .any⟩, -- GATE_ENABLE, R340
  ⟨0x4431, 0x06, 1, (.u 4), .rw, .hm, .sp, 10000, .rng 1000 1000000⟩, -- GATE_LEAD, R340
  ⟨0x4432, 0x01, 256, .enum8, .ro, .hm, .n, 0, .any⟩, -- GATE_STATE, R340
  ⟨0x4432, 0x02, 256, .time80, .ro, .hm, .n, 0, .any⟩, -- GATE_CHANGE_REQ, R340
  ⟨0x4432, 0x03, 256, .time80, .ro, .hm, .n, 0, .any⟩, -- GATE_CHANGE_EFF, R340
  ⟨0x4432, 0x04, 256, (.u 4), .rc, .hm, .n, 0, .any⟩, -- GATE_DEFERRALS, R340
  ⟨0x4432, 0x05, 256, (.u 2), .ro, .hm, .n, 0, .any⟩, -- GATE_CURRENT, R340
  ⟨0x4432, 0x06, 256, (.u 4), .rc, .hm, .n, 0, .any⟩, -- GATE_CHANGES, R340
  ⟨0x4432, 0x07, 256, (.u 8), .ro, .hm, .n, 0, .any⟩, -- GATE_HOLDS, R340
  ⟨0x4432, 0x08, 256, (.u 4), .rc, .hm, .n, 0, .any⟩, -- GATE_CHANGE_IGNORED, R340
  ⟨0x4440, 0x01, 16384, (.u 4), .rw, .hm, .n, 0, .rng 0 800000000⟩, -- POL_CIR, R340
  ⟨0x4440, 0x02, 16384, (.u 4), .rw, .hm, .n, 16384, .rng 1538 268435455⟩, -- POL_CBS, R340
  ⟨0x4440, 0x03, 16384, (.u 4), .rw, .hm, .n, 0, .any⟩, -- POL_PIR, R340
  ⟨0x4440, 0x04, 16384, (.u 4), .rw, .hm, .n, 16384, .rng 1538 268435455⟩, -- POL_PBS, R340
  ⟨0x4440, 0x05, 16384, (.bits 8), .rw, .hm, .n, 0x01, .bitsOf 0x0F⟩, -- POL_ACTIONS, R340
  ⟨0x4440, 0x06, 16384, (.u 8), .ro, .hm, .n, 0, .any⟩, -- POL_GREEN, R340
  ⟨0x4440, 0x07, 16384, (.u 8), .ro, .hm, .n, 0, .any⟩, -- POL_YELLOW, R340
  ⟨0x4440, 0x08, 16384, (.u 8), .ro, .hm, .n, 0, .any⟩, -- POL_RED, R340
  ⟨0x4440, 0x09, 16384, (.u 8), .ro, .hm, .n, 0, .any⟩, -- POL_DROPS, R340
  ⟨0x4450, 0x01, 256, .enum8, .rw, .hm, .n, 0, .codes [0, 1, 2]⟩, -- FC_MODE, R340
  ⟨0x4450, 0x02, 256, .bool, .rw, .hm, .n, 1, .any⟩, -- FC_RX_EN, R340
  ⟨0x4450, 0x03, 2048, (.u 4), .rw, .hm, .n, 0, .rng 0 65536⟩, -- XOFF_MARGIN, R340
  ⟨0x4450, 0x04, 2048, (.u 4), .rw, .hm, .n, 64, .rng 0 65536⟩, -- XON_HYSTERESIS, R340
  ⟨0x4450, 0x05, 256, (.u 2), .rw, .hm, .n, 0xFFFF, .rng 1 0xFFFF⟩, -- PAUSE_QUANTA, R340
  ⟨0x4450, 0x06, 256, (.oct 6), .rw, .hm, .p, 0, .any⟩, -- FC_SRC_MAC, R340
  ⟨0x4451, 0x01, 256, (.u 4), .rw, .hm, .p, 200, .zeroOr 10 10000⟩, -- WD_TIME, R340
  ⟨0x4451, 0x02, 256, (.u 4), .rw, .hm, .p, 1000, .rng 100 60000⟩, -- WD_RECOVERY, R340
  ⟨0x4451, 0x03, 256, .enum8, .rw, .hm, .p, 0, .codes [0, 1]⟩, -- WD_ACTION, R340
  ⟨0x4451, 0x04, 2048, (.u 4), .rc, .hm, .n, 0, .any⟩, -- WD_TRIPS, R340
  ⟨0x4451, 0x05, 2048, .enum8, .ro, .hm, .n, 0, .any⟩, -- WD_STATE, R340
  ⟨0x4451, 0x06, 2048, (.u 8), .ro, .hm, .n, 0, .any⟩, -- WD_DROPS, R340
  ⟨0x4452, 0x01, 2048, (.u 8), .ro, .hm, .n, 0, .any⟩, -- FC_TX_XOFF, R340
  ⟨0x4452, 0x02, 2048, (.u 8), .ro, .hm, .n, 0, .any⟩, -- FC_TX_XON, R340
  ⟨0x4452, 0x03, 2048, (.u 8), .ro, .hm, .n, 0, .any⟩] -- FC_RX, R340

/-- Rows of the area that begins at 4400h, part 1. -/
def rows11_1 : List ObjRow := [
  ⟨0x4452, 0x04, 2048, (.u 8), .ro, .hm, .n, 0, .any⟩, -- FC_PAUSED_TIME, R340
  ⟨0x4452, 0x05, 256, (.u 8), .ro, .hm, .n, 0, .any⟩] -- FC_RX_DISCARDED, R340

/-- Rows of the area that begins at 5000h, part 0. -/
def rows14_0 : List ObjRow := [
  ⟨0x5000, 0x01, 1, (.u 1), .const, .hm, .n, 48, .any⟩, -- DRAM_CHANNELS, R356
  ⟨0x5000, 0x02, 2, (.u 4), .ro, .hm, .n, 0, .any⟩, -- SILL_PEAK, R356
  ⟨0x5000, 0x03, 2, (.u 4), .ro, .hm, .n, 0, .any⟩, -- FLOW_SHARE, R356
  ⟨0x5001, 0x01, 48, .enum8, .ro, .hm, .n, 0, .any⟩, -- CH_STATE, R356
  ⟨0x5001, 0x02, 48, (.i 2), .ro, .hm, .n, 0, .any⟩, -- CH_TEMP, R356
  ⟨0x5001, 0x03, 48, (.u 1), .ro, .hm, .n, 1, .any⟩, -- REFRESH_MULT, R356
  ⟨0x5001, 0x04, 48, (.u 1), .wo, .hm, .n, 0, .codes [1]⟩, -- CH_RETIRE, R356
  ⟨0x5001, 0x05, 48, (.u 1), .ro, .hm, .n, 0, .any⟩, -- CH_UTIL, R356
  ⟨0x5001, 0x06, 48, .enum8, .ro, .hm, .n, 0, .any⟩, -- DEGRADE_CAUSE, R356
  ⟨0x5002, 0x01, 48, (.u 8), .ro, .hm, .n, 0, .any⟩, -- CE_BURSTS, R356
  ⟨0x5002, 0x02, 48, (.u 4), .rc, .hm, .n, 0, .any⟩, -- UE_BURSTS, R356
  ⟨0x5002, 0x03, 48, (.u 4), .ro, .hm, .n, 0, .any⟩, -- UE_LAST_BURST, R356
  ⟨0x5002, 0x04, 48, (.u 8), .ro, .hm, .n, 0, .any⟩, -- SCRUB_REPAIRS, R356
  ⟨0x5002, 0x05, 48, (.u 4), .ro, .hm, .n, 0, .any⟩, -- SCRUB_PASSES, R356
  ⟨0x5002, 0x06, 48, (.u 4), .rc, .hm, .n, 0, .any⟩, -- SCRUB_WB_DROPPED, R356
  ⟨0x5002, 0x07, 48, (.u 8), .ro, .hm, .n, 0, .any⟩, -- FORCED_REFRESH, R356
  ⟨0x5002, 0x08, 48, (.u 8), .ro, .hm, .n, 0, .any⟩, -- AGED_REQUESTS, R356
  ⟨0x5002, 0x09, 48, (.u 4), .rc, .hm, .n, 0, .any⟩, -- READ_LAT_MAX, R356
  ⟨0x5003, 0x01, 96, (.u 2), .ro, .hm, .n, 0, .any⟩, -- RD_EYE, R356
  ⟨0x5003, 0x02, 96, (.u 2), .ro, .hm, .n, 0, .any⟩, -- WR_EYE, R356
  ⟨0x5003, 0x03, 96, (.u 2), .ro, .hm, .n, 0, .any⟩, -- RD_DELAY_EFF, R356
  ⟨0x5003, 0x04, 96, (.u 2), .ro, .hm, .n, 0, .any⟩, -- WR_DELAY_EFF, R356
  ⟨0x5003, 0x05, 96, (.u 2), .ro, .hm, .n, 0, .any⟩, -- VREF_EFF, R356
  ⟨0x5003, 0x06, 96, (.i 2), .ro, .hm, .n, 0, .any⟩, -- DRIFT, R356
  ⟨0x5004, 0x01, 96, (.i 2), .rw, .hm, .p, 0, .srng (-32) 32⟩, -- SEED_DLY_OFS, R356
  ⟨0x5004, 0x02, 96, (.i 2), .rw, .hm, .p, 0, .srng (-32) 32⟩, -- SEED_DLY_OFS, R356
  ⟨0x5004, 0x03, 96, (.i 2), .rw, .hm, .p, 0, .srng (-20) 20⟩, -- SEED_VREF_OFS, R356
  ⟨0x5010, 0x01, 4, (.u 2), .const, .hm, .n, 0, .any⟩, -- REGION_FIRST, R356
  ⟨0x5010, 0x02, 4, (.u 2), .const, .hm, .n, 0, .any⟩, -- REGION_SEGS, R356
  ⟨0x5010, 0x03, 4, .enum8, .rw, .hm, .p, 0, .codes [0, 1, 2]⟩, -- REGION_ORDER, R356
  ⟨0x5011, 0x01, 3072, (.u 1), .ro, .hm, .n, 0, .any⟩, -- SEG_CHANNEL, R356
  ⟨0x5011, 0x02, 3072, (.u 1), .ro, .hm, .n, 0, .any⟩, -- SEG_POSITION, R356
  ⟨0x5020, 0x01, 1, (.u 2), .rw, .hm, .p, 24, .rng 1 168⟩, -- SCRUB_PERIOD, R356
  ⟨0x5020, 0x02, 1, (.u 4), .rw, .hm, .p, 100, .rng 10 10000⟩, -- TRACK_PERIOD, R356
  ⟨0x5020, 0x03, 1, (.u 4), .rw, .hm, .p, 1000, .rng 10 1000000⟩, -- CE_DEGRADE, R356
  ⟨0x5020, 0x04, 1, (.u 2), .rw, .hm, .p, 4, .rng 1 1000⟩, -- UE_RETIRE, R356
  ⟨0x5020, 0x05, 1, .bool, .rw, .hm, .p, 1, .any⟩, -- AUTO_RETIRE, R356
  ⟨0x5020, 0x06, 1, (.u 2), .rw, .hm, .p, 28, .rng 10 60⟩, -- MIN_EYE, R356
  ⟨0x5020, 0x07, 1, (.u 4), .rw, .hm, .n, 400, .rng 100 10000⟩, -- AGE_CAP, R356
  ⟨0x5021, 0x01, 2, (.u 4), .ro, .hm, .n, 0, .any⟩, -- SEGMENTS_MOVED, R356
  ⟨0x5021, 0x02, 2, (.u 8), .ro, .hm, .n, 0, .any⟩, -- CACHE_DROPPED, R356
  ⟨0x5021, 0x03, 2, .bool, .ro, .hm, .n, 0, .any⟩, -- SILL_DRAM_FAILED, R356
  ⟨0x5021, 0x04, 2, (.u 8), .ro, .hm, .n, 0, .any⟩] -- UNFLOWED_NO_DRAM, R356

/-- Rows of the area that begins at 5400h, part 0. -/
def rows15_0 : List ObjRow := [
  ⟨0x5400, 0x01, 1, .enum8, .ro, .hm, .n, 0, .any⟩, -- HOST_STATE, R376
  ⟨0x5400, 0x02, 1, .enum8, .ro, .hm, .n, 0, .any⟩, -- VANISH_CAUSE, R376
  ⟨0x5400, 0x03, 1, (.u 4), .rw, .hm, .p, 2000, .zeroOr 10 60000⟩, -- HOST_WDOG, R376
  ⟨0x5400, 0x04, 1, (.u 4), .rc, .hm, .n, 0, .any⟩, -- VANISHES, R376
  ⟨0x5401, 0x01, 1, .enum8, .ro, .hm, .n, 0, .any⟩, -- LINK_RATE, R376
  ⟨0x5401, 0x02, 1, (.u 1), .ro, .hm, .n, 0, .any⟩, -- LINK_WIDTH, R376
  ⟨0x5401, 0x03, 1, (.u 4), .rc, .hm, .n, 0, .any⟩, -- LINK_RETRAINS, R376
  ⟨0x5401, 0x04, 1, (.u 4), .rc, .hm, .n, 0, .any⟩, -- PERST_ASSERTIONS, R376
  ⟨0x5402, 0x01, 1, (.u 4), .rc, .hm, .n, 0, .any⟩, -- PCIE_CORRECTABLE, R376
  ⟨0x5402, 0x02, 1, (.u 4), .rc, .hm, .n, 0, .any⟩, -- PCIE_UNCORRECTABLE, R376
  ⟨0x5402, 0x03, 1, (.u 4), .rc, .hm, .n, 0, .any⟩, -- DMA_READ_ERRORS, R376
  ⟨0x5402, 0x04, 1, (.u 4), .rc, .hm, .n, 0, .any⟩, -- UNMAPPED_ACCESSES, R376
  ⟨0x5410, 0x01, 8, (.u 4), .rc, .hm, .n, 0, .any⟩, -- OW_BUSY_DROPS, R49
  ⟨0x5410, 0x02, 8, (.u 8), .ro, .hm, .n, 0, .any⟩, -- OW_OPS, R49
  ⟨0x5410, 0x03, 32, (.u 4), .rc, .hm, .n, 0, .any⟩, -- TW_BUSY_DROPS, R49
  ⟨0x5420, 0x01, 16, (.u 8), .ro, .hm, .n, 0, .any⟩, -- PUNT_FRAMES, R376
  ⟨0x5420, 0x02, 16, (.u 8), .ro, .hm, .n, 0, .any⟩, -- PUNT_DROPS, R376
  ⟨0x5420, 0x03, 16, (.u 8), .ro, .hm, .n, 0, .any⟩, -- PUNT_CUT, R376
  ⟨0x5420, 0x04, 16, (.u 2), .rw, .hm, .n, 2048, .rng 64 32768⟩, -- PUNT_RING_UNITS, R376
  ⟨0x5421, 0x01, 16, (.u 8), .ro, .hm, .n, 0, .any⟩, -- INJ_FRAMES, R376
  ⟨0x5421, 0x02, 16, (.u 8), .ro, .hm, .n, 0, .any⟩, -- INJ_REFUSED, R376
  ⟨0x5421, 0x03, 16, (.u 1), .rw, .hm, .n, 0, .rng 0 3⟩, -- INJ_PRIORITY, R376
  ⟨0x5421, 0x04, 16, (.u 8), .ro, .hm, .n, 0, .any⟩, -- INJ_OCTETS, R376
  ⟨0x5423, 0x01, 2, (.u 4), .rc, .hm, .n, 0, .any⟩, -- EVENT_RING_DROPS, R376
  ⟨0x5430, 0x01, 8, (.u 1), .rw, .hm, .n, 0, .rng 0 15⟩, -- PUNT_MAP_TC, R376
  ⟨0x5430, 0x02, 256, (.u 1), .rw, .hm, .n, 0, .rng 0 15⟩, -- PUNT_MAP_DEV, R376
  ⟨0x5430, 0x03, 1, (.u 1), .rw, .hm, .n, 1, .codes [1, 2, 4, 8, 16]⟩, -- PUNT_SPREAD, R376
  ⟨0x5440, 0x01, 128, (.u 2), .rw, .hm, .n, 0, .rng 0 1000⟩, -- MSIX_HOLDOFF, R376
  ⟨0x5440, 0x02, 128, (.u 2), .rw, .hm, .n, 1, .rng 1 1024⟩] -- MSIX_COUNT, R376

/-- Rows of the area that begins at 6000h, part 0. -/
def rows18_0 : List ObjRow := [
  ⟨0x6000, 0x01, 1, (.u 2), .const, .hm, .n, 16384, .any⟩, -- GROUPS, R398
  ⟨0x6000, 0x02, 16384, .bool, .rw, .hm, .n, 0, .any⟩, -- GROUP_USER, R398
  ⟨0x6000, 0x03, 16384, (.u 1), .ro, .hm, .n, 0, .any⟩, -- GROUP_LAYOUT, R398
  ⟨0x6001, 0x01, 130816, (.u 8), .rw, .hm, .n, 0, .any⟩, -- COMPOSE_KEY, R398
  ⟨0x6002, 0x01, 1, (.u 2), .wo, .hm, .n, 0, .any⟩, -- SNAP_NOW, R398
  ⟨0x6002, 0x02, 1, (.u 4), .rw, .hm, .n, 0, .zeroOr 10 3600000⟩, -- SNAP_PERIOD, R398
  ⟨0x6002, 0x03, 16384, .bool, .rw, .hm, .n, 0, .any⟩, -- SNAP_EN, R398
  ⟨0x6002, 0x04, 16384, .time80, .ro, .hm, .n, 0, .any⟩, -- SNAP_TIME, R398
  ⟨0x6002, 0x05, 8388608, (.u 8), .ro, .hm, .n, 0, .any⟩, -- SNAP_VALUE, R398
  ⟨0x6002, 0x06, 16384, (.u 4), .ro, .hm, .n, 0, .any⟩, -- SNAP_SEQ, R398
  ⟨0x6002, 0x07, 1, (.u 4), .rc, .hm, .n, 0, .any⟩, -- SNAP_SKIPPED, R398
  ⟨0x6020, 0x01, 1, (.u 4), .rw, .hm, .n, 1000, .rng 10 1000000⟩, -- BW_WINDOW, R398
  ⟨0x6020, 0x02, 512, (.u 4), .ro, .hm, .n, 0, .any⟩, -- BW_LAST, R398
  ⟨0x6020, 0x03, 512, (.u 4), .rc, .hm, .n, 0, .any⟩, -- BW_PEAK, R398
  ⟨0x6020, 0x04, 512, (.u 4), .ro, .hm, .n, 0, .any⟩, -- BW_FRAMES, R398
  ⟨0x6021, 0x01, 32768, (.u 4), .ro, .hm, .n, 0, .any⟩, -- BW_HIST, R398
  ⟨0x6030, 0x01, 64, .enum8, .rw, .hm, .n, 0, .rng 0 9⟩, -- MON_QUANTITY, R398
  ⟨0x6030, 0x02, 64, (.u 4), .rw, .hm, .n, 0, .any⟩, -- MON_SCOPE, R398
  ⟨0x6030, 0x03, 64, (.u 4), .rw, .hm, .n, 1000, .rng 1 86400000⟩, -- MON_PERIOD, R398
  ⟨0x6031, 0x01, 960, (.u 4), .rw, .hm, .n, 0, .any⟩, -- MON_EDGE, R398
  ⟨0x6032, 0x01, 64, (.u 8), .ro, .hm, .n, 0, .any⟩, -- MON_CUR, R398
  ⟨0x6032, 0x02, 64, (.u 4), .ro, .hm, .n, 0, .any⟩, -- MON_CUR, R398
  ⟨0x6032, 0x03, 64, (.u 4), .ro, .hm, .n, 0, .any⟩, -- MON_CUR, R398
  ⟨0x6032, 0x04, 64, (.u 8), .ro, .hm, .n, 0, .any⟩, -- MON_CUR, R398
  ⟨0x6032, 0x05, 64, (.u 8), .ro, .hm, .n, 0, .any⟩, -- MON_CUR, R398
  ⟨0x6032, 0x06, 64, (.u 8), .ro, .hm, .n, 0, .any⟩, -- MON_CUR, R398
  ⟨0x6032, 0x07, 64, (.u 8), .ro, .hm, .n, 0, .any⟩, -- MON_CUR, R398
  ⟨0x6032, 0x08, 64, (.u 8), .ro, .hm, .n, 0, .any⟩, -- MON_CUR, R398
  ⟨0x6032, 0x09, 64, (.u 8), .ro, .hm, .n, 0, .any⟩, -- MON_CUR, R398
  ⟨0x6032, 0x0A, 64, (.u 8), .ro, .hm, .n, 0, .any⟩, -- MON_CUR, R398
  ⟨0x6032, 0x0B, 64, (.u 8), .ro, .hm, .n, 0, .any⟩, -- MON_CUR, R398
  ⟨0x6032, 0x0C, 64, (.u 8), .ro, .hm, .n, 0, .any⟩, -- MON_CUR, R398
  ⟨0x6032, 0x0D, 64, (.u 8), .ro, .hm, .n, 0, .any⟩, -- MON_CUR, R398
  ⟨0x6032, 0x0E, 64, (.u 8), .ro, .hm, .n, 0, .any⟩, -- MON_CUR, R398
  ⟨0x6032, 0x0F, 64, (.u 8), .ro, .hm, .n, 0, .any⟩, -- MON_CUR, R398
  ⟨0x6032, 0x10, 64, (.u 8), .ro, .hm, .n, 0, .any⟩, -- MON_CUR, R398
  ⟨0x6032, 0x11, 64, (.u 8), .ro, .hm, .n, 0, .any⟩, -- MON_CUR, R398
  ⟨0x6032, 0x12, 64, (.u 8), .ro, .hm, .n, 0, .any⟩, -- MON_CUR, R398
  ⟨0x6032, 0x13, 64, (.u 8), .ro, .hm, .n, 0, .any⟩, -- MON_CUR, R398
  ⟨0x6032, 0x14, 64, (.u 8), .ro, .hm, .n, 0, .any⟩, -- MON_CUR, R398
  ⟨0x6033, 0x01, 64, (.u 8), .ro, .hm, .n, 0, .any⟩, -- MON_PREV, R398
  ⟨0x6033, 0x02, 64, (.u 4), .ro, .hm, .n, 0, .any⟩, -- MON_PREV, R398
  ⟨0x6033, 0x03, 64, (.u 4), .ro, .hm, .n, 0, .any⟩, -- MON_PREV, R398
  ⟨0x6033, 0x04, 64, (.u 8), .ro, .hm, .n, 0, .any⟩, -- MON_PREV, R398
  ⟨0x6033, 0x05, 64, (.u 8), .ro, .hm, .n, 0, .any⟩, -- MON_PREV, R398
  ⟨0x6033, 0x06, 64, (.u 8), .ro, .hm, .n, 0, .any⟩, -- MON_PREV, R398
  ⟨0x6033, 0x07, 64, (.u 8), .ro, .hm, .n, 0, .any⟩, -- MON_PREV, R398
  ⟨0x6033, 0x08, 64, (.u 8), .ro, .hm, .n, 0, .any⟩, -- MON_PREV, R398
  ⟨0x6033, 0x09, 64, (.u 8), .ro, .hm, .n, 0, .any⟩, -- MON_PREV, R398
  ⟨0x6033, 0x0A, 64, (.u 8), .ro, .hm, .n, 0, .any⟩, -- MON_PREV, R398
  ⟨0x6033, 0x0B, 64, (.u 8), .ro, .hm, .n, 0, .any⟩, -- MON_PREV, R398
  ⟨0x6033, 0x0C, 64, (.u 8), .ro, .hm, .n, 0, .any⟩, -- MON_PREV, R398
  ⟨0x6033, 0x0D, 64, (.u 8), .ro, .hm, .n, 0, .any⟩, -- MON_PREV, R398
  ⟨0x6033, 0x0E, 64, (.u 8), .ro, .hm, .n, 0, .any⟩, -- MON_PREV, R398
  ⟨0x6033, 0x0F, 64, (.u 8), .ro, .hm, .n, 0, .any⟩, -- MON_PREV, R398
  ⟨0x6033, 0x10, 64, (.u 8), .ro, .hm, .n, 0, .any⟩, -- MON_PREV, R398
  ⟨0x6033, 0x11, 64, (.u 8), .ro, .hm, .n, 0, .any⟩, -- MON_PREV, R398
  ⟨0x6033, 0x12, 64, (.u 8), .ro, .hm, .n, 0, .any⟩, -- MON_PREV, R398
  ⟨0x6033, 0x13, 64, (.u 8), .ro, .hm, .n, 0, .any⟩, -- MON_PREV, R398
  ⟨0x6033, 0x14, 64, (.u 8), .ro, .hm, .n, 0, .any⟩] -- MON_PREV, R398

/-- Rows of the area that begins at 6000h, part 1. -/
def rows18_1 : List ObjRow := [
  ⟨0x6033, 0x15, 64, .time80, .ro, .hm, .n, 0, .any⟩, -- MON_PREV_END, R398
  ⟨0x6033, 0x16, 64, (.bits 8), .ro, .hm, .n, 0, .any⟩, -- MON_PREV_FLAGS, R398
  ⟨0x6040, 0x01, 64, .bool, .rw, .hm, .n, 0, .any⟩, -- TRACE_EN, R398
  ⟨0x6040, 0x02, 64, (.u 1), .rw, .hm, .n, 20, .rng 0 30⟩, -- TRACE_SHIFT, R398
  ⟨0x6040, 0x03, 64, (.bits 8), .rw, .hm, .n, 0x0F, .bitsOf 0x0F⟩, -- TRACE_PORTS, R398
  ⟨0x6041, 0x01, 1, .enum8, .rw, .hm, .n, 0, .codes [0, 1]⟩, -- TRACE_MODE, R398
  ⟨0x6041, 0x02, 1, (.u 8), .ro, .hm, .n, 0, .any⟩, -- TRACE_WRITTEN, R398
  ⟨0x6041, 0x03, 64, (.u 8), .ro, .hm, .n, 0, .any⟩, -- TRACE_CAPPED, R398
  ⟨0x6041, 0x04, 1, (.u 8), .ro, .hm, .n, 0, .any⟩, -- TRACE_LOST, R398
  ⟨0x6041, 0x05, 1, .enum8, .ro, .hm, .n, 0, .any⟩, -- TRACE_STATE, R398
  ⟨0x6041, 0x06, 1, (.u 1), .wo, .hm, .n, 0, .codes [1]⟩, -- TRACE_CLEAR, R398
  ⟨0x6042, 0x01, 1, .table, .ro, .hm, .n, 0, .any⟩, -- TRACE_RING, R398
  ⟨0x6050, 0x01, 32, .bool, .rw, .hm, .n, 0, .any⟩, -- SAMPLE_EN, R398
  ⟨0x6050, 0x02, 32, (.u 1), .rw, .hm, .n, 16, .rng 10 24⟩, -- SAMPLE_SHIFT, R398
  ⟨0x6050, 0x03, 32, .enum8, .rw, .hm, .n, 0, .codes [0, 1]⟩, -- SAMPLE_MODE, R398
  ⟨0x6051, 0x01, 2, .enum8, .rw, .hm, .n, 0, .codes [0, 1]⟩, -- SAMPLE_RING_MODE, R398
  ⟨0x6051, 0x02, 2, (.u 8), .ro, .hm, .n, 0, .any⟩, -- SAMPLES_WRITTEN, R398
  ⟨0x6051, 0x03, 2, (.u 8), .ro, .hm, .n, 0, .any⟩, -- SAMPLES_LOST, R398
  ⟨0x6051, 0x04, 2, .enum8, .ro, .hm, .n, 0, .any⟩, -- SAMPLE_STATE, R398
  ⟨0x6051, 0x05, 2, (.u 1), .wo, .hm, .n, 0, .codes [1]⟩, -- SAMPLE_CLEAR, R398
  ⟨0x6052, 0x01, 1, .table, .ro, .hm, .n, 0, .any⟩, -- SAMPLE_RING, R398
  ⟨0x6052, 0x02, 1, .table, .ro, .hm, .n, 0, .any⟩, -- SAMPLE_RING, R398
  ⟨0x6060, 0x01, 255, .enum8, .rw, .hm, .n, 0, .rng 0 3⟩, -- MIR_DEST, R398
  ⟨0x6060, 0x02, 255, (.u 2), .rw, .hm, .n, 0, .rng 0 255⟩, -- MIR_TARGET, R398
  ⟨0x6060, 0x03, 255, .enum8, .rw, .hm, .n, 0, .codes [0, 1]⟩, -- MIR_POINT, R398
  ⟨0x6060, 0x04, 255, (.u 2), .rw, .hm, .n, 0, .zeroOr 64 16383⟩, -- MIR_TRUNC, R398
  ⟨0x6060, 0x05, 255, (.u 1), .rw, .hm, .n, 0, .rng 0 16⟩, -- MIR_SHIFT, R398
  ⟨0x6060, 0x06, 255, (.u 1), .rw, .hm, .n, 0, .bitsOf 0x7F⟩, -- MIR_CLASS, R398
  ⟨0x6060, 0x07, 255, .bool, .rw, .hm, .n, 0, .any⟩, -- MIR_DROPPED_TOO, R398
  ⟨0x6060, 0x08, 255, (.u 8), .ro, .hm, .n, 0, .any⟩, -- MIR_COPIES, R398
  ⟨0x6060, 0x09, 255, (.u 8), .ro, .hm, .n, 0, .any⟩, -- MIR_LOST, R398
  ⟨0x6061, 0x01, 1, .enum8, .rw, .hm, .n, 0, .rng 0 3⟩, -- PC_DEST, R398
  ⟨0x6061, 0x02, 1, (.u 2), .rw, .hm, .n, 0, .rng 0 255⟩, -- PC_TARGET, R398
  ⟨0x6061, 0x03, 1, (.u 1), .rw, .hm, .n, 0, .bitsOf 0x7F⟩, -- PC_CLASS, R398
  ⟨0x6061, 0x04, 1, (.oct 64), .rw, .hm, .n, 0, .any⟩, -- PC_TEMPLATE, R398
  ⟨0x6061, 0x05, 1, (.u 1), .rw, .hm, .n, 14, .rng 14 64⟩, -- PC_TEMPLATE_LEN, R398
  ⟨0x6061, 0x06, 1, (.u 4), .rw, .hm, .n, 1000000, .rng 1 100000000⟩, -- PC_RATE, R398
  ⟨0x6061, 0x07, 1, (.u 8), .ro, .hm, .n, 0, .any⟩, -- PC_SENT, R398
  ⟨0x6061, 0x08, 1, (.u 8), .ro, .hm, .n, 0, .any⟩, -- PC_LOST, R398
  ⟨0x6070, 0x01, 1, .bool, .rw, .hm, .p, 0, .any⟩, -- EXP_ENABLE, R398
  ⟨0x6070, 0x02, 1, (.u 2), .rw, .hm, .p, 0, .rng 0 255⟩, -- EXP_PORT, R398
  ⟨0x6070, 0x03, 1, (.u 1), .rw, .hm, .p, 0, .rng 0 7⟩, -- EXP_CLASS, R398
  ⟨0x6070, 0x04, 1, (.oct 64), .rw, .hm, .p, 0, .any⟩, -- EXP_HEADER, R398
  ⟨0x6070, 0x05, 1, (.u 1), .rw, .hm, .p, 42, .rng 42 64⟩, -- EXP_HEADER_LEN, R398
  ⟨0x6070, 0x06, 1, .enum8, .rw, .hm, .p, 0, .codes [0, 1]⟩, -- EXP_FAMILY, R398
  ⟨0x6070, 0x07, 1, (.u 4), .rw, .hm, .p, 0, .rng 0 0xFFFFFFFE⟩, -- EXP_DOMAIN, R398
  ⟨0x6070, 0x08, 1, (.u 2), .rw, .hm, .p, 1500, .rng 576 9000⟩, -- EXP_MTU, R398
  ⟨0x6070, 0x09, 1, (.u 4), .rw, .hm, .p, 600, .rng 1 86400⟩, -- EXP_TMPL_REFRESH, R398
  ⟨0x6070, 0x0A, 1, (.i 8), .rw, .hm, .p, 0, .any⟩, -- EXP_EPOCH_OFS, R398
  ⟨0x6070, 0x0B, 1, (.u 2), .rw, .hm, .p, 100, .rng 1 10000⟩, -- EXP_FLUSH, R398
  ⟨0x6070, 0x0C, 1, (.u 4), .rw, .hm, .p, 100000, .rng 1000 2000000⟩, -- EXP_MSG_RATE, R398
  ⟨0x6071, 0x01, 2, (.u 8), .ro, .hm, .n, 0, .any⟩, -- EXP_RECORDS, R398
  ⟨0x6071, 0x02, 2, (.u 8), .ro, .hm, .n, 0, .any⟩, -- EXP_MESSAGES, R398
  ⟨0x6071, 0x03, 2, (.u 8), .ro, .hm, .n, 0, .any⟩, -- EXP_LOST, R398
  ⟨0x6071, 0x04, 2, (.u 4), .ro, .hm, .n, 0, .any⟩] -- EXP_WAITING, R398

/-- Rows of the area that begins at 6400h, part 0. -/
def rows19_0 : List ObjRow := [
  ⟨0x6400, 0x01, 640, .bool, .rw, .hm, .n, 1, .any⟩, -- SRC_ENABLE, R417
  ⟨0x6400, 0x02, 640, (.bits 8), .rw, .hm, .p, 0x0F, .bitsOf 0x0F⟩, -- SRC_ROUTE, R417
  ⟨0x6400, 0x03, 640, (.bits 8), .w1c, .hm, .n, 0, .bitsOf 0x0F⟩, -- SRC_LATCH, R417
  ⟨0x6400, 0x04, 640, (.u 8), .ro, .hm, .n, 0, .any⟩, -- SRC_RAISES, R417
  ⟨0x6400, 0x05, 640, (.u 4), .rc, .hm, .n, 0, .any⟩, -- SRC_SUPPRESSED, R417
  ⟨0x6400, 0x06, 640, (.u 4), .rc, .hm, .n, 0, .any⟩, -- SRC_HELD_LOST, R417
  ⟨0x6400, 0x07, 640, (.u 2), .ro, .hm, .n, 0, .any⟩, -- SRC_LAST_CODE, R417
  ⟨0x6400, 0x08, 640, .time80, .ro, .hm, .n, 0, .any⟩, -- SRC_LAST_TIME, R417
  ⟨0x6401, 0x01, 640, (.u 2), .rw, .hm, .n, 100, .rng 1 10000⟩, -- SRC_RATE, R417
  ⟨0x6401, 0x02, 640, (.u 2), .rw, .hm, .n, 200, .rng 1 10000⟩, -- SRC_BURST, R417
  ⟨0x6402, 0x01, 1, (.bits 640), .ro, .hm, .n, 0, .any⟩, -- SOURCES_LATCHED, R417
  ⟨0x6402, 0x02, 1, .enum8, .rw, .hm, .p, 3, .rng 0 3⟩, -- FAULT_SEVERITY, R417
  ⟨0x6402, 0x03, 1, .bool, .ro, .hm, .n, 0, .any⟩, -- FAULT_STATE, R417
  ⟨0x6410, 0x01, 1, (.u 4), .const, .hm, .n, 131072, .any⟩, -- LEDGER_CAPACITY, R417
  ⟨0x6410, 0x02, 1, (.u 4), .ro, .hm, .n, 0, .any⟩, -- LEDGER_USED, R417
  ⟨0x6410, 0x03, 1, (.u 8), .ro, .hm, .n, 0, .any⟩, -- LEDGER_NEXT_SEQ, R417
  ⟨0x6410, 0x04, 4, (.u 4), .rc, .hm, .n, 0, .any⟩, -- LEDGER_DISCARDED, R417
  ⟨0x6410, 0x05, 1, (.u 8), .ro, .hm, .n, 0, .any⟩, -- LEDGER_NOT_STORED, R417
  ⟨0x6410, 0x06, 1, (.u 8), .ro, .hm, .n, 0, .any⟩, -- LEDGER_OLDEST, R417
  ⟨0x6410, 0x07, 1, (.u 4), .rc, .hm, .n, 0, .any⟩, -- LEDGER_SLOT_ERRORS, R417
  ⟨0x6410, 0x08, 4, (.u 4), .ro, .hm, .n, 0, .any⟩, -- LEDGER_BY_SEVERITY, R417
  ⟨0x6410, 0x09, 1, (.u 4), .ro, .hm, .n, 0, .any⟩, -- POWER_CYCLES, R417
  ⟨0x6410, 0x0A, 1, (.u 8), .ro, .hm, .n, 0, .any⟩, -- OPERATING_TIME, R417
  ⟨0x6420, 0x01, 2, (.u 8), .rw, .hm, .n, 0, .any⟩, -- LEDGER_CURSOR, R417
  ⟨0x6420, 0x02, 2, (.oct 32), .ro, .hm, .n, 0, .any⟩, -- LEDGER_READ, R417
  ⟨0x6420, 0x03, 2, (.u 8), .ro, .hm, .n, 0, .any⟩, -- LEDGER_READ_SEQ, R417
  ⟨0x6420, 0x04, 1, (.u 1), .wo, .hm, .n, 0, .any⟩] -- LEDGER_CLEAR, R417

/-- Rows of the area that begins at 7000h, part 0. -/
def rows1C_0 : List ObjRow := [
  ⟨0x7000, 0x01, 1, (.u 1), .wo, .hm, .n, 0, .codes [1, 2, 3]⟩, -- RESET_CMD, R459
  ⟨0x7000, 0x02, 1, .enum8, .ro, .hm, .n, 0, .any⟩, -- DP_STATE, R459
  ⟨0x7000, 0x03, 1, .enum8, .ro, .hm, .n, 0, .any⟩, -- LAST_RESET, R459
  ⟨0x7000, 0x04, 1, .enum8, .ro, .hm, .n, 0, .any⟩, -- LAST_CAUSE, R459
  ⟨0x7000, 0x05, 1, (.u 2), .ro, .hm, .n, 0xFFFF, .any⟩, -- LAST_ISLAND, R459
  ⟨0x7000, 0x06, 1, (.u 4), .rc, .hm, .n, 0, .any⟩, -- DP_RESETS, R459
  ⟨0x7000, 0x07, 1, (.u 4), .rc, .hm, .n, 0, .any⟩, -- WARM_RESTARTS, R459
  ⟨0x7000, 0x08, 1, (.u 4), .ro, .hm, .n, 0, .any⟩, -- READY_TIME, R459
  ⟨0x7000, 0x09, 1, (.u 4), .rc, .hm, .n, 0, .any⟩, -- RESETS_IGNORED, R459
  ⟨0x7010, 0x01, 680, .enum8, .ro, .hm, .n, 0, .any⟩, -- ISLAND_STATE, R16
  ⟨0x7010, 0x02, 680, (.u 4), .ro, .hm, .n, 0, .any⟩, -- ISLAND_FREQ, R16
  ⟨0x7010, 0x03, 680, (.u 4), .rc, .hm, .n, 0, .any⟩, -- CROSS_STALLS, R16
  ⟨0x7011, 0x00, 1, (.u 4), .rw, .hm, .n, 10000, .rng 1000 1000000⟩, -- CROSS_WDOG, R16
  ⟨0x7020, 0x01, 1, (.u 2), .ro, .hm, .n, 8192, .any⟩, -- SPARE_CELLS_FREE, R459
  ⟨0x7020, 0x02, 1, (.u 4), .ro, .hm, .n, 0, .any⟩, -- CELLS_REPAIRED, R459
  ⟨0x7021, 0x01, 48, (.u 1), .ro, .hm, .n, 32, .any⟩, -- SPARE_ROWS_FREE, R459
  ⟨0x7021, 0x02, 48, (.u 4), .ro, .hm, .n, 0, .any⟩, -- ROWS_REPAIRED, R459
  ⟨0x7021, 0x03, 48, (.u 4), .rc, .hm, .n, 0, .any⟩, -- ROWS_UNREPAIRED, R459
  ⟨0x7022, 0x01, 2048, (.u 8), .ro, .hm, .n, 0, .any⟩, -- REPAIR_RECORD, R459
  ⟨0x7022, 0x02, 1, (.u 2), .ro, .hm, .n, 0, .any⟩, -- REPAIR_RECORDS_USED, R459
  ⟨0x7040, 0x01, 13, (.u 2), .ro, .hm, .n, 0, .any⟩, -- RAIL_MV, R477
  ⟨0x7040, 0x02, 13, (.u 4), .ro, .hm, .n, 0, .any⟩, -- RAIL_MA, R477
  ⟨0x7040, 0x03, 13, .enum8, .ro, .hm, .n, 0, .any⟩, -- RAIL_STATE, R477
  ⟨0x7040, 0x04, 13, (.u 4), .rc, .hm, .n, 0, .any⟩, -- RAIL_EXCURSIONS, R477
  ⟨0x7040, 0x05, 1, (.u 4), .ro, .hm, .n, 0, .any⟩, -- SEQ_VIOLATIONS, R477
  ⟨0x7041, 0x01, 1, (.u 4), .ro, .hm, .n, 0, .any⟩, -- POWER_NOW, R477
  ⟨0x7041, 0x02, 1, (.u 4), .rc, .hm, .n, 0, .any⟩, -- POWER_PEAK, R477
  ⟨0x7041, 0x03, 1, (.u 4), .rw, .hm, .p, 1050000, .rng 100000 1200000⟩, -- POWER_WARN, R477
  ⟨0x7042, 0x01, 16, .q16, .ro, .hm, .n, 0, .any⟩, -- SENSOR_TEMP, R477
  ⟨0x7042, 0x02, 16, .q16, .rc, .hm, .n, 0, .any⟩, -- SENSOR_PEAK, R477
  ⟨0x7042, 0x03, 1, (.u 1), .rw, .hm, .p, 100, .rng 70 110⟩, -- THERM_WARN, R477
  ⟨0x7042, 0x04, 1, (.u 1), .const, .hm, .n, 115, .any⟩, -- THERM_SHUTDOWN, R477
  ⟨0x7042, 0x05, 16, .q16, .rw, .hm, .p, 0, .srng (-327680) 327680⟩, -- SENSOR_OFS, R477
  ⟨0x7042, 0x06, 16, .q16, .ro, .hm, .n, 0, .any⟩, -- SENSOR_OFS_EFF, R477
  ⟨0x7050, 0x01, 1, (.u 4), .ro, .hm, .n, 0, .any⟩, -- LIFE_USED, R477
  ⟨0x7050, 0x02, 5, (.u 4), .ro, .hm, .n, 0, .any⟩, -- TJ_HOURS, R477
  ⟨0x7050, 0x03, 1, (.u 4), .ro, .hm, .n, 0, .any⟩] -- TJ_SWINGS, R477

/-- Rows of the area that begins at 7800h, part 0. -/
def rows1E_0 : List ObjRow := [
  ⟨0x7800, 0x01, 1024, (.u 2), .ro, .f, .n, 500, .any⟩, -- CAL_TERM, R75
  ⟨0x7801, 0x01, 1024, (.i 2), .ro, .f, .n, 0, .any⟩, -- CAL_PRE_k, R75
  ⟨0x7801, 0x02, 1024, (.i 2), .ro, .f, .n, 65532, .any⟩, -- CAL_PRE_k, R75
  ⟨0x7801, 0x03, 1024, (.i 2), .ro, .f, .n, 65530, .any⟩, -- CAL_PRE_k, R75
  ⟨0x7801, 0x04, 1024, (.i 2), .ro, .f, .n, 65528, .any⟩, -- CAL_PRE_k, R75
  ⟨0x7801, 0x05, 1024, (.i 2), .ro, .f, .n, 65526, .any⟩, -- CAL_PRE_k, R75
  ⟨0x7801, 0x06, 1024, (.i 2), .ro, .f, .n, 0, .any⟩, -- CAL_POST_k, R75
  ⟨0x7801, 0x07, 1024, (.i 2), .ro, .f, .n, 65528, .any⟩, -- CAL_POST_k, R75
  ⟨0x7801, 0x08, 1024, (.i 2), .ro, .f, .n, 65524, .any⟩, -- CAL_POST_k, R75
  ⟨0x7801, 0x09, 1024, (.i 2), .ro, .f, .n, 65520, .any⟩, -- CAL_POST_k, R75
  ⟨0x7801, 0x0A, 1024, (.i 2), .ro, .f, .n, 65516, .any⟩, -- CAL_POST_k, R75
  ⟨0x7802, 0x01, 1024, (.u 2), .ro, .f, .n, 800, .any⟩, -- CAL_SWING, R75
  ⟨0x7810, 0x01, 1024, .q16, .ro, .f, .n, 3145728, .any⟩, -- CAL_RX_TS, R108
  ⟨0x7810, 0x02, 1024, .q16, .ro, .f, .n, 3407872, .any⟩, -- CAL_TX_TS, R108
  ⟨0x7830, 0x01, 96, (.u 2), .ro, .f, .n, 32, .any⟩, -- CAL_DRAM_DLY, R356
  ⟨0x7830, 0x02, 96, (.u 2), .ro, .f, .n, 32, .any⟩, -- CAL_DRAM_DLY, R356
  ⟨0x7830, 0x03, 96, (.u 2), .ro, .f, .n, 500, .any⟩, -- CAL_DRAM_VREF, R356
  ⟨0x7840, 0x01, 16, .q16, .ro, .f, .n, 0, .any⟩] -- CAL_SENSOR, R477

/-- Rows of the area that begins at 8000h, part 0. -/
def rows20_0 : List ObjRow := [
  ⟨0x8000, 0x01, 1, (.oct 32), .ro, .hm, .n, 0, .any⟩, -- DBG_CHALLENGE, R443
  ⟨0x8000, 0x02, 234, (.oct 256), .wo, .hm, .n, 0, .any⟩, -- DBG_TOKEN, R443
  ⟨0x8000, 0x03, 2, (.u 1), .wo, .hm, .n, 0, .codes [1, 2]⟩, -- DBG_SUBMIT, R443
  ⟨0x8000, 0x04, 1, .enum8, .ro, .hm, .n, 0, .any⟩, -- DBG_STATE, R443
  ⟨0x8000, 0x05, 1, (.bits 8), .ro, .hm, .n, 0, .any⟩, -- DBG_SCOPE, R443
  ⟨0x8000, 0x06, 1, (.u 4), .ro, .hm, .n, 0, .any⟩, -- DBG_REMAINING, R443
  ⟨0x8000, 0x07, 1, (.u 4), .rc, .hm, .n, 0, .any⟩] -- DBG_REFUSALS, R443

/-- Rows of the area that begins at 8400h, part 0. -/
def rows21_0 : List ObjRow := [
  ⟨0x8400, 0x01, 512, .bool, .rw, .hm, .n, 0, .any⟩, -- DBG_HALT, R280
  ⟨0x8400, 0x02, 512, (.u 1), .wo, .hm, .n, 0, .codes [1]⟩, -- DBG_ABANDON, R280
  ⟨0x8400, 0x03, 512, (.u 1), .wo, .hm, .n, 0, .codes [1]⟩, -- DBG_ABORT, R280
  ⟨0x8400, 0x04, 16384, (.u 8), .rw, .hm, .n, 0, .any⟩, -- DBG_REG, R280
  ⟨0x8400, 0x05, 512, (.u 2), .ro, .hm, .n, 0, .any⟩, -- DBG_ADDR, R280
  ⟨0x8401, 0x01, 128, (.u 4), .rw, .hm, .n, 0, .bitsOf 0x80007FFF⟩] -- DBG_BREAK, R280

/-- The rows of area `a` (the first index of the range divided by 400h, R27). -/
def areaRows (a : Nat) : List ObjRow :=
  match a with
  | 0x04 => rows04_0
  | 0x05 => rows05_0
  | 0x06 => rows06_0
  | 0x08 => rows08_0
  | 0x09 => rows09_0
  | 0x0A => rows0A_0 ++ rows0A_1 ++ rows0A_2
  | 0x0C => rows0C_0
  | 0x0D => rows0D_0 ++ rows0D_1
  | 0x0E => rows0E_0 ++ rows0E_1
  | 0x10 => rows10_0 ++ rows10_1
  | 0x11 => rows11_0 ++ rows11_1
  | 0x14 => rows14_0
  | 0x15 => rows15_0
  | 0x18 => rows18_0 ++ rows18_1
  | 0x19 => rows19_0
  | 0x1C => rows1C_0
  | 0x1E => rows1E_0
  | 0x20 => rows20_0
  | 0x21 => rows21_0
  | _ => []

/-- The areas that hold rows, in rising order. -/
def areaList : List Nat := [0x04, 0x05, 0x06, 0x08, 0x09, 0x0A, 0x0C, 0x0D, 0x0E, 0x10, 0x11, 0x14, 0x15, 0x18, 0x19, 0x1C, 0x1E, 0x20, 0x21]

end Sys2Proof
end

