-- ==== Sys2Proof/Config.lean ====
section
/-! DEFINITION. What one part fixes and the free values: constants without a body, so that nothing in Lean can evaluate
them and every statement holds whatever they are. -/

namespace Sys2Proof.Config

/-- A free value: what the spec leaves open, asked for the `n`-th time (log entry 3). -/
opaque freeValue : Nat → Nat

/-- A value written at manufacture (plane right F, R31), by object key. -/
opaque factory : Nat → Nat

/-- The factory MAC address, the default of 1100h.03 and of 4450h.06. -/
opaque factoryMac : Nat

/-- Dictionary layout version of the firmware (1000h.02). -/
opaque dictVersion : Nat

/-- Versions fixed in the part: 0 the boot ROM (1400h.01), 1 the microcode ROM (3840h.01). -/
opaque romVersion : Nat → Nat

/-- The microcode ROM: the 144-bit word at each of its 16,384 addresses (R253). -/
opaque rom : Nat → Nat

/-- The ROM address at which a task kind 00h to 3Fh enters (R253, 3841h.01). -/
opaque romEntry : Nat → Nat

/-- The seeds of the keys that signed the certificates of the part: its issuer, and the issuer's issuer; the randomness of the two
signatures (R438). -/
opaque issuerSeed : Nat
opaque rootSeed : Nat
opaque certRandom : Nat → Nat

/-- The 64-octet public key whose digest a key slot holds, as the security unit knows it when it checks a debug token (R441). -/
opaque slotKey : Nat → Nat

/-- The store key that the security unit derives from the unique device secret (R436), 32 octets. -/
opaque storeKey : Nat

/-- The contacts SMB_ADDR[1:0] (R471). -/
opaque smbAddr : Nat

/-- The unique device secret (R418), 32 octets. -/
opaque deviceSecret : Nat

/-- The SHAKE256 digest of the boot ROM (R439). -/
opaque romDigest : Nat

/-- A field of the fetch-unit command built in a thread's scratch (R250, whose layout the spec does not give): field number, the 64
words of scratch, the command's address. Fields: 0 the command (modulo 5: read, write, move, invalidate, install), 1 a slot, 2 the
slot a move writes, 3 the scratch address of the record. -/
opaque fetchCommand : Nat → List Nat → Nat → Nat

/-- What a store to a word of a flow-cache entry makes of the entry (R250, whose layout the spec does not give): the entry's fields
before, the word's number in the entry, the word, and the field asked for. -/
opaque cacheStore : List Int → Nat → Nat → Nat → Nat

end Sys2Proof.Config
end

