-- ==== Sys2Proof/Machine/Keccak.lean ====
section
/-! DEFINITION. SHAKE256 (FIPS 202) and KMAC256 (NIST SP 800-185), as R57 and R418 to R441 use them. -/

namespace Sys2Proof

/-- Rotate a 64-bit lane left. -/
def rotl64 (x n : Nat) : Nat := ((x <<< n) % 2 ^ 64) ||| (x >>> (64 - n))

/-- Rotation offsets, lane x + 5y. -/
def keccakRot : List Nat :=
  [0, 1, 62, 28, 27, 36, 44, 6, 55, 20, 3, 10, 43, 25, 39, 41, 45, 15, 21, 8, 18, 2, 61, 56, 14]

/-- Round constants. -/
def keccakRC : List Nat :=
  [0x1, 0x8082, 0x800000000000808A, 0x8000000080008000, 0x808B, 0x80000001, 0x8000000080008081, 0x8000000000008009,
   0x8A, 0x88, 0x80008009, 0x8000000A] ++
  [0x8000808B, 0x800000000000008B, 0x8000000000008089, 0x8000000000008003, 0x8000000000008002, 0x8000000000000080,
   0x800A, 0x800000008000000A, 0x8000000080008081, 0x8000000000008080, 0x80000001, 0x8000000080008008]

/-- One round of Keccak-f[1600] on 25 lanes. -/
def keccakRound (a : List Nat) (rc : Nat) : List Nat :=
  let at_ := fun (l : List Nat) (i : Nat) => l.getD i 0
  let c := (List.range 5).map fun x => at_ a x ^^^ at_ a (x + 5) ^^^ at_ a (x + 10) ^^^ at_ a (x + 15) ^^^ at_ a (x + 20)
  let dd := (List.range 5).map fun x => at_ c ((x + 4) % 5) ^^^ rotl64 (at_ c ((x + 1) % 5)) 1
  let t := (List.range 25).map fun i => rotl64 (at_ a i ^^^ at_ dd (i % 5)) (at_ keccakRot i)
  -- the lane (x, y) moves to (y, 2x + 3y): place (X, Y) takes the lane with x = X + 3Y, y = X
  let b := (List.range 25).map fun i => let X := i % 5; let Y := i / 5; at_ t ((X + 3 * Y) % 5 + 5 * X)
  let n := (List.range 25).map fun i =>
    let y := i / 5 * 5
    let x := i % 5
    at_ b i ^^^ ((2 ^ 64 - 1 - at_ b (y + (x + 1) % 5)) &&& at_ b (y + (x + 2) % 5))
  match n with
  | [] => []
  | h :: r => (h ^^^ rc) :: r

/-- Keccak-f[1600]. -/
def keccakF (a : List Nat) : List Nat := keccakRC.foldl keccakRound a

/-- A lane of eight octets, least significant first. -/
def leLane (b : Bytes) : Nat := ofBytes b.reverse

/-- Absorb one block of 136 octets. -/
def absorb (a : List Nat) (b : Bytes) : List Nat :=
  keccakF ((List.range 25).map fun i => a.getD i 0 ^^^ (if i < 17 then leLane (slice b (8 * i) 8) else 0))

/-- Absorb whole blocks. -/
def absorbAll : Nat → List Nat → Bytes → List Nat
  | 0, a, _ => a
  | n + 1, a, b => absorbAll n (absorb a b) (b.drop 136)

/-- The first 136 octets of output. -/
def squeezeBlock (a : List Nat) : Bytes := (a.take 17).flatMap fun x => (toBytes 8 x).reverse

/-- `n` blocks of output. -/
def squeeze : Nat → List Nat → Bytes
  | 0, _ => []
  | n + 1, a => squeezeBlock a ++ squeeze n (keccakF a)

/-- The sponge of rate 136 with domain octet `dom`. -/
def sponge (dom : Nat) (msg : Bytes) (out : Nat) : Bytes :=
  let m := msg ++ [BitVec.ofNat 8 dom]
  let m := m ++ List.replicate (ceilDiv m.length 136 * 136 - m.length) 0#8
  let m := m.take (m.length - 1) ++ [BitVec.ofNat 8 (byteAt m (m.length - 1) + 0x80)]
  (squeeze (ceilDiv out 136) (absorbAll (m.length / 136) (List.replicate 25 0) m)).take out

/-- SHAKE256 with `out` octets of output. -/
def shake256 (msg : Bytes) (out : Nat) : Bytes := sponge 0x1F msg out

/-- The 256-bit SHAKE256 digest as a number. -/
def digest256 (msg : Bytes) : Nat := ofBytes (shake256 msg 32)

/-- How many octets an integer takes, at least one. -/
def octetsOf (x : Nat) : Nat := if x < 256 then 1 else if x < 65536 then 2 else if x < 2 ^ 24 then 3 else 4

/-- left_encode and right_encode. -/
def leftEncode (x : Nat) : Bytes := BitVec.ofNat 8 (octetsOf x) :: toBytes (octetsOf x) x
def rightEncode (x : Nat) : Bytes := toBytes (octetsOf x) x ++ [BitVec.ofNat 8 (octetsOf x)]

/-- encode_string. -/
def encodeString (b : Bytes) : Bytes := leftEncode (8 * b.length) ++ b

/-- bytepad to the rate. -/
def bytepad (b : Bytes) : Bytes :=
  let x := leftEncode 136 ++ b
  x ++ List.replicate (ceilDiv x.length 136 * 136 - x.length) 0#8

/-- The octets of ASCII text. -/
def ascii (s : String) : Bytes := s.toList.map fun c => BitVec.ofNat 8 c.toNat

/-- KMAC256 with `out` octets of output. -/
def kmac256 (key msg : Bytes) (custom : String) (out : Nat) : Bytes :=
  sponge 0x04 (bytepad (encodeString (ascii "KMAC") ++ encodeString (ascii custom)) ++
    bytepad (encodeString key) ++ msg ++ rightEncode (8 * out)) out

end Sys2Proof
end

