-- ==== Sys2Proof/Machine/Slh.lean ====
section
/-! DEFINITION. SLH-DSA-SHAKE-256s (FIPS 205), which R421, R438, R440 and R441 name: n = 32, h = 64, d = 8, a = 14, k = 22, w = 16. Names
follow that standard. A node or key part is 32 octets. -/

namespace Sys2Proof

/-- An address ADRS: layer, tree, type, key pair, then chain or tree height, then hash or tree index. -/
structure Adrs where
  layer : Nat := 0
  tree : Nat := 0
  type : Nat := 0
  kp : Nat := 0
  w1 : Nat := 0
  w2 : Nat := 0
  deriving DecidableEq, Repr

/-- The 32 octets of an address. -/
def Adrs.bytes (a : Adrs) : Bytes :=
  toBytes 4 a.layer ++ toBytes 12 a.tree ++ toBytes 4 a.type ++ toBytes 4 a.kp ++ toBytes 4 a.w1 ++ toBytes 4 a.w2

/-- setTypeAndClear, with the key pair kept. -/
def Adrs.as (a : Adrs) (t : Nat) : Adrs := { layer := a.layer, tree := a.tree, type := t, kp := a.kp }

/-- F, H, T_l and PRF: one hash under a public seed and an address. -/
def slhHash (pk : Bytes) (a : Adrs) (m : Bytes) : Bytes := shake256 (pk ++ a.bytes ++ m) 32

/-- base_2b: `n` digits of `b` bits, the most significant first. -/
def slhDigits (x : Bytes) (b n : Nat) : List Nat :=
  let v := ofBytes x
  (List.range n).map fun i => v >>> (8 * x.length - b * (i + 1)) % 2 ^ b

/-- `n` nodes of an octet string from octet `o`. -/
def slhParts (b : Bytes) (o n : Nat) : List Bytes := (List.range n).map fun i => slice b (o + 32 * i) 32

/-- Climb a tree by its authentication path, from node `x` of index `idx` at height `k`. -/
def treeUp (pk : Bytes) (a : Adrs) : List Bytes → Nat → Nat → Bytes → Bytes
  | [], _, _, x => x
  | u :: r, k, idx, x =>
    treeUp pk a r (k + 1) (idx / 2) (slhHash pk { a with w1 := k + 1, w2 := idx / 2 } (if idx % 2 = 0 then x ++ u else u ++ x))

/-! ### WOTS+ -/

/-- chain: `s` steps from step `i`. -/
def wotsChain (pk : Bytes) (a : Adrs) : Nat → Nat → Bytes → Bytes
  | 0, _, x => x
  | s + 1, i, x => wotsChain pk a s (i + 1) (slhHash pk { a with w2 := i } x)

/-- The 67 digits of a message with its checksum. -/
def wotsDigits (m : Bytes) : List Nat :=
  let d := slhDigits m 4 64
  d ++ slhDigits (toBytes 2 (16 * d.foldl (fun c x => c + (15 - x)) 0)) 4 3

/-- The secret part `i` of the key pair of address `a`. -/
def wotsSecret (sk pk : Bytes) (a : Adrs) (i : Nat) : Bytes := slhHash pk { a.as 5 with w1 := i } sk

/-- The public key that chain ends compress to. -/
def wotsCompress (pk : Bytes) (a : Adrs) (l : List Bytes) : Bytes := slhHash pk (a.as 1) l.flatten

/-- wots_pkGen, wots_sign and wots_pkFromSig, at an address of type 0. -/
def wotsPublic (sk pk : Bytes) (a : Adrs) : Bytes :=
  wotsCompress pk a ((List.range 67).map fun i => wotsChain pk { a with w1 := i } 15 0 (wotsSecret sk pk a i))
def wotsSign (m sk pk : Bytes) (a : Adrs) : Bytes :=
  ((wotsDigits m).zipIdx.map fun e => wotsChain pk { a with w1 := e.2 } e.1 0 (wotsSecret sk pk a e.2)).flatten
def wotsFromSig (sig m pk : Bytes) (a : Adrs) : Bytes :=
  wotsCompress pk a ((wotsDigits m).zipIdx.map fun e =>
    wotsChain pk { a with w1 := e.2 } (15 - e.1) e.1 (slice sig (32 * e.2) 32))

/-! ### XMSS and the hypertree -/

/-- xmss_node: node `i` at a height. -/
def xmssNode (sk pk : Bytes) (a : Adrs) : Nat → Nat → Bytes
  | 0, i => wotsPublic sk pk { a with type := 0, kp := i }
  | z + 1, i =>
    slhHash pk { layer := a.layer, tree := a.tree, type := 2, w1 := z + 1, w2 := i } (xmssNode sk pk a z (2 * i) ++ xmssNode sk pk a z (2 * i + 1))

/-- xmss_sign and xmss_pkFromSig: 67 chain values and a path of 8 nodes. -/
def xmssSign (m sk pk : Bytes) (idx : Nat) (a : Adrs) : Bytes :=
  wotsSign m sk pk { a with type := 0, kp := idx } ++ (List.range 8).flatMap fun j => xmssNode sk pk a j ((idx / 2 ^ j) ^^^ 1)
def xmssFromSig (idx : Nat) (sig m pk : Bytes) (a : Adrs) : Bytes :=
  treeUp pk { layer := a.layer, tree := a.tree, type := 2 } (slhParts sig 2144 8) 0 idx (wotsFromSig sig m pk { a with type := 0, kp := idx })

/-- ht_sign over `n` layers from layer `j`. -/
def htSign (sk pk : Bytes) : Nat → Nat → Nat → Nat → Bytes → Bytes
  | 0, _, _, _, _ => []
  | n + 1, j, t, l, m =>
    let a : Adrs := { layer := j, tree := t }
    let s := xmssSign m sk pk l a
    s ++ htSign sk pk n (j + 1) (t / 256) (t % 256) (xmssFromSig l s m pk a)

/-- The root to which the layers of a hypertree signature lead. -/
def htRoot (pk : Bytes) : Nat → Nat → Nat → Nat → Bytes → Bytes → Bytes
  | 0, _, _, _, _, m => m
  | n + 1, j, t, l, sig, m => htRoot pk n (j + 1) (t / 256) (t % 256) (sig.drop 2400) (xmssFromSig l sig m pk { layer := j, tree := t })

/-! ### FORS -/

/-- fors_skGen and fors_node, at an address of type 3. -/
def forsSecret (sk pk : Bytes) (a : Adrs) (i : Nat) : Bytes := slhHash pk { a.as 6 with w2 := i } sk
def forsNode (sk pk : Bytes) (a : Adrs) : Nat → Nat → Bytes
  | 0, i => slhHash pk { a with w1 := 0, w2 := i } (forsSecret sk pk a i)
  | z + 1, i => slhHash pk { a with w1 := z + 1, w2 := i } (forsNode sk pk a z (2 * i) ++ forsNode sk pk a z (2 * i + 1))

/-- fors_sign and fors_pkFromSig: 22 secrets, each with a path of 14 nodes. -/
def forsSign (md sk pk : Bytes) (a : Adrs) : Bytes :=
  (slhDigits md 14 22).zipIdx.flatMap fun e =>
    forsSecret sk pk a (e.2 * 2 ^ 14 + e.1) ++
      (List.range 14).flatMap fun j => forsNode sk pk a j (e.2 * 2 ^ (14 - j) + ((e.1 / 2 ^ j) ^^^ 1))
def forsFromSig (sig md pk : Bytes) (a : Adrs) : Bytes :=
  slhHash pk (a.as 4) ((slhDigits md 14 22).zipIdx.map fun e =>
    let i := e.2 * 2 ^ 14 + e.1
    treeUp pk a (slhParts sig (480 * e.2 + 32) 14) 0 i (slhHash pk { a with w1 := 0, w2 := i } (slice sig (480 * e.2) 32))).flatten

/-! ### Keys, signatures, verification -/

/-- The parts of a 96-octet seed: SK.seed, SK.prf, PK.seed. -/
def slhPart (seed i : Nat) : Bytes := slice (toBytes 96 seed) (32 * i) 32

/-- PK.root of a seed. -/
def slhRoot (seed : Nat) : Bytes := xmssNode (slhPart seed 0) (slhPart seed 2) { layer := 7 } 8 0

/-- The public key of a seed: PK.seed, PK.root. -/
@[irreducible] def slhPublic (seed : Nat) : Nat := ofBytes (slhPart seed 2 ++ slhRoot seed)

/-- The digest of a message under a randomizer and a public key: the FORS message, the tree, the leaf. -/
def slhDigest (r key m : Bytes) : Bytes × Nat × Nat :=
  let d := shake256 (r ++ key ++ m) 47
  (d.take 39, beAt d 39 7, byteAt d 46)

/-- The signature of a message under a seed, with the additional randomness `rand` (the hedged variant). -/
@[irreducible] def slhSign (seed rand : Nat) (m : Bytes) : Bytes :=
  let sk := slhPart seed 0
  let pk := slhPart seed 2
  let r := shake256 (slhPart seed 1 ++ toBytes 32 rand ++ m) 32
  let (md, tree, leaf) := slhDigest r (pk ++ slhRoot seed) m
  let a : Adrs := { tree := tree, type := 3, kp := leaf }
  let f := forsSign md sk pk a
  r ++ f ++ htSign sk pk 8 0 tree leaf (forsFromSig f md pk a)

/-- Whether a signature of a message verifies under a 64-octet public key. -/
@[irreducible] def slhVerify (key : Nat) (m sig : Bytes) : Bool :=
  let k := toBytes 64 key
  let pk := k.take 32
  let (md, tree, leaf) := slhDigest (sig.take 32) k m
  let node := forsFromSig (slice sig 32 10560) md pk { tree := tree, type := 3, kp := leaf }
  sig.length == 29792 && htRoot pk 8 0 tree leaf (sig.drop 10592) node == k.drop 32

/-! ### What the part signs with -/

/-- The message FIPS 205 signs for a context string: 0, the context's length, the context, the message (R421, R440, R441). -/
def slhMessage (ctx : String) (m : Bytes) : Bytes :=
  let c := ascii ctx
  [0#8, BitVec.ofNat 8 c.length] ++ c ++ m

/-- The identity key's seed (R438). -/
def identitySeed : Nat := ofBytes (shake256 (toBytes 32 Config.deviceSecret ++ ascii "ULUASH-ID") 96)

/-- A certificate (R438): its body, and the issuer's signature, whose randomness is the issuer's own. -/
def certificate (serial : Nat) (key issuerSeed rand : Nat) : Bytes :=
  let body := toBytes 1 1 ++ List.replicate 3 0#8 ++ toBytes 16 serial ++ ascii "DQ8256" ++ List.replicate 6 0#8 ++ toBytes 64 key ++
    shake256 (toBytes 64 (slhPublic issuerSeed)) 32
  body ++ fitTo 29792 (slhSign issuerSeed rand (slhMessage "ULUASH-CERT" body))

/-- The certificate chain in flash (R438): the device's certificate, then its issuer's. -/
@[irreducible] def certChain (serial : Nat) : Bytes :=
  certificate serial (slhPublic identitySeed) Config.issuerSeed (Config.certRandom 0) ++
    certificate 0 (slhPublic Config.issuerSeed) Config.rootSeed (Config.certRandom 1)

end Sys2Proof
end

