-- ==== Sys2Proof/Machine/Dict.lean ====
section
/-! DEFINITION. The dictionary as a whole: finding the row of a key, the number of instances, defaults that depend on the
instance, areas (R27), the list of pegged instances (1030h). -/

namespace Sys2Proof

/-- The row of an object, if the dictionary has it. -/
def findRow (ix sub : Nat) : Option ObjRow :=
  (areaRows (ix / 0x400)).find? (fun r => r.index == ix && r.sub == sub)

/-- The rows of one index. -/
def indexRows (ix : Nat) : List ObjRow := (areaRows (ix / 0x400)).filter (fun r => r.index == ix)

/-- Whether an index names an object (R27). -/
def indexExists (ix : Nat) : Bool := (areaRows (ix / 0x400)).any (fun r => r.index == ix)

/-- The highest sub-index defined at an index, which sub-index 00h of a RECORD reads (R29). -/
def highestSub (ix : Nat) : Nat := (indexRows ix).foldl (fun a r => max a r.sub) 0

/-- The row of sub-index 00h of a RECORD: a U8 that both planes may read (R29; DEDUCED, log entry 5). -/
def recordRow (ix : Nat) : ObjRow := ⟨ix, 0, 1, .u 1, .ro, .hm, .n, 0, .any⟩

/-- The row that serves a key: a listed row, or sub-index 00h of a RECORD. -/
def rowOf (ix sub : Nat) : Option ObjRow :=
  match findRow ix sub with
  | some r => some r
  | none => if sub = 0 ∧ indexExists ix then some (recordRow ix) else none

/-- Defaults that depend on the instance, and defaults that another rule gives. -/
def dfltAt (ix sub i : Nat) : Option Nat :=
  match ix with
  | 0x1000 => if sub = 2 then some (Config.dictVersion % 2 ^ 32) else none
  | 0x1100 => if sub = 3 then some (Config.factoryMac % 2 ^ 48) else none
  | 0x1140 => if sub = 5 then some (i % 2) else none
  | 0x1400 =>      -- R418: what was fused at manufacture
    match sub with
    | 1 => some (Config.romVersion 0 % 2 ^ 32)
    | 3 => some (Config.factory (okey 0x1400 3 i) % 3)
    | 4 => some (Config.factory (okey 0x1400 4 i) % 128)
    | _ => none
  | 0x1440 =>      -- R438
    if sub = 2 then some (ofBytes (fitTo 256 ((certChain (Config.factory (okey 0x1000 5 0) % 2 ^ 128)).drop (256 * i)))) else none
  | 0x1802 => if sub = 2 then some 2 else none      -- no reference is good yet
  | 0x2440 => if sub = 1 then some 1 else none      -- R82: 2400h.02 is false
  | 0x2810 => if sub = 3 then some i else none
  | 0x2820 => if sub = 2 ∨ sub = 4 then some i else none
  | 0x28E0 =>      -- R160
    let pin := i < 8 ∨ 10 ≤ i
    match sub with
    | 1 => some (if pin then 1000 else if i = 8 then 1 else 100)
    | 2 => some (if pin then 10 else 4)
    | 3 => some (if pin then 0 else if i = 8 then 900 else 1000)
    | 4 => some (if i = 9 then 1000 else 100)
    | _ => none
  | 0x3011 => some (i % 8)
  | 0x3012 => some (i % 64 / 8)
  | 0x3401 => if sub = 1 then some (if i < 2 then 65536 else 0) else none
  | 0x3402 => some (i % 2)
  | 0x3472 => some (i % 16)
  | 0x3840 => if sub = 1 then some (Config.romVersion 1 % 2 ^ 32) else none
  | 0x3841 =>
    let kind := i % 256
    some (if 1 ≤ kind ∧ kind ≤ 7 then Config.romEntry kind % 16384 else 0x7FFF)
  | 0x3842 =>      -- R257: entry 0 is the first octet
    some (ofBytes ((List.range 64).map fun e =>
      if e = 63 then 3#8 else if [20, 41, 62].contains e then 2#8
      else if [7, 15, 23, 31, 39, 47, 55, 60].contains e then 1#8 else 0#8))
  | 0x4301 =>
    if sub = 1 then some ([2048, 1024, 512, 1024, 512, 2048, 512, 1024].getD (i % 8) 0) else none
  | 0x4420 => if sub = 1 then some (i % 8) else none
  | 0x4450 => if sub = 6 then some (Config.factoryMac % 2 ^ 48) else none
  | 0x5010 =>      -- R343
    match sub with
    | 1 => some ([0, 1024, 1280, 1408].getD i 0)
    | 2 => some ([1024, 256, 128, 128].getD i 0)
    | _ => some (if i = 0 then 1 else 0)
  | 0x5011 =>      -- R344: G on channel G mod 24 of its Sill, at position G div 24
    let g := i % 1536
    some (if sub = 1 then i / 1536 * 24 + g % 24 else g / 24)
  | 0x6032 | 0x6033 => if sub = 2 then some 0xFFFFFFFF else none      -- R385: an empty interval
  | 0x6031 => some (2 ^ (i % 15 + 6))
  | _ => none

/-- What an instance reads after the reset that clears its area: a value written at manufacture, an instance-dependent
default, or the Default column. -/
def objDflt (k : Nat) : Nat :=
  match findRow (keyIndex k) (keySub k) with
  | none => 0
  | some r =>
    if r.planes = .f then Config.factory k % 2 ^ (8 * r.ty.len)
    else (dfltAt r.index r.sub (keyInst k)).getD r.dflt

/-- The area number of an index: the first index of its range divided by 400h (R27, 1020h.05). -/
def areaOf (ix : Nat) : Option Nat :=
  let a := ix / 0x400
  if a = 0x04 ∨ a = 0x05 ∨ a = 0x06 ∨ (8 ≤ a ∧ a ≤ 0x0A) ∨ (0x0C ≤ a ∧ a ≤ 0x0E) ∨ a = 0x10 ∨ a = 0x11
    ∨ a = 0x14 ∨ a = 0x15 ∨ a = 0x18 ∨ a = 0x19 ∨ a = 0x1C then some a
  else if a = 0x1E ∨ a = 0x1F then some 0x1E
  else if 0x20 ≤ a ∧ a ≤ 0x23 then some 0x20
  else none

/-- Whether an area belongs to the data plane: its objects answer 0701h during a data-plane reset (R33, R449). -/
def dataPlaneArea (ix : Nat) : Bool :=
  let a := ix / 0x400
  (8 ≤ a && a ≤ 0x0A) || (0x0C ≤ a && a ≤ 0x0E) || a == 0x10 || a == 0x11 || a == 0x14 || a == 0x18

/-- The pegged rows, in rising key order. -/
def peggedRows : List ObjRow := areaList.flatMap (fun a => (areaRows a).filter ObjRow.pegged)

/-- The number of pegged instances (1030h.01). -/
def pegCount : Nat := peggedRows.foldl (fun n r => n + r.size) 0

/-- The key of pegged instance `k` (1030h.02), counting in rising key order (DESIGN CHOICE, log entry 6). -/
def pegKeyIn : List ObjRow → Nat → Option Nat
  | [], _ => none
  | r :: rest, k => if k < r.size then some (okey r.index r.sub k) else pegKeyIn rest (k - r.size)

/-- The number of a pegged instance's key (inverse of `pegKeyIn`). -/
def pegNumIn : List ObjRow → Nat → Nat → Option Nat
  | [], _, _ => none
  | r :: rest, base, key =>
    if r.index = keyIndex key ∧ r.sub = keySub key then some (base + keyInst key)
    else pegNumIn rest (base + r.size) key

end Sys2Proof
end

