-- ==== Sys2Proof/Machine/State.lean ====
section
/-! DEFINITION. The state of the device as plain data: every register, counter and mode bit of the dictionary in one sparse map
(`objs`), the tables, and the engines' own state, chapter by chapter; the queue of waiting commands; the state after reset. -/

namespace Sys2Proof.Machine

/-- Why a step can stop. -/
inductive Fault where
  /-- Raised by every command whose operand names a port, lane, bay, queue, island, core, channel, ring, window or other resource
  of the device outside the numbering of R4 to R6, R48 and R55, or whose operand does not fit the width of what it stands for: no
  sender can give such a command, and the spec gives it no effect (log entry 4). An object instance beyond its array is no such
  case: it is answered 0103h (R28). Safe. -/
  | noSuchResource
  deriving DecidableEq, Repr

/-- Why a command can be refused. -/
inductive Refusal where
  /-- Raised by no meaning: kept for a command whose meaning is not written. Safe. -/
  | notModelled (mnemonic : String)
  deriving DecidableEq, Repr

/-- The time base (R87): device time, the same count since power-up, network time, and the rate accumulator. -/
structure Clock where
  /-- Device time in 2^-16 ns since the last data-plane reset. -/
  dev : Nat := 0
  /-- The always-on count in 2^-16 ns since power-up (island 679). -/
  run : Nat := 0
  /-- Network seconds. -/
  secs : Nat := 0
  /-- Network nanoseconds. -/
  ns : Nat := 0
  /-- Network fraction in 2^-16 ns. -/
  frac : Nat := 0
  /-- What the rate accumulator carries, in 2^-32 × 10^-9 of a unit. -/
  carry : Nat := 0
  deriving DecidableEq, Repr, Inhabited

/-- A token bucket: scaled tokens and the time of the last update; absent means full. -/
structure Bucket where
  tokens : Nat
  last : Nat
  deriving DecidableEq, Repr, Inhabited

/-! ### What leaves the device -/

/-- What the medium of a port carries (R14, R78, R83): nothing, idle, remote fault, the patterns of its lanes, frames or slots. -/
inductive Signal where
  | off | idle | remoteFault | patterns | traffic
  deriving DecidableEq, Repr, Inhabited

/-- What the device sends out, in order. -/
inductive Out where
  /-- A write to host memory (R361). -/
  | dma (addr : Nat) (data : Bytes)
  /-- An MSI-X message of instance f × 64 + v (R368). -/
  | msix (inst : Nat)
  /-- A frame, fragment or control frame at a port's medium, FCS included. -/
  | frame (port : Nat) (data : Bytes)
  /-- The head of a frame at a port's medium that ends with an error control block (R83). -/
  | errFrame (port : Nat) (data : Bytes)
  /-- What a port's medium carries from now on (R83). -/
  | signal (port : Nat) (s : Signal)
  /-- The next n symbols that the generator of a lane sends have a bit inverted (R78). -/
  | symbolErrors (lane n : Nat)
  /-- A verification request or response at a port's medium (R325, R327). -/
  | verify (port : Nat) (response : Bool)
  /-- A Plumb frame at a port's medium: its blocks in transmission order (R109). -/
  | plumb (port : Nat) (blocks : List Nat)
  /-- Octets of an overhead-port frame of interface n (R135). -/
  | ohp (n : Nat) (data : Bytes)
  /-- A UOP message sent to a source: kind 0 port or 1 data channel, its number, and the message (R60). -/
  | uop (kind num : Nat) (msg : Bytes)
  /-- A message given to a management core (R103, R403). -/
  | mgmt (data : Bytes)
  /-- Data returned on the SMB bus from an address, with its packet error code (R471). -/
  | smb (addr : Nat) (data : Bytes) (pec : Nat)
  /-- The completion of a read of a BAR (R48 to R55, R359, R370). -/
  | mmio (data : Bytes)
  deriving DecidableEq, Repr, Inhabited

/-! ### The dictionary (02) -/

/-- A copy of a pegged instance (R41): value, epoch, and whether its check code and key hold. -/
structure PegCopy where
  val : Nat := 0
  epoch : Nat := 0
  good : Bool := true
  deriving DecidableEq, Repr, Inhabited

/-- The three copies of a pegged instance. -/
structure PegTriple where
  a : PegCopy := {}
  b : PegCopy := {}
  c : PegCopy := {}
  deriving DecidableEq, Repr, Inhabited

/-- Where the shadow bank of an area stands (R23, R24). -/
inductive BankPhase where
  | idle | swapping | copying
  deriving DecidableEq, Repr, Inhabited

/-- The shadow bank of an area: its owner (0 none, 1 host, 2 management), when it was last written, its phase. -/
structure Bank where
  owner : Nat := 0
  last : Nat := 0
  phase : BankPhase := .idle
  deriving DecidableEq, Repr, Inhabited

/-- An accepted commit in progress (R36): its epoch, plane, and the (area, part) pairs that have not swapped. -/
structure Commit where
  epoch : Nat
  plane : Nat
  left : List (Nat × Nat)
  deriving DecidableEq, Repr, Inhabited

/-- A value that stays readable until an epoch is visible (R35). -/
structure PrevVal where
  epoch : Nat
  key : Nat
  val : Nat
  deriving DecidableEq, Repr, Inhabited

/-- Dictionary state beside the lit values. -/
structure Dict where
  /-- Staged values not yet swapped, by object key. -/
  shadow : PMap (Option Nat) := []
  /-- Staged table entries not yet swapped, by table address key; the inner option is the entry or an empty address. -/
  tblShadow : PMap (Option (Option Nat)) := []
  /-- Values that reads still return until the swap is visible (R35). -/
  prev : List PrevVal := []
  /-- The same for table entries. -/
  tblPrev : List (Nat × Nat × Option Nat) := []
  /-- The last epoch assigned (R22, R40). -/
  epoch : Nat := 0
  banks : PMap Bank := []
  commits : List Commit := []
  /-- Pegged copies, by object key. -/
  pegs : PMap (Option PegTriple) := []
  /-- Pegged instances repaired since their state was last read. -/
  pegRepaired : List Nat := []
  /-- Pegged instances now indeterminate (R44). -/
  pegIndet : List Nat := []
  /-- Bays that have swapped to the incoming bank of the parser and Tenon area (R24). -/
  baysNew : List Nat := []
  /-- Lit objects before the last swap of the parser and Tenon area, for frames that began under them (R177). -/
  oldObj : PMap (Option Nat) := []
  /-- Lit table entries before that swap. -/
  oldTbl : PMap (Option (Option Nat)) := []
  /-- The number of swaps of the parser and Tenon area: the bank a frame runs under (R177). -/
  bank12 : Nat := 0
  deriving DecidableEq, Repr, Inhabited

/-- The registers of an object window (R48). -/
structure ObjWin where
  key : Nat := 0
  ctrl : Nat := 0
  status : Nat := 0
  epoch : Nat := 0
  data : Bytes := []
  deriving DecidableEq, Repr, Inhabited

/-- The registers of a table window (R55). -/
structure TblWin where
  table : Nat := 0
  ctrl : Nat := 0
  status : Nat := 0
  cursor : Nat := 0
  addr : Nat := 0
  entry : Bytes := []
  deriving DecidableEq, Repr, Inhabited

/-- The batch engine of a function (R50). -/
structure BatchEng where
  base : Nat := 0
  size : Nat := 0
  tail : Nat := 0
  head : Nat := 0
  en : Bool := false
  ie : Bool := false
  err : Bool := false
  deriving DecidableEq, Repr, Inhabited

/-- A UOP message that a transport has delivered (R62, R63): its transport, port or channel, whether the transport gives its length,
whether its UDP checksum failed, its octets, and the frame that carried it (empty on a channel). -/
structure UopReq where
  chan : Bool
  num : Nat
  exact_ : Bool
  badSum : Bool
  msg : Bytes
  frame : Bytes
  deriving DecidableEq, Repr, Inhabited

/-- What running a list gives (R47): result entries, operations executed, the first that failed (position and status), stopped early. -/
structure ListRun where
  results : Bytes := []
  executed : Nat := 0
  failed : Option (Nat × Nat) := none
  early : Bool := false
  /-- The list waits for a task on the flow table (R239): entries left, their octets, and the operation that waits. -/
  wait : Option (Nat × Bytes × Nat) := none
  deriving DecidableEq, Repr, Inhabited

/-- A list that waits for its operation on the flow table: how it runs, where it stands, the operation's status and returned value once
its task is complete, and what it belongs to: a batch's descriptor, with whether its results cannot be written, or a UOP message, with the
key that checked it. -/
structure ListWait where
  pl : Nat
  core : Option Nat
  stop : Bool
  space : Nat
  run : ListRun
  res : Option (Nat × Bytes) := none
  desc : Bytes := []
  writeErr : Bool := false
  req : Option UopReq := none
  key : Nat := 0
  deriving DecidableEq, Repr, Inhabited

/-- What a UOP session keeps beside its objects (R59, R61). -/
structure Sess where
  /-- Bit i: sequence H − i has been accepted. -/
  mask : Nat := 0
  req : Bytes := []
  resp : Bytes := []
  core : Nat := 0
  sinceRec : Nat := 0
  /-- The last H recorded in the record store. -/
  recH : Nat := 0
  deriving DecidableEq, Repr, Inhabited

/-! ### Events and the Ledger (16) -/

/-- An event message (R400), with the time stamps its record takes (R406). -/
structure EvMsg where
  src : Nat
  code : Nat
  sev : Nat
  p1 : Nat
  p2 : Nat
  p3 : Nat
  valid : Bool
  cycles : Nat
  optime : Nat
  secs : Nat
  deriving DecidableEq, Repr, Inhabited

/-- A record in a Ledger slot (R411): its sequence and its 32 octets as a number. -/
structure LRec where
  seq : Nat
  data : Nat
  deriving DecidableEq, Repr, Inhabited

/-- A per-code limit of R478: when its last record was formed, in device time (below 0 where that was before device time restarted). -/
structure CodeLimit where
  code : Nat
  inst : Nat
  last : Int
  suppressed : Nat
  deriving DecidableEq, Repr, Inhabited

/-- Event sources and Ledger writer beside their objects. -/
structure Events where
  /-- Messages in pool 7, oldest first. -/
  queue : List EvMsg := []
  /-- Messages of sources that wait for a unit of pool 7 (R401). -/
  held : PMap (Option EvMsg) := []
  /-- Source limiters (R402). -/
  buckets : PMap (Option Bucket) := []
  limits : List CodeLimit := []
  /-- Suppressions of each source in the current second, and consecutive limited seconds. -/
  second : PMap Nat := []
  seconds : PMap Nat := []
  /-- Ledger slots (R410, R411), and the slot between the first and the third step of a write: its octets stand, its directory entry is
  empty. -/
  slots : PMap (Option LRec) := []
  storing : Option Nat := none
  /-- Slots whose CRC no longer holds (R414). -/
  rotten : List Nat := []
  /-- The first sequence not stored while no core was in service (R404), and how many. -/
  notStored : Option Nat := none
  notStoredN : Nat := 0
  /-- Discards by severity since the last 6403h record (R410). -/
  disc : PMap Nat := []
  deriving DecidableEq, Repr, Inhabited

/-! ### Host interface (14) -/

/-- A ring block (R360). Rings 0–15 punt, 16–31 inject, 32 time-stamp, 33 and 34 the event rings of functions 0 and 1. -/
structure Ring where
  base : Nat := 0
  size : Nat := 0
  /-- The RING_TAIL register, and the value the device has read from it. -/
  tail : Nat := 0
  seen : Nat := 0
  head : Nat := 0
  en : Bool := false
  ie : Bool := false
  err : Bool := false
  running : Bool := false
  headWb : Nat := 0
  limit : Nat := 0
  deriving DecidableEq, Repr, Inhabited

/-- A message that waits in pool 0 for a punt ring (R363, R364). -/
structure Punt where
  /-- The frame, while its last byte has not been received. -/
  src : Option Nat := none
  /-- What is delivered of the frame, without its FCS, and FRAME_LEN where the frame is longer: a mirror copy that was cut (R391). -/
  data : Bytes := []
  len : Nat := 0
  kind : Nat := 0
  reason : Nat := 0
  /-- FLAGS but for bit 7. -/
  flags : Nat := 0
  inPort : Nat := 0
  inTrib : Nat := 0xFFFF
  secs : Nat := 0
  ns : Nat := 0
  frac : Nat := 0
  tc : Nat := 0
  flowAct : Nat := 0
  hash : Nat := 0
  aux : Nat := 0
  /-- SCRATCH [255:160]. -/
  scratch : Nat := 0
  seq : Nat := 0
  units : Nat := 0
  deriving DecidableEq, Repr, Inhabited

/-- An injected frame that pool 1 holds (R365, R366): its descriptor and its octets. -/
structure Inj where
  desc : Bytes
  data : Bytes
  units : Nat
  deriving DecidableEq, Repr, Inhabited

/-- An MSI-X vector: completions not yet signalled, when the first came, the mask and pending bits, the table's address and
data (R368). -/
structure Vector where
  addr : Nat := 0
  data : Nat := 0
  count : Nat := 0
  first : Nat := 0
  /-- PRESUMED: set at reset, as PCI Express has it (log entry 21). -/
  masked : Bool := true
  pending : Bool := false
  deriving DecidableEq, Repr, Inhabited

/-- The host interface beside its objects and rings. -/
structure HostIf where
  rings : PMap Ring := []
  vectors : PMap Vector := []
  batch : PMap BatchEng := []
  perst : Bool := false
  /-- When the watchdog was last restarted, and when the host was lost, on the always-on count. -/
  beat : Nat := 0
  lostAt : Nat := 0
  /-- Bus Master Enable of function 0, and function 0 in D0 (R372, R374). -/
  busMaster : Bool := false
  d0 : Bool := true
  /-- SEQ of each punt ring (R363), and the punts that wait for it. -/
  puntSeq : PMap Nat := []
  punts : PMap (List Punt) := []
  /-- Injected frames held in pool 1, by inject ring, and the ring served last in each priority (R366). -/
  inj : PMap (List Inj) := []
  injLast : PMap Nat := []
  /-- AER status recorded, by function × 2 + kind (R369). -/
  aer : PMap Nat := []
  deriving DecidableEq, Repr, Inhabited

/-! ### Frames (07, 09, 11, 12) -/

/-- What a frame receives at stage 9 (R218, R221, R222, R224): the 128-bit result, the FLOW code, and what becomes of the frame:
0 it goes on, 1 VERDICT 2, else the punt reason. -/
structure Reply where
  res : Nat
  flow : Nat
  act : Nat
  /-- NAT_ADDR of the record (R217). -/
  nat : Nat := 0
  deriving DecidableEq, Repr, Inhabited

/-- A frame in the device: as received, as parsed, and its Tenon. -/
structure Frame where
  id : Nat := 0
  bay : Nat := 0
  port : Nat := 0
  trib : Nat := 0xFFFF
  /-- 0 from an Ethernet port, 1 from a tributary, 2 injected in pipeline mode, 3 injected in direct mode, 4 made by the device
  (postcard or export message). -/
  origin : Nat := 0
  /-- Inject ring of an injected frame. -/
  ring : Nat := 0
  /-- The frame with its FCS. -/
  data : Bytes := []
  /-- The last byte has been received and checked. -/
  whole : Bool := false
  /-- The fault found at its end: a stomp cause of R302. -/
  fault : Option Nat := none
  /-- An uncorrectable error was met in it (R306). -/
  memErr : Bool := false
  /-- MAX_FRAME and JABBER_LEN as they stood when it started (R85). -/
  limits : Nat × Nat := (9216, 16384)
  /-- Deadline start in device time (R291), and the ingress time-stamp in network time (2^-16 ns). -/
  t0 : Nat := 0
  tsNet : Nat := 0
  pre : Nat := 0
  /-- The bank it entered the parser under (R177). -/
  bank : Nat := 0
  tenon : Nat := 0
  /-- Field-container words by number, and the bit offset at which each extraction ended. -/
  fields : PMap Nat := []
  wofs : PMap Nat := []
  presence : Nat := 0
  /-- Header vector: (HDR_ID, offset, LEN_KIND of its state), first header first. -/
  hdrs : List (Nat × Nat × Nat) := []
  /-- Version and offset of its IP header, recorded at ingress (R289). -/
  ip : Option (Nat × Nat) := none
  /-- The largest datagram end claimed (R166). -/
  claim : Option Nat := none
  /-- 0 in the FIFO, 1 in the stages before the wait of stage 9, 2 past stage 12 with a destination, 3 admission decided,
  4 ended before admission (punted, dropped, refused). -/
  phase : Nat := 0
  /-- Traced (R386), and the points of its trace record (R387). -/
  traced : Bool := false
  tParsed : Option Nat := none
  tStage9 : Option Nat := none
  tStage12 : Option Nat := none
  hits : Nat := 0
  defaults : Nat := 0
  /-- Hash-profile canonical key of the flow request (R211) and its direction bit; the request was sent. -/
  asked : Bool := false
  key : Nat := 0
  kdir : Nat := 0
  /-- FLOW_ACT at the end of stage 3: the descriptor of an insertion (R224). -/
  desc : Nat := 0
  /-- The home Sill has served the request; what the frame receives at stage 9, none until that is known. -/
  looked : Bool := false
  reply : Option Reply := none
  /-- When the frame began to wait at stage 9 (device time), while it waits. -/
  parkedAt : Option Nat := none
  /-- It has waited; what the bay reads wrong for it, while it waits (R181, R185). -/
  parked : Bool := false
  bad : List Nat := []
  /-- The Sill and cached record that its commit updates (R234), and the SIDE and NAT port for the egress edit (R219). -/
  sill : Nat := 0
  slot : Option Nat := none
  pinned : Bool := false
  committed : Bool := false
  natSide : Nat := 0
  natPort : Nat := 0
  /-- A learn or move request to send when the frame ends well (R200): 0 none, 1 learn, 2 move; and its entry. -/
  learn : Nat := 0
  learnEntry : Nat := 0
  /-- Prism reissue (R181). -/
  reissued : Bool := false
  /-- The admission instant (R284); copies not yet ended; physical cells held; copies made. -/
  admitted : Option Nat := none
  copies : Nat := 0
  cells : Nat := 0
  mcCopies : Nat := 1
  /-- Credits debited on a provisional count, bit 0 TC and bit 1 TP, of a policer (R334). -/
  polDebit : Nat := 0
  polIdx : Nat := 0
  /-- The frame has been punted once (R308). -/
  punted : Bool := false
  /-- An ingress mirror copy waits for the last byte (R391). -/
  mirrorWait : Bool := false
  /-- A copy of it was stomped on its medium (R200, R302). -/
  stomped : Bool := false
  deriving DecidableEq, Repr, Inhabited

/-- Where a copy's cells are charged (R286): queue minimum, Shared, headroom, bounded pool, or nothing (a residue entry). -/
inductive Acct where
  | none | qmin | shared | headroom | bounded
  deriving DecidableEq, Repr, Inhabited

/-- A copy of a frame in a queue, a FIFO, a residue or on the medium. -/
structure Copy where
  frame : Nat := 0
  /-- Its index among the frame's copies. -/
  idx : Nat := 0
  port : Nat := 0
  tc : Nat := 0
  subq : Nat := 0
  /-- Egress packet-client key, on a slotted port. -/
  trib : Option Nat := none
  bounded : Bool := false
  lossless : Bool := false
  acct : Acct := .none
  cells : Nat := 0
  /-- Deadline, projected departure and projected start (device time), and the length projected (R294). -/
  deadline : Nat := 0
  proj : Nat := 0
  start : Nat := 0
  plen : Nat := 0
  /-- Cut-through eligible (R283). -/
  eligible : Bool := false
  /-- Bit 0: CE; bit 1: DSCP rewritten to `dscp` (R289, R298). -/
  mark : Nat := 0
  dscp : Nat := 0
  /-- SCRATCH [223:200] of a multicast copy (R307). -/
  nhop : Option Nat := none
  /-- 0 a forwarded copy, 1 a mirror copy of `session`. -/
  kind : Nat := 0
  session : Nat := 0
  /-- Admission instant, depth before admission, and how it was admitted (R387): 0 minimum, 1 shared, 2 headroom, 3 bounded,
  4 via residue, FFh none. -/
  a : Nat := 0
  depth0 : Nat := 0
  admBy : Nat := 0xFF
  deriving DecidableEq, Repr, Inhabited

/-- What is fixed at a frame's egress time-stamp point (R99, R101): device time and network time of that point, the asymmetries of the
egress and the ingress port, the link delay of the ingress port, and whether the egress port is slotted. -/
structure Stamp where
  at0 : Nat := 0
  net0 : Nat := 0
  asymOut : Int := 0
  asymIn : Int := 0
  delay : Int := 0
  slotted : Bool := false
  deriving DecidableEq, Repr, Inhabited

/-- A frame on the medium of a port. -/
structure Tx where
  copy : Copy := {}
  /-- The octets to send, as edited, once the whole frame is in the buffer. -/
  data : Option Bytes := none
  /-- What is fixed at the egress time-stamp point. -/
  stamp : Stamp := {}
  /-- A control frame. -/
  control : Bool := false
  /-- Additional fragments (R318). -/
  frags : Nat := 0
  /-- Frame octets sent in earlier fragments, and when the first octet of the present one left (R325). -/
  done : Nat := 0
  from0 : Nat := 0
  /-- Held because its gate closed (R317). -/
  held : Bool := false
  /-- Its gate has closed, and it is preempted at this device time, the next point that the fragment rules permit (R317). -/
  holdAt : Option Nat := none
  /-- Interrupted by express traffic, or held: the next fragment has not begun. -/
  cut : Bool := false
  /-- A stomp cause found after its head left (R303). -/
  stomp : Option Nat := none
  /-- Octets before a memory error (R303, cause 6). -/
  stompAt : Nat := 0
  deriving DecidableEq, Repr, Inhabited

/-- An entry of a queue's residue (R309): the copy and its residue deadline. -/
structure ResEntry where
  copy : Copy
  deadline : Nat
  deriving DecidableEq, Repr, Inhabited

/-- The Yard beside its objects (11). -/
structure Yard where
  /-- Frames in the device, by number; the next number. -/
  frames : PMap (Option Frame) := []
  nextId : Nat := 0
  /-- The pre-pipeline FIFO of each bay: frame numbers, oldest first. -/
  fifos : PMap (List Nat) := []
  /-- The 32,768 queues, the bounded FIFOs of ports and of packet-client tributaries, the residues. -/
  queues : PMap (List Copy) := []
  bounded : PMap (List Copy) := []
  tribBounded : PMap (List Copy) := []
  residues : PMap (List ResEntry) := []
  /-- Cells held by frames; Shared cells in all and by queue; the bounded pool. -/
  cellsUsed : Nat := 0
  sharedUsed : Nat := 0
  qShared : PMap Nat := []
  boundedUsed : Nat := 0
  /-- Uncorrectable errors seen by cell, with when (R306), and retired cells that wait for their last copy (R455). -/
  cellErr : PMap (Option Nat) := []
  retired : List Nat := []
  /-- The lack of a spare cell has been recorded (R455). -/
  noSpare : Bool := false
  /-- Decisions taken by the LFSR of each queue (R289). -/
  lfsr : PMap Nat := []
  /-- Residue expiries, for "in the last second": (queue, when). -/
  expired : List (Nat × Nat) := []
  /-- Pre-pipeline sheds: (bay × 8 + class, when). -/
  sheds : List (Nat × Nat) := []
  /-- Refusals at the completion reserve, for "refusals in the last second" (R285). -/
  reserve : List Nat := []
  /-- Waiting pools that stall their producers, with since when (R313). -/
  poolStall : PMap (Option Nat) := []
  /-- Units of the messages a pool still holds for its consumer, oldest message first (R311). -/
  poolHeld : PMap (List Nat) := []
  /-- Writes of the record store from SD0, of one unit each, that pool 6 has yet to take (R311, R415). -/
  storeWait : Nat := 0
  /-- UOP messages that pool 3 holds while a core waits, and the response that waits for pool 4 with its frame (R311, R313). -/
  uopIn : List UopReq := []
  uopOut : Option (UopReq × Bytes × Bytes) := none
  /-- Credits of policers (R334). -/
  polTc : PMap (Option Bucket) := []
  polTp : PMap (Option Bucket) := []
  deriving DecidableEq, Repr, Inhabited

/-- A value that grows with time: its scaled amount, when it was brought up to date, and how it changes from there. -/
structure Level where
  amount : Int
  last : Nat
  /-- 0 held, 1 rises, 2 rises to zero. -/
  mode : Nat
  deriving DecidableEq, Repr, Inhabited

/-- A change of a port's gate list or preemption settings that is pending (R331): T and T' in network 2^-16 ns. -/
structure GateChange where
  req : Nat
  eff : Nat
  deriving DecidableEq, Repr, Inhabited

/-- Egress scheduling beside its objects (12). -/
structure Egress where
  /-- Express and preemptable frames on the medium of each port; frames on the packet-client tributaries. -/
  express : PMap (Option Tx) := []
  preempt : PMap (Option Tx) := []
  tribTx : PMap (Option Tx) := []
  /-- The last frame that started on a port was a control frame (R316). -/
  lastControl : PMap Bool := []
  /-- The MAC control frame that waits for port p (R337): classes that it names, as bits. -/
  ctl : PMap (Option Nat) := []
  /-- Port shaper tokens, in 1/(8000 × 65536) byte. -/
  shaper : PMap (Option Level) := []
  /-- Deficit round robin among the classes of a port (or of a packet-client tributary, numbered 256 + key): active classes in
  order; visited marks and deficits by 8 × that + c. -/
  clsList : PMap (List Nat) := []
  clsVisited : PMap Bool := []
  clsDeficit : PMap Int := []
  /-- Among sub-queues of a class: active sub-queues by p × 8 + c, visited marks by q. -/
  subList : PMap (List Nat) := []
  subVisited : PMap Bool := []
  /-- Virtual time of a class in 2^-16 byte (R323). -/
  vtime : PMap Nat := []
  /-- Credit of a class in 1/(8000 × 65536) byte (R324). -/
  cbs : PMap (Option Level) := []
  /-- Pause received: until when and since when (device time), by p × 8 + c. -/
  pauseUntil : PMap (Option Nat) := []
  pauseSince : PMap (Option Nat) := []
  /-- Since when the class has been paused with frames queued (R338). -/
  wdSince : PMap (Option Nat) := []
  wdDropped : PMap Nat := []
  /-- Classes in XOFF towards the partner (R337). -/
  xoff : PMap Bool := []
  /-- Verification attempts made (R325). -/
  attempts : PMap Nat := []
  /-- Pending gate and preemption changes by port (R331). -/
  change : PMap (Option GateChange) := []
  /-- Reassembly errors of each port, for "in the last second": (port, when). -/
  reasm : List (Nat × Nat) := []
  deriving DecidableEq, Repr, Inhabited

/-- Monitors, trace and export beside their objects (15). -/
structure Mon where
  /-- Bytes and frames of the bandwidth window of p × 2 + d. -/
  bwBytes : PMap Nat := []
  bwFrames : PMap Nat := []
  /-- Window length in force (µs) at p × 2 + d; one not listed is 1,000. -/
  bwLen : PMap Nat := []
  /-- Snapshot instants set and not yet taken: (group, network or device time), and latched values that wait for the swap:
  (group, instant, words). -/
  snapSet : List (Nat × Nat) := []
  snapLatched : List (Nat × Nat × List Nat) := []
  /-- The last periodic instant taken, or when the period was set. -/
  snapLast : Nat := 0
  /-- Monitors whose present interval has seen valid time, and no step, since it began. -/
  monGood : List Nat := []
  /-- Samples on their way to a monitor: (monitor, date, value); samples dated after the end of an interval that has not closed: (monitor,
  value); by monitor, the end of the interval that closed last, or the start of the present one (R385). -/
  feed : List (Nat × Nat × Nat) := []
  next : List (Nat × Nat) := []
  ended : PMap Nat := []
  /-- Trace ring: records by address; how many it holds; when a bay last tagged; capture segments lost. -/
  trace : PMap (Option Nat) := []
  traceN : Nat := 0
  traceLost : Bool := false
  /-- The full ring has been reported since it was last emptied. -/
  traceFull : Bool := false
  lastTag : PMap (Option Nat) := []
  /-- Sample rings by Sill: address + Sill × 2^25. -/
  samples : PMap (Option Nat) := []
  sampleN : PMap Nat := []
  sampleLost : PMap Bool := []
  sampleFull : PMap Bool := []
  /-- Postcards: sequence and rate. -/
  pcSeq : Nat := 0
  pcRate : Option Bucket := none
  /-- Export records buffered by Sill: the record's number, whether it is wide, its octets; records ever buffered; data records
  sent; messages sent in the second of the always-on count that is named. -/
  exp : PMap (List (Nat × Bool × Bytes)) := []
  expIn : PMap Nat := []
  expSeq : PMap Nat := []
  expRate : PMap (Nat × Nat) := []
  deriving DecidableEq, Repr, Inhabited

/-- A port beside its objects (03). -/
structure PortSt where
  sends : Signal := .off
  fecLock : Bool := false
  deskew : Bool := false
  remote : Bool := false
  localF : Bool := false
  /-- A frame has reached the jabber length: the receiver discards up to a frame start that follows an idle block (R85). -/
  jabber : Bool := false
  /-- Dampening: the figure in thousandths when it last changed, and the evaluations since (R84). -/
  figBase : Nat := 0
  figTicks : Nat := 0
  /-- When the port last left state 3, and when it was suppressed (always-on count). -/
  downAt : Nat := 0
  suppAt : Nat := 0
  deriving DecidableEq, Repr, Inhabited

/-- The settings that the effective values of a lane follow from (R71, R73): preset, pre-cursor, post-cursor, swing and termination
offsets. The defaults are those of R75 and R76. -/
structure LaneCfg where
  preset : Nat := 2
  pre : Int := 0
  post : Int := 0
  swing : Int := 0
  term : Int := 0
  deriving DecidableEq, Repr, Inhabited

/-- A lane beside its objects. -/
structure LaneSt where
  los : Bool := false
  /-- It has adapted since power-up (R72). -/
  adapted : Bool := false
  /-- Its port has been declared up since the lane last started (R72). -/
  wasUp : Bool := false
  /-- Error symbols to inject when the generator is turned on (R78). -/
  inject : Nat := 0
  /-- The settings in force while the lane is powered down (R76). -/
  cfg : LaneCfg := {}
  /-- Calibrated quantities whose generic value is used (R74): 0 termination, 1 to 5 pre-cursors, 6 to 10 post-cursors, 11 swing,
  12 and 13 receive and transmit time-stamp latency. -/
  generic : List Nat := []
  deriving DecidableEq, Repr, Inhabited

/-- A write that the bays apply in order (R184): an object or table entry, and what it held before. -/
structure BayWrite where
  tbl : Bool
  key : Nat
  old : Option Nat
  deriving DecidableEq, Repr, Inhabited

/-- A learn or move request in the manager's queue (R200, R202): the learning key and the location reached. -/
structure LearnReq where
  move : Bool
  port : Nat
  key : Nat
  /-- RESULT [127:104]: kind and identifier. -/
  loc : Nat
  deriving DecidableEq, Repr, Inhabited

/-- The bays and the table manager beside their objects and tables (07, 08). -/
structure Bays where
  /-- Writes that some bay has not applied, oldest first; how many older ones every bay has applied; how many each bay has. -/
  log : List BayWrite := []
  base : Nat := 0
  pos : PMap Nat := []
  /-- Prism entries disabled in a bay: bay × 16,384 + address. -/
  prismOff : List Nat := []
  /-- Bays whose trie is being rebuilt, and since when. -/
  rebuild : PMap (Option Nat) := []
  /-- Requests that each bay has sent: (key, when), newest first (R202). -/
  seen : PMap (List (Nat × Nat)) := []
  learnQ : List LearnReq := []
  learnRate : Option Bucket := none
  /-- Requests dropped in the last second: (0 queue or 1 rate, when). -/
  learnDrops : List (Nat × Nat) := []
  /-- Bays whose pipeline stalled: their ports stay down until the next data-plane reset (R448). -/
  down : List Nat := []
  /-- Learning keys whose hit mark is set in some bay (R204), and moves of a key in the current second (R201). -/
  marks : List Nat := []
  moves : PMap Nat := []
  deriving DecidableEq, Repr, Inhabited

/-- A latency sample on its way to the flow's home Sill (R237): the frame's number, Sill, key and latency in ns. -/
structure FlowSample where
  frame : Nat
  sill : Nat
  kdir : Nat
  key : Nat
  prof : Nat
  lat : Nat
  deriving DecidableEq, Repr, Inhabited

/-- A record in a DRAM slot (R213): its 120 octets as a number, and whether its descriptor's EXPORT bit was set (R238). -/
structure FlowRec where
  data : Nat
  exp : Bool
  deriving DecidableEq, Repr, Inhabited

/-- A cached record (R215): its table address, its current values, its deltas, last lookup (2^-16 ns), meter credit in 1/K byte
(R235), and the lookups whose frames have not committed. -/
structure CacheEnt where
  addr : Nat := 0
  wide : Bool := false
  data : Nat := 0
  pk : Nat := 0
  oct : Nat := 0
  err : Nat := 0
  hist : List Nat := []
  dirty : Bool := false
  last : Nat := 0
  credit : Int := 0
  pins : Nat := 0
  deriving DecidableEq, Repr, Inhabited

/-- A key whose record is being fetched, or inserted by a task (R220, R224); profile, descriptor, DIR and TCP flags of the frame
that missed first. -/
structure Fetch where
  key : Nat
  kdir : Nat
  prof : Nat := 0
  desc : Nat := 0
  dir : Nat := 0
  tcp : Nat := 0
  task : Bool := false
  deriving DecidableEq, Repr, Inhabited

/-- A park descriptor (R220): frames of a key that wait in a bay, oldest first. -/
structure ParkDesc where
  bay : Nat
  key : Nat
  kdir : Nat
  frames : List Nat
  deriving DecidableEq, Repr, Inhabited

/-- Flow state beside its objects (09). -/
structure FlowSt where
  samples : List FlowSample := []
  /-- The DRAM tables, by table address (R214). -/
  slots : PMap (Option FlowRec) := []
  /-- The flow caches, by Sill × 2^21 + half × 2^20 + bucket × 4 + way (R215). -/
  cache : PMap (Option CacheEnt) := []
  /-- Fetches and insertions in progress, and park descriptors, by Sill. -/
  fetches : PMap (List Fetch) := []
  waits : PMap (List ParkDesc) := []
  /-- Rotating counters of descriptors (R226). -/
  lbNext : PMap Nat := []
  /-- Ports in use and cursors of the pools (R227); pools whose free map is being rebuilt (R451). -/
  poolPorts : PMap (List Nat) := []
  poolCursor : PMap Nat := []
  scanning : List Nat := []
  /-- Unicast frames counted toward a latency sample, by profile (R237). -/
  sampleCount : PMap Nat := []
  /-- The longest wait for the share since 3804h was last recorded, by Sill (R241). -/
  shareWait : PMap Nat := []
  /-- Words of the flow cache as microcode stored them, by Sill × 2^24 + word (R250). -/
  words : PMap (Option Nat) := []
  deriving DecidableEq, Repr, Inhabited

/-- A request that waits at a DRAM channel (R346). -/
structure DramReq where
  burst : Nat
  bank : Nat
  row : Nat
  write : Bool
  at0 : Nat
  /-- Of the other class (R342). -/
  other : Bool := false
  /-- Of the scrubber, whose command says what it reads (R352). -/
  mute : Bool := false
  deriving DecidableEq, Repr, Inhabited

/-- The DRAM channels beside their objects (13, 18). -/
structure Dram where
  reqs : PMap (List DramReq) := []
  /-- The place in the pattern of five slots, by channel (R342). -/
  slot : PMap Nat := []
  /-- Lanes whose tracking waits for an idle slot of the other class, by channel (R350). -/
  track : PMap Nat := []
  /-- When slots of the bus were used in the last second, by channel (R356). -/
  used : PMap (List Nat) := []
  /-- Channels that uncorrectable bursts are about to retire (R353). -/
  due : List Nat := []
  /-- Bursts whose check code fails, by channel × 2^24 + burst (R456). -/
  bad : List Nat := []
  /-- Open row by channel × 16 + bank; the bank served last. -/
  openRow : PMap (Option Nat) := []
  lastBank : PMap Nat := []
  /-- Refreshes owed, by channel × 16 + bank (R348). -/
  owed : PMap Int := []
  /-- Corrected and uncorrectable bursts of the last hour. -/
  ce : PMap (List Nat) := []
  ue : PMap (List Nat) := []
  /-- Net movement of read and write delay, by channel × 2 + lane (R350). -/
  drift : PMap (Int × Int) := []
  /-- Orders of the regions in force, where they differ from the default (R345). -/
  order : PMap (Option Nat) := []
  /-- Segments being filled: Sill × 1536 + G (R354). -/
  fill : List Nat := []
  /-- The burst read last by the scrubber; rows with corrected bursts: the last pass and how many in a row (R456). -/
  scrub : PMap (Option Nat) := []
  rowBad : PMap (Nat × Nat) := []
  /-- Training seeds whose OTP mirrors both failed, as 3 × lane + quantity (R349). -/
  generic : List Nat := []
  /-- Rows served from a spare, by channel × 2^20 + bank × 32768 + row; the record store's fullness has been recorded. -/
  spared : List Nat := []
  full : Bool := false
  deriving DecidableEq, Repr, Inhabited

/-- What the routine of a ROM task works on (R264). -/
inductive Work where
  /-- A task of a patch, or of a kind whose arguments the spec does not lay out. -/
  | none
  /-- Insertion of a key: profile, descriptor, DIR of the first frame, its TCP flags (R229). -/
  | insert (key kdir prof desc dir tcp : Nat)
  /-- A table operation on 3800h.01: window, operation, plane, address or cursor, entry (R239). -/
  | table (k op plane addr entry : Nat)
  /-- An aging segment (R238). -/
  | aging (seg : Nat)
  /-- The deletion of an aged record (R238). -/
  | delete (key kdir : Nat)
  /-- A record on its way to export (R394). -/
  | handOff (wide : Bool) (data : Bytes)
  /-- Pool work for the other Sill (R227): allocation from pool `n` for the other Sill's task `seq`, or the return of a port. -/
  | port (n : Nat) (back : Option Nat) (seq : Nat)
  deriving DecidableEq, Repr, Inhabited

/-- The resume token of a preempted task (R271): address, r24 to r31, and its place among the preempted. -/
structure Token where
  pc : Nat
  regs : List Nat
  place : Nat
  deriving DecidableEq, Repr, Inhabited

/-- The port an insertion asks of the other Sill (R227): not asked, asked, answered. -/
inductive PortAsk where
  | no
  | sent
  | got (p : Option Nat)
  deriving DecidableEq, Repr, Inhabited

/-- A task of a Sill's dispatcher (R262, R263). -/
structure Task where
  seq : Nat := 0
  arr : Nat := 0
  kind : Nat := 0
  ctrl : Nat := 0
  domain : Nat := 0
  waitCtr : Nat := 0xFFFF
  doneCtr : Nat := 0xFFFF
  retry : Nat := 0
  args : List Nat := []
  work : Work := .none
  /-- 0 waits for dispatch, 1 runs, 2 waits for its retry time, 3 completion held. -/
  st : Nat := 0
  core : Nat := 0
  status : Nat := 0
  token : Option Token := none
  /-- A preempt has been posted for it (R271). -/
  asked : Bool := false
  /-- Result of a table operation: status, address, entry. -/
  res : Option (Nat × Nat × Nat) := none
  /-- When its retry time ends (R272). -/
  readyAt : Nat := 0
  /-- The port of an insertion, where the other Sill keeps the pool's map. -/
  port : PortAsk := .no
  /-- The record of an insertion stands in DRAM and waits for a cache place: whether it was created, and out of state (R229). -/
  placing : Option (Bool × Bool) := none
  /-- Where the walk of an aging segment goes on (R238, R267). -/
  walk : Nat := 0
  deriving DecidableEq, Repr, Inhabited

/-- A thread of a Joinery core (R244). -/
structure Thread where
  /-- As 3850h.01. -/
  st : Nat := 0
  /-- Sequence of its task. -/
  task : Nat := 0
  root : Bool := false
  parent : Nat := 0
  children : Nat := 0
  pc : Nat := 0
  regs : PMap Nat := []
  scratch : PMap Nat := []
  stack : List Nat := []
  h0 : Nat := 0xFFFFFFFF
  h1 : Nat := 0xFFFFFFFF
  /-- Microwords issued since the last checkpoint (R269). -/
  since : Nat := 0
  /-- Condition 11. -/
  failed : Bool := false
  abort : Bool := false
  quiesce : Bool := false
  preempt : Bool := false
  /-- When the oldest pending interrupt was posted. -/
  posted : Nat := 0
  /-- Parked by a quiesce (R255). -/
  parked : Bool := false
  /-- State before a halt. -/
  was : Nat := 0
  /-- Clamp it waits for, and since when. -/
  clamp : Option Nat := none
  since0 : Nat := 0
  /-- The clamp it waited for is its own now, and its word has not completed (R252, R259). -/
  granted : Bool := false
  deriving DecidableEq, Repr, Inhabited

/-- A clamp that is held (R259): owner n × 16 + t, holds, waiting threads. -/
structure Clamp where
  owner : Nat
  holds : Nat
  queue : List Nat := []
  deriving DecidableEq, Repr, Inhabited

/-- A channel (R261): complete messages, words of the head already received, the partial message and its sender, waiting
senders. -/
structure Chan where
  msgs : List (List Nat) := []
  taken : Nat := 0
  part : Option (Nat × List Nat) := none
  senders : List Nat := []
  deriving DecidableEq, Repr, Inhabited

/-- A patch that a Sill is taking (R255): its version and payload (R422; empty: no patch), and the tasks aborted so far. -/
structure Patch where
  version : Nat
  payload : Bytes
  aborted : Nat := 0
  deriving DecidableEq, Repr, Inhabited

/-- A command that a thread has passed to the fetch units (R250): the thread, its scratch as it stood, and the command's address. -/
structure FetchCmd where
  thread : Nat
  words : List Nat
  addr : Nat
  deriving DecidableEq, Repr, Inhabited

/-- The Joinery beside its objects (10). -/
structure Joinery where
  /-- Tasks of a Sill, in arrival order. -/
  tasks : PMap (List Task) := []
  nextSeq : Nat := 0
  preempted : Nat := 0
  /-- Threads by n × 16 + t. -/
  threads : PMap Thread := []
  clamps : PMap (Option Clamp) := []
  chans : PMap Chan := []
  /-- Dependence counters in use, by Sill × 16,384 + number. -/
  deps : PMap (Option Nat) := []
  /-- Shared memory by Sill × 2^20 + word. -/
  mem : PMap Nat := []
  /-- Patch RAM by Sill × 1024 + offset. -/
  patch : PMap Nat := []
  /-- Threads waiting to FORK, oldest first, by core; threads waiting to SPAWN by Sill. -/
  forks : PMap (List Nat) := []
  spawns : PMap (List Nat) := []
  /-- Cores to which nothing is dispatched because their island stalled (R279). -/
  off : List Nat := []
  /-- Since when a source has been stalled, by Sill × 8 + k (R267). -/
  stalled : PMap (Option Nat) := []
  /-- The patch being applied, by Sill (R255). -/
  apply : PMap (Option Patch) := []
  /-- The activated patch that SD1 takes next (R430). -/
  patchNext : Option Patch := none
  /-- Work of external sources that waits to be submitted, by Sill (R267). -/
  waiting : List (Nat × Task) := []
  /-- Requests to the other Sill, oldest first, by sending Sill, with whether pool 6 holds them (R267, R311). -/
  link : PMap (List (Work × Bool)) := []
  /-- Fetch-unit commands issued and not completed, by Sill, in issue order (R250). -/
  cmds : PMap (List FetchCmd) := []
  /-- The slot table in force of a core (none: the object's), the entry and time of its last issue, and the thread that each class issued last, by
  core × 8 + class, class 4 for threads with an interrupt pending (R256, R257). -/
  slotTab : PMap (Option Nat) := []
  cycle : PMap (Nat × Nat) := []
  turn : PMap (Option Nat) := []
  deriving DecidableEq, Repr, Inhabited

/-- Parity counts of a line (one per unit) or of a tributary (R141, R142). -/
structure Parity where
  /-- Violations by unit in the degrade window, its frames, and whether it holds a frame that does not count. -/
  win : List Nat := []
  winFrames : Nat := 0
  winBad : Bool := false
  /-- By unit: consecutive windows above and not above the threshold, and SD. -/
  sd : List (Nat × Nat × Bool) := []
  /-- Violations by unit in the multiframe, its frames, and consecutive multiframes below 0.45. -/
  mf : List Nat := []
  mfFrames : Nat := 0
  excUnder : Nat := 0
  deriving DecidableEq, Repr, Inhabited

/-- Consecutive equal observations: the value and how often. -/
structure Seen where
  val : Nat := 0
  n : Nat := 0
  deriving DecidableEq, Repr, Inhabited

/-- The receive side of a slotted line (R112, R125, R138). -/
structure RxLine where
  /-- The multiframe number of the frame found while searching. -/
  cand : Option Nat := none
  /-- Frames in a row whose unit 0 block was missing; whose multiframe number was not the expected one; with consecutive ones. -/
  miss : Nat := 0
  lomBad : Nat := 0
  lomOk : Nat := 0
  mfn : Nat := 0
  /-- Page and ANN of the last aligned frames, newest first. -/
  hist : List (Nat × Bool) := []
  /-- BIP8 of each unit over the last frame. -/
  bips : List Nat := []
  rdi : Seen := {}
  aps : Seen := {}
  parity : Parity := {}
  /-- The last aligned frame had a parity violation. -/
  errored : Bool := false
  deriving DecidableEq, Repr, Inhabited

/-- A receive tributary (R113 to R117, R138). -/
structure RxTrib where
  /-- The entries and the mode it is demapped under. -/
  slots : List Nat := []
  mode : Nat := 0
  bip : Option Nat := none
  label : Option Nat := none
  ais : Seen := {}
  uneq : Seen := {}
  rdi : Seen := {}
  aps : Seen := {}
  parity : Parity := {}
  /-- PRBS31 state of the test checker, and its error-free blocks. -/
  prbs : Option Nat := none
  good : Nat := 0
  /-- When its last frame ended (device time), and the data blocks it brought. -/
  at0 : Nat := 0
  count : Nat := 0
  deriving DecidableEq, Repr, Inhabited

/-- An output tributary (R120, R121, R128). -/
structure TxTrib where
  /-- The input tributary it is established from, its size and its FIFO, oldest block first. -/
  src : Option Nat := none
  size : Nat := 0
  fifo : List Nat := []
  delay : Nat := 0
  prbs : Nat := 0x7FFFFFFF
  /-- Blocks of a packet frame still to be sent. -/
  blocks : List Nat := []
  deriving DecidableEq, Repr, Inhabited

/-- The transmit side of a slotted line: the next multiframe number, the BIP8 of each unit and the parity of each slot over the last
frame (all its blocks, and that of round 0), when that frame began (device time), frames begun since a page swap was accepted, whether
that swap is late, and when it was first put off (R114, R123, R129). -/
structure TxLine where
  mfn : Nat := 0
  bips : List Nat := []
  slotBips : List (Nat × Nat) := []
  at0 : Nat := 0
  since : Nat := 0
  late : Bool := false
  deferred : Option Nat := none
  /-- The client whose bounded frames put the swap off (R129). -/
  deferKey : Nat := 0
  deriving DecidableEq, Repr, Inhabited

/-- Counts of a performance bin (R145 to R147): ES, SES, UAS, the counters already reported, suspect. -/
structure PmBin where
  es : Nat := 0
  ses : Nat := 0
  uas : Nat := 0
  told : List Nat := []
  suspect : Bool := false
  /-- A second has been counted in it. -/
  used : Bool := false
  deriving DecidableEq, Repr, Inhabited

/-- A second as it was counted: 0 neither, 1 ES, 2 SES; and whether it fell in the present bins (15 minutes, 24 hours). -/
structure PmSec where
  cls : Nat
  now15 : Bool
  now24 : Bool
  deriving DecidableEq, Repr, Inhabited

/-- Performance monitoring of a line or a tributary. -/
structure PmSt where
  frames : Nat := 0
  errored : Nat := 0
  /-- SF has held in this second. -/
  sf : Bool := false
  /-- The last ten seconds, newest first. -/
  secs : List PmSec := []
  cur15 : PmBin := {}
  cur24 : PmBin := {}
  /-- Bins that have ended and not closed: the bin and its end. -/
  old15 : Option (PmBin × Nat) := none
  old24 : Option (PmBin × Nat) := none
  stopped : Bool := true
  deriving DecidableEq, Repr, Inhabited

/-- A protection group beside its objects (R150 to R154). -/
structure PgSt where
  /-- Requests by command and by pin (pin × 16 + code). -/
  cmd : List Nat := []
  pins : List Nat := []
  /-- Hold-off runs for SF, SD of working; the requests raised. -/
  hoSf : Bool := false
  hoSd : Bool := false
  sf : Bool := false
  sd : Bool := false
  /-- Wait-to-restore since (always-on count); do not revert. -/
  wtr : Option Nat := none
  dnr : Bool := false
  /-- The accepted protection bytes, APS1 × 256 + APS2. -/
  far : Option Nat := none
  /-- The request that decides the selector, and when the selector last moved (device time). -/
  dec : Nat := 0
  selAt : Nat := 0
  /-- The selector stays on protect without a request, until working is free or a far request ends (R152). -/
  held : Bool := false
  /-- The accepted far request has been set aside by a manual switch to working (R156). -/
  farDone : Bool := false
  deriving DecidableEq, Repr, Inhabited

/-- Slotted transport and its maintenance beside their objects (05, 06). -/
structure Plumb where
  rx : PMap RxLine := []
  tx : PMap TxLine := []
  rxTribs : PMap RxTrib := []
  txTribs : PMap TxTrib := []
  /-- Output tributaries refused at the last swap, with the reason (R119). -/
  refused : PMap (Option Nat) := []
  /-- Frames of bonded members that wait for the other members': (port, multiframe number, device time, blocks). -/
  bonded : PMap (List (Nat × Nat × Nat × List Nat)) := []
  /-- Frames given to the mapper of each packet-client tributary, not yet placed in blocks. -/
  mapFrames : PMap (List Bytes) := []
  /-- Data channels (R134, R135): bytes from the line for the overhead port, bytes from it for the line, HDLC bytes of the
  management plane. -/
  dccIn : PMap Bytes := []
  dccOut : PMap Bytes := []
  dccMgmt : PMap Bytes := []
  /-- Connection-page swaps done under the commit in progress; one of them was late. -/
  swapped : Nat := 0
  lateTold : Bool := false
  /-- Commits whose pages have all swapped and that are not yet visible: epoch, trigger, ports swapped (R123). -/
  swaps : List (Nat × Nat × Nat) := []
  /-- Performance monitoring of lines, and of tributaries at 256 + key. -/
  pm : PMap PmSt := []
  groups : PMap PgSt := []
  deriving DecidableEq, Repr, Inhabited

/-- A pending step of network time (R98). -/
structure Step where
  plane : Nat
  /-- Relative (two's complement in 2^-16 ns) or absolute. -/
  absolute : Bool
  amount : Nat
  /-- The change instant and the instant of application, in network 2^-16 ns. -/
  instant : Nat
  apply : Nat
  deriving DecidableEq, Repr, Inhabited

/-- The time base beside its objects and clock (04). -/
structure TimeSt where
  /-- Integrator and correction in force in 2^-32 ppb (R95). -/
  integ : Int := 0
  freq : Int := 0
  consec : Nat := 0
  /-- Consecutive small offsets (R94). -/
  small : Nat := 0
  /-- Spans spent in state 2: (length in 2^-16 ns, correction), newest first (R97), and when the present one began. -/
  spans : List (Nat × Int) := []
  spanFrom : Nat := 0
  step : Option Step := none
  /-- Reflections not yet delivered, oldest first, by port; RSEQ by port. -/
  refl : PMap (List Bytes) := []
  rseq : PMap Nat := []
  ppsOut : Bool := false
  /-- When PPS_OUT last rose (always-on count). -/
  ppsRise : Nat := 0
  /-- When the last PPS_IN edge was confirmed (always-on count). -/
  ppsLast : Nat := 0
  deriving DecidableEq, Repr, Inhabited

/-- What a boot record holds (R425). -/
structure BootRec where
  seq : Nat := 0
  fwActive : Nat := 0
  fwTry : Nat := 0
  fwTryLeft : Nat := 0
  patchActive : Nat := 0xFF
  patchTry : Nat := 0
  deriving DecidableEq, Repr, Inhabited

/-- Security and firmware beside its objects (17). -/
structure Sec where
  /-- Boot flash (R424): the images of slots (kind − 1) × 2 + slot, and the two copies of the boot record. -/
  flash : PMap (Option Bytes) := []
  recA : Bytes := []
  recB : Bytes := []
  /-- The copy that is being written: A, or B (R425). -/
  bootWriting : Option Bool := none
  /-- Both cores hold in the boot ROM (R427); core 0 has made its power-up start (R426); an activated patch is being applied (R430). -/
  romHold : Bool := false
  tried : Bool := false
  patching : Bool := false
  /-- Fuses blown in service (R419): revoked slots, and raised counters. -/
  revoked : List Nat := []
  fuses : PMap Nat := []
  /-- The security unit does not use the unique device secret (R418). -/
  secretBad : Bool := false
  /-- Chunks of the staged image written so far (R428, R429), and the image as verification began. -/
  chunks : PMap (Option Bytes) := []
  staged : Option Bytes := none
  /-- The core whose memory holds it. -/
  holder : Nat := 0
  /-- When the owner last wrote an update object (always-on count). -/
  updLast : Nat := 0
  /-- The image of the update, (kind − 1) × 2 + slot, and the slot it replaced. -/
  updImage : Nat := 0
  updOld : Nat := 0
  /-- When the trial ends (always-on count). -/
  trialEnd : Nat := 0
  /-- Cores still to restart under the update, and whether the first of them is restarting (R430, R431). -/
  updSeq : List Nat := []
  updRun : Bool := false
  /-- By core: the slot chosen at its start, the digest of its running firmware, its unplanned restarts, whether it has started
  since power-up. -/
  bootSel : PMap (Option Nat) := []
  running : PMap Nat := []
  restarts : PMap (List Nat) := []
  started : PMap Nat := []
  /-- Attestation (R440): planes that wait for signing with their nonces, first come first; the body being signed; reports. -/
  attQueue : List (Nat × Nat) := []
  attNonce : Nat := 0
  attBody : Bytes := []
  reports : PMap (Option Bytes) := []
  /-- Debug (R441, R442): token chunks by plane × 117 + k; the submission being verified (plane, challenge it must carry); when the
  unlock ends (device time); debug has been unlocked since power-up. -/
  token : PMap (Option Bytes) := []
  verifying : Option (Nat × Nat) := none
  dbgEnd : Option Nat := none
  dbgEver : Bool := false
  /-- A reset ended an unlock, and record 8002h is yet to be raised (R442). -/
  dbgCut : Bool := false
  deriving DecidableEq, Repr, Inhabited

/-- A filtered input (R157 to R159); levels are true when asserted. -/
structure InSt where
  raw : Bool := false
  /-- The level that the dwell filter has confirmed. -/
  filt : Bool := false
  /-- The last raw edge, in network time and on the always-on count; raw changes of the last second; the raw edge from which the
  confirmed level is active, or when the input was declared stuck (always-on count). -/
  edge : Nat := 0
  edgeRun : Nat := 0
  changes : List Nat := []
  since : Nat := 0
  /-- This assertion has started a warm restart (R453). -/
  fired : Bool := false
  deriving DecidableEq, Repr, Inhabited

/-- Resets, supplies and sensors beside their objects (18, 19). -/
structure Power where
  /-- PORST_N is asserted. -/
  porst : Bool := true
  /-- When the last reset began (always-on count). -/
  resetAt : Nat := 0
  /-- Commanded resets that have not begun (R444): kind and plane, oldest first. -/
  cmds : List (Nat × Nat) := []
  /-- A warm restart is in progress. -/
  warm : Bool := false
  /-- Trips in progress (R464, R468). -/
  supply : Bool := false
  thermal : Bool := false
  /-- Sequencing violations not yet recorded: rail × 16 + rail not yet in range. -/
  lateRails : List Nat := []
  /-- Islands whose clock was absent at the last start-up (R16). -/
  noClock : List Nat := []
  /-- By stalled island: the sending islands of the crossings into it that are declared stalled (R15). -/
  stalledBy : PMap (List Nat) := []
  /-- By rail: consecutive samples outside its range (for a rail of group 1, 1 while the last one was), and beyond 8%. By sensor: consecutive
  samples at shutdown. By rail: its power over the last millisecond, as (always-on count, µW), newest first. -/
  railOut : PMap Nat := []
  railFar : PMap Nat := []
  hot : PMap Nat := []
  watts : PMap (List (Nat × Nat)) := []
  /-- Sensors whose generic offset is used (R467). -/
  generic : List Nat := []
  /-- THERM_N is asserted; an Alert Response read has released SMB_ALERT_N from FAULT_N, from THERM_N (R471). -/
  therm : Bool := false
  ackFault : Bool := false
  ackTherm : Bool := false
  /-- Life estimate beyond the whole ppm, in 2^-64 ppm; 7046h has been recorded; seconds in each bin of 7050h.02. -/
  lifeFrac : Nat := 0
  lifeTold : Bool := false
  binSecs : PMap Nat := []
  /-- Turning point of the hottest sensor's swing and the direction it is followed in: none before the first sample. -/
  swing : Option (Int × Bool) := none
  deriving DecidableEq, Repr, Inhabited

/-- Everything but the clock and the command queue. -/
structure Dev where
  /-- Lit values of the dictionary's objects, by key. -/
  objs : PMap Nat := []
  /-- Lit entries of the tables, by table address key. -/
  tbls : PMap (Option Nat) := []
  dict : Dict := {}
  objWins : PMap ObjWin := []
  tblWins : PMap TblWin := []
  sess : PMap Sess := []
  /-- Rate buckets of UOP (R64): ports 0–255, channels 256–511, the device 512. -/
  uopRate : PMap (Option Bucket) := []
  /-- UOP messages dropped, for "in the last second": (key, when in device time, below 0 where that was before it restarted). -/
  uopDrops : List (Nat × Int) := []
  /-- Lists that wait for the flow table: 0 and 1 the batches of a function, 2 UOP. -/
  lists : PMap (Option ListWait) := []
  ev : Events := {}
  host : HostIf := {}
  yard : Yard := {}
  eg : Egress := {}
  ports : PMap PortSt := []
  lanes : PMap LaneSt := []
  time : TimeSt := {}
  plumb : Plumb := {}
  bays : Bays := {}
  flow : FlowSt := {}
  dram : Dram := {}
  joinery : Joinery := {}
  mon : Mon := {}
  sec : Sec := {}
  inputs : PMap InSt := []
  power : Power := {}
  /-- How many free values have been taken (the model's own counter, log entry 3). -/
  free : Nat := 0
  /-- What has left the device, oldest first. -/
  out : List Out := []
  deriving DecidableEq, Repr, Inhabited

/-- The state of the block: the commands that wait, the clock, the device. -/
structure State where
  pending : List Instr
  clk : Clock
  dev : Dev
  deriving DecidableEq, Repr

/-- The machine right after reset: the power-on reset with PORST_N held (R445). Every object reads its default, every table is
empty, no engine holds anything, no command waits. -/
def State.reset : State := { pending := [], clk := {}, dev := {} }

end Sys2Proof.Machine
end

