-- ==== Sys2Proof/WellFormed.lean ====
section
/-! DEFINITION. Which commands can reach the device: their operands name resources that exist (R4 to R6, the windows of R48 and R55,
and the numbers of the engines). A command outside these bounds is the one thing `exec` stops on. An object instance that a command writes through a
window need only fit its field of the key: one beyond the object's array is answered 0103h (R28). -/

namespace Sys2Proof

/-- A target names a window, a function or a page that exists. -/
def Target.wf : Target → Bool
  | .obj w key => decide (w < 8 ∧ key < 2 ^ 48)
  | .bar f offset => decide (f < 2 ∧ offset < 0x100000)
  | .page g word => decide (g < 16384 ∧ word < 512)
  | .half g h => decide (g < 16384 ∧ h < 1024)

/-- The operands of a command name resources that exist. -/
def Instr.wf : Instr → Bool
  | .read t => t.wf
  | .write t _ => t.wf
  | .readShadow w key => decide (w < 8 ∧ key < 2 ^ 48)
  | .commit w => decide (w < 8)
  | .discard w => decide (w < 8)
  | .peggedWrite w key _ fail => decide (w < 8 ∧ key < 2 ^ 48 ∧ fail.all (· < 3))
  | .areaSwap a part => decide (a < 36 ∧ part < 257)
  | .shadowCopyStart a => decide (a < 36)
  | .shadowCopyDone a => decide (a < 36)
  | .bankBreak w a => decide (w < 8 ∧ a < 256)
  | .pegScrubPass bad => decide (bad.all (· < 2 ^ 50))
  | .tblFind k ix sub _ _ => decide (k < 32 ∧ ix < 65536 ∧ sub < 256)
  | .tblInsert k ix sub _ addr _ => decide (k < 32 ∧ ix < 65536 ∧ sub < 256 ∧ addr < 2 ^ 32)
  | .tblDelete k ix sub _ addr _ => decide (k < 32 ∧ ix < 65536 ∧ sub < 256 ∧ addr < 2 ^ 32)
  | .tblUpdate k ix sub _ addr _ => decide (k < 32 ∧ ix < 65536 ∧ sub < 256 ∧ addr < 2 ^ 32)
  | .tblNext k ix sub _ cursor => decide (k < 32 ∧ ix < 65536 ∧ sub < 256 ∧ cursor < 2 ^ 32)
  | .windowWriteIgnored table w => decide (if table then w < 32 else w < 8)
  | .batchEnable f _ => decide (f < 2)
  | .batchErrorClear f => decide (f < 2)
  | .batchDescriptor f desc _ readErr _ => decide (f < 2 ∧ desc.length = 32 ∧ readErr < 4)
  | .uopRequest _ num _ => decide (num < 256)
  | .hdlcFrame c _ => decide (c < 256)
  | .sessionKeyWrite w k _ => decide (w < 8 ∧ k < 2 ^ 24)
  | .crossingStall i src => decide (i < 680 ∧ src < 680)
  | .islandRecover i => decide (i < 680)
  | .reconfigureDone p => decide (p < 256)
  | .laneSignalDetect l => decide (l < 1024)
  | .laneAdaptDone l ctle dfe snr => decide (l < 1024 ∧ ctle ≤ 40 ∧ dfe < 65536 ∧ snr < 2 ^ 32)
  | .losDeclare l => decide (l < 1024)
  | .losClear l => decide (l < 1024)
  | .cdrLockChange l _ => decide (l < 1024)
  | .fecLockChange p _ => decide (p < 256)
  | .deskewFault p _ => decide (p < 256)
  | .remoteFaultRx p _ => decide (p < 256)
  | .localFaultRx p _ => decide (p < 256)
  | .rxPpmMeasure p ofs => decide (p < 256 ∧ -32768 ≤ ofs ∧ ofs ≤ 32767)
  | .errInject w l n => decide (w < 8 ∧ l < 2 ^ 24 ∧ n < 65536)
  | .chkLockLoss l => decide (l < 1024)
  | .portAdmin w p _ => decide (w < 8 ∧ p < 2 ^ 24)
  | .upHoldExpiry p => decide (p < 256)
  | .downHoldoffExpiry p => decide (p < 256)
  | .dampTick p => decide (p < 256)
  | .dampDisable w p => decide (w < 8 ∧ p < 2 ^ 24)
  | .frameReceive p _ _ _ _ _ frag => decide (p < 256 ∧ frag < 3)
  | .refFail r cause => decide (r < 2 ∧ cause < 2)
  | .refGood r => decide (r < 2)
  | .refRevertExpiry => true
  | .offsetIn w o => decide (w < 8 ∧ o < 2 ^ 64)
  | .feedTimeout => true
  | .servoModeWrite w mode => decide (w < 8 ∧ mode < 256)
  | .stepDelta w d => decide (w < 8 ∧ d < 2 ^ 64)
  | .stepSet w t => decide (w < 8 ∧ t < 2 ^ 80)
  | .stepApply => true
  | .tsReflDeliver p => decide (p < 256)
  | .ppsOutEdge _ => true
  | .ppsInAbsent => true
  | .plumbFrameRx p _ => decide (p < 256)
  | .plumbFrameTx p => decide (p < 256)
  | .cmPageSwap p => decide (p < 256)
  | .rxMapWrite w sub e v => decide (w < 8 ∧ 1 ≤ sub ∧ sub ≤ 4 ∧ e < 2 ^ 24 ∧ v < 65536)
  | .pcFrameRx e _ _ => decide (e < 40960)
  | .ohpFrame n _ => decide (n < 8)
  | .berWindowEnd trib id => decide (if trib then id < 40960 else id < 256)
  | .pmSecond trib id => decide (if trib then id < 40960 else id < 256)
  | .pmBinClose trib id _ => decide (if trib then id < 40960 else id < 256)
  | .pgHoldoffExpiry g _ => decide (g < 1024)
  | .pgWtrExpiry g => decide (g < 1024)
  | .apsFopTimer g => decide (g < 1024)
  | .pgClear w g => decide (w < 8 ∧ g < 2 ^ 24)
  | .pgLockout w g => decide (w < 8 ∧ g < 2 ^ 24)
  | .pgForcedSwitch w g => decide (w < 8 ∧ g < 2 ^ 24)
  | .pgManualProtect w g => decide (w < 8 ∧ g < 2 ^ 24)
  | .pgManualWorking w g => decide (w < 8 ∧ g < 2 ^ 24)
  | .inputRawChange i _ => decide (i < 18)
  | .inputDwellExpiry i => decide (i < 18)
  | .inputChatterRelease i => decide (i < 18)
  | .inputStuck i => decide (i < 18)
  | .inputStuckRelease i => decide (i < 18)
  | .fifoEntry p _ _ => decide (p < 256)
  | .framePipeline _ _ => true
  | .prismScrubPass b bad => decide (b < 64 ∧ bad.all (· < 16384))
  | .bayTableApply b => decide (b < 64)
  | .bayCopyRepair b kind _ => decide (b < 64 ∧ kind < 11)
  | .lpmReadyWrite w _ => decide (w < 8)
  | .trieRebuildDone b => decide (b < 64)
  | .learnRequest => true
  | .moveRequest => true
  | .moveSecondEnd => true
  | .freezeExpiry _ => true
  | .learnAgingPass => true
  | .flowLookup _ _ => true
  | .flowFetchDone k _ _ => decide (k < 2)
  | .parkTimeout _ => true
  | .flowCommit _ => true
  | .flowSample _ => true
  | .flowAgingPass k => decide (k < 2)
  | .poolScanDone n => decide (n < 32)
  | .taskDispatch k => decide (k < 2)
  | .microwordIssue n t err entry late => decide (n < 32 ∧ t < 16 ∧ err < 3 ∧ entry < 64 ∧ late.all (· < 16))
  | .waitEnd n t => decide (n < 32 ∧ t < 16)
  | .dovetailRelease k _ => decide (k < 2)
  | .preemptPost k => decide (k < 2)
  | .taskRetryReady k => decide (k < 2)
  | .spawnTimeout n t => decide (n < 32 ∧ t < 16)
  | .deadlockDetect n => decide (n < 32)
  | .clampWaitLimit n t => decide (n < 32 ∧ t < 16)
  | .dbgHalt w n t => decide (w < 8 ∧ n < 2 ^ 20 ∧ t < 16)
  | .dbgResume w n t => decide (w < 8 ∧ n < 2 ^ 20 ∧ t < 16)
  | .dbgRegWrite w n t r v => decide (w < 8 ∧ n < 2 ^ 15 ∧ t < 16 ∧ r < 32 ∧ v < 2 ^ 64)
  | .dbgAbandon w n t => decide (w < 8 ∧ n < 2 ^ 20 ∧ t < 16)
  | .dbgAbort w n t => decide (w < 8 ∧ n < 2 ^ 20 ∧ t < 16)
  | .frameAdmit _ => true
  | .residueExpiry q => decide (q < 32768)
  | .flushQueue w q => decide (w < 8 ∧ q < 2 ^ 24)
  | .flushBounded w p => decide (w < 8 ∧ p < 2 ^ 24)
  | .cellRemap cell => decide (cell < 1572864)
  | .poolProducerResume k => decide (k < 16)
  | .transmitOpportunity p e err cell gran => decide (p < 256 ∧ e < 40960 ∧ err < 4 ∧ cell < 1572864 ∧ gran < 256)
  | .frameTxEnd p e => decide (p < 256 ∧ e < 40960)
  | .gateEvent p => decide (p < 256)
  | .gateChangeSwap p => decide (p < 256)
  | .verifyAttempt p => decide (p < 256)
  | .verifyResponse p => decide (p < 256)
  | .verifyTimeout p => decide (p < 256)
  | .policerWrite w sub i v => decide (w < 8 ∧ 1 ≤ sub ∧ sub ≤ 4 ∧ i < 2 ^ 24 ∧ v < 2 ^ 32)
  | .pauseRx p _ _ => decide (p < 256)
  | .pauseExpiry p c => decide (p < 256 ∧ c < 8)
  | .fcEval p c => decide (p < 256 ∧ c < 8)
  | .pfcRepeat p => decide (p < 256)
  | .fcWatchdogTrip p c => decide (p < 256 ∧ c < 8)
  | .fcWatchdogEnd p c => decide (p < 256 ∧ c < 8)
  | .dramRequest n lat err => decide (n < 48 ∧ lat < 2 ^ 32 ∧ err < 3)
  | .refreshTick n bank => decide (n < 48 ∧ bank < 16)
  | .dramTempRead n temp => decide (n < 48 ∧ -32768 ≤ temp ∧ temp ≤ 32767)
  | .driftTrack n lane rd wr rw ww => decide (n < 48 ∧ lane < 2 ∧ -1 ≤ rd ∧ rd ≤ 1 ∧ -1 ≤ wr ∧ wr ≤ 1 ∧ rw < 65536 ∧ ww < 65536)
  | .scrubBurst n burst err => decide (n < 48 ∧ burst < 16777216 ∧ err < 3)
  | .chRetire w n => decide (w < 8 ∧ n < 2 ^ 24)
  | .segmentFillDone k seg => decide (k < 2 ∧ seg < 1536)
  | .ringConfigWrite r reg _ => decide (r < 35 ∧ reg < 3)
  | .ringEnable r _ => decide (r < 35)
  | .ringDisable r => decide (r < 35)
  | .ringInterruptEnable r _ => decide (r < 35)
  | .ringErrorClear r => decide (r < 35)
  | .ringTailPoll r err => decide (r < 35 ∧ err < 4)
  | .puntDeliver r desc => decide (r < 16 ∧ desc.length = 64)
  | .injectTake r desc _ err => decide (r < 16 ∧ desc.length = 32 ∧ err < 4)
  | .injectFifoEnter r => decide (r < 16)
  | .ledgerRecord => true
  | .msixHoldoffExpiry i => decide (i < 128)
  | .pcieError f kind aer => decide (f < 2 ∧ kind < 2 ∧ aer < 2 ^ 32)
  | .barUnmappedAccess => true
  | .linkRetrain rate width => decide (1 ≤ rate ∧ rate ≤ 5 ∧ (width = 1 ∨ width = 2 ∨ width = 4 ∨ width = 8))
  | .hostAttach _ => true
  | .hostDetach => true
  | .hostHeartbeat => true
  | .hostWdogExpiry => true
  | .pcieLinkDown => true
  | .functionLevelReset f => decide (f < 2)
  | .busMasterDisable => true
  | .d3hotEntry => true
  | .perstAssert => true
  | .perstRelease rate width => decide (1 ≤ rate ∧ rate ≤ 5 ∧ (width = 1 ∨ width = 2 ∨ width = 4 ∨ width = 8))
  | .groupComposeWrite w i key => decide (w < 8 ∧ i < 2 ^ 24 ∧ key < 2 ^ 64)
  | .snapNow w g => decide (w < 8 ∧ g < 65536)
  | .snapInstant => true
  | .snapSwap => true
  | .bwWindowEnd p _ => decide (p < 256)
  | .monConfigWrite w sub m v => decide (w < 8 ∧ 1 ≤ sub ∧ sub ≤ 2 ∧ m < 2 ^ 24 ∧ v < 2 ^ 32)
  | .monSample m v => decide (m < 64 ∧ v < 2 ^ 32)
  | .monIntervalEnd m => decide (m < 64)
  | .traceClear w => decide (w < 8)
  | .uwordSample n t => decide (n < 32 ∧ t < 16)
  | .sampleClear w k => decide (w < 8 ∧ k < 2 ^ 24)
  | .exportFlushExpiry k => decide (k < 2)
  | .exportTemplateSend => true
  | .limiterSecond => true
  | .ledgerDiscardSummary => true
  | .ledgerRead w bad => decide (w < 8 ∧ bad.all (· < 131072))
  | .ledgerClear w v => decide (w < 8 ∧ v < 256)
  | .srcLatchClear w i v => decide (w < 8 ∧ i < 2 ^ 24 ∧ v < 256)
  | .operatingTimeTick => true
  | .updChunk w k _ => decide (w < 8 ∧ k < 2 ^ 24)
  | .updVerify w => decide (w < 8)
  | .updVerifyDone => true
  | .updActivate w => decide (w < 8)
  | .updConfirm w _ => decide (w < 8)
  | .updAbort w => decide (w < 8)
  | .updTrialExpiry => true
  | .coreBoot c => decide (c < 2)
  | .coreInService c => decide (c < 2)
  | .coreWdogExpiry c => decide (c < 2)
  | .coreRestartCmd w c => decide (w < 8 ∧ c < 2 ^ 24)
  | .zeroize w => decide (w < 8)
  | .keyLock w => decide (w < 8)
  | .userExtend w _ => decide (w < 8)
  | .attRequest w pl _ => decide (w < 8 ∧ pl < 2 ^ 24)
  | .attSignDone pl _ => decide (pl < 2)
  | .dbgSubmit w pl => decide (w < 8 ∧ pl < 2 ^ 24)
  | .dbgVerifyDone => true
  | .dbgLock w pl => decide (w < 8 ∧ pl < 2 ^ 24)
  | .dbgUnlockExpiry => true
  | .porstAssert => true
  | .powerUp slots pegs otp cells dram recs rails noClock => decide (noClock.all (· < 680) ∧ slots.all (· < 131080) ∧ pegs.all (· < 2 ^ 50) ∧ otp.all (fun x => decide (x < 28800 ∨ (131072 ≤ x ∧ x < 131648))) ∧ cells.all (· < 1572864) ∧ dram.all (· < 384) ∧ recs.all (· < 2048) ∧ rails.all (fun x => decide (x / 16 < 13 ∧ x % 16 < 13)))
  | .warmRestartCmd w => decide (w < 8)
  | .dpResetCmd w => decide (w < 8)
  | .deviceResetCmd w => decide (w < 8)
  | .dataPlaneReset => true
  | .dpReady dram => decide (dram.all (· < 384))
  | .warmRestart => true
  | .deviceReset slots pegs otp cells dram recs noClock => decide (noClock.all (· < 680) ∧ slots.all (· < 131080) ∧ pegs.all (· < 2 ^ 50) ∧ otp.all (fun x => decide (x < 28800 ∨ (131072 ≤ x ∧ x < 131648))) ∧ cells.all (· < 1572864) ∧ dram.all (· < 384) ∧ recs.all (· < 2048))
  | .railSample k mv ma => decide (k < 13 ∧ mv < 65536 ∧ ma < 2 ^ 32)
  | .sensorSample k raw => decide (k < 16 ∧ -(2 ^ 31) ≤ raw ∧ raw < 2 ^ 31)
  | .thermDeassert => true
  | .powerWarnExceed => true
  | .lifeTick => true
  | .smbHottestSensor => true
  | .smbSensor k => decide (k < 16)
  | .smbRailVoltage k => decide (k < 13)
  | .smbRailCurrent k => decide (k < 13)
  | .smbTotalPower => true
  | .smbStatus => true
  | .smbIdentity => true
  | .smbAlertResponse => true
  | .fatalFirmwareFault c => decide (c < 2)
  | .tableOpSubmitTimeout k => decide (k < 35)
  | .chkLockAcquire l => decide (l < 1024)

end Sys2Proof
end

