-- ==== Sys2Proof/Machine/Ops.lean ====
section
/-! DEFINITION. The named operations every chapter uses: reading and writing objects, counters (R377), time (R87), token buckets,
message pools (R312), raising events (R400 to R402, R478), rings and interrupts (R360, R361, R368), free values. -/

namespace Sys2Proof.Machine

/-- An effect of the device: it reads the clock and changes the device. -/
abbrev M := ReaderT Clock (StateM Dev)

/-! ### Objects -/

/-- The lit value of an object instance. -/
def Dev.o (d : Dev) (ix sub : Nat) (i : Nat := 0) : Nat := mget objDflt d.objs (okey ix sub i)

/-- The lit value of a two's complement object of `w` bits. -/
def Dev.oS (d : Dev) (w ix sub : Nat) (i : Nat := 0) : Int := toS w (d.o ix sub i)

/-- The lit value of a BOOL object. -/
def Dev.oB (d : Dev) (ix sub : Nat) (i : Nat := 0) : Bool := d.o ix sub i == 1

/-- Write the lit value of an object instance. -/
def Dev.setO (d : Dev) (ix sub i v : Nat) : Dev := { d with objs := mset objDflt d.objs (okey ix sub i) v }

/-- Read an object. -/
def getO (ix sub : Nat) (i : Nat := 0) : M Nat := do return (← get).o ix sub i

/-- Read a BOOL object. -/
def getB (ix sub : Nat) (i : Nat := 0) : M Bool := do return (← get).oB ix sub i

/-- Write an object. -/
def setO (ix sub i v : Nat) : M Unit := modify fun d => d.setO ix sub i v

/-- What a counter of `len` octets reads after `n` more: a U64 wraps, a narrower one saturates (R377). -/
def countUp (len x n : Nat) : Nat := if len = 8 then (x + n) % 2 ^ 64 else min (2 ^ (8 * len) - 1) (x + n)

/-- Add to a counter object. -/
def Dev.addO (d : Dev) (ix sub i n : Nat) : Dev :=
  d.setO ix sub i (countUp (((findRow ix sub).map (fun r => r.ty.len)).getD 8) (d.o ix sub i) n)

/-- Add to a counter. -/
def addO (ix sub i n : Nat) : M Unit := modify fun d => d.addO ix sub i n

/-- Increment a counter. -/
def incO (ix sub : Nat) (i : Nat := 0) : M Unit := addO ix sub i 1

/-- Raise a peak to at least `v`. -/
def peakO (ix sub i v : Nat) : M Unit := do
  let x ← getO ix sub i
  if x < v then setO ix sub i v

/-- Lower a minimum to at most `v`. -/
def minO (ix sub i v : Nat) : M Unit := do
  let x ← getO ix sub i
  if v < x then setO ix sub i v

/-- A free value (log entry 3). -/
def fresh : M Nat := do
  let d ← get
  set { d with free := d.free + 1 }
  return Config.freeValue d.free

/-- Send something out of the device. -/
def emit (x : Out) : M Unit := modify fun d => { d with out := d.out ++ [x] }

/-- A function whose island has stalled, or had no clock at start-up, stops (R15, R16). -/
def whileRunning (i : Nat) (f : M Unit) : M Unit := do
  if (← getO 0x7010 1 i) < 3 then f

/-- A write served by an island answers 0701h while that island is stalled (R15; DESIGN CHOICE, log entry 51). -/
def whileServed (i : Nat) (f : M Nat) : M Nat := do
  if (← getO 0x7010 1 i) < 3 then f else return 0x701

/-! ### Time -/

/-- Units of 2^-16 ns in one nanosecond, microsecond, millisecond, second. -/
def uNs : Nat := 65536
def uUs : Nat := 65536 * 1000
def uMs : Nat := 65536 * 1000000
def uS : Nat := 65536 * 1000000000

/-- Network time as a count of 2^-16 ns. -/
def Clock.net (c : Clock) : Nat := (c.secs * 1000000000 + c.ns) * 65536 + c.frac

/-- The clock with its network time set to a count of 2^-16 ns (48-bit seconds). -/
def Clock.withNet (c : Clock) (t : Nat) : Clock :=
  { c with secs := t / uS % 2 ^ 48, ns := t / 65536 % 1000000000, frac := t % 65536 }

/-- A TIME80 value of a count of 2^-16 ns. -/
def toT80 (t : Nat) : Nat := (t / uS % 2 ^ 48) <<< 32 + t / 65536 % 1000000000

/-- The count of 2^-16 ns of a TIME80 value. -/
def ofT80 (v : Nat) : Nat := ((v >>> 32) * 1000000000 + v % 2 ^ 32) * 65536

/-- Network time as a TIME80 value. -/
def Clock.t80 (c : Clock) : Nat := c.secs <<< 32 + c.ns

/-- A core that has handed over restarts (R432, R433). -/
def Dev.handedOver (d : Dev) (c : Nat) : Dev := if d.o 0x1460 1 c = 3 then d.setO 0x1460 1 c 4 else d

/-- What the passing of time does by itself: PPS_OUT falls at the end of its width (R105), the writes of a Ledger slot and of a boot record
end (R411, R425), and a core that has handed over restarts. -/
def Dev.elapsed (d : Dev) (run : Nat) : Dev :=
  { (d.handedOver 0).handedOver 1 with
    time.ppsOut := d.time.ppsOut && decide (run < d.time.ppsRise + d.o 0x1840 3 * uUs + 2 * uNs), ev.storing := none, sec.bootWriting := none }

/-- One nanosecond of the clocks (DESIGN CHOICE, log entry 1): the always-on count advances one nanosecond, device time and network
time one nanosecond by the correction in force (R87, R95), the rest carried. -/
def tick (s : State) : State :=
  let q : Nat := 1000000000 * 2 ^ 32
  let n := 65536 * ((q : Int) + s.dev.time.freq).toNat + s.clk.carry
  let c := { s.clk with dev := s.clk.dev + n / q, run := s.clk.run + 65536, carry := n % q }
  { s with clk := c.withNet (c.net + n / q), dev := s.dev.elapsed c.run }

/-- Device time, the always-on count and network time. -/
def devNow : M Nat := do return (← read).dev
def runNow : M Nat := do return (← read).run
def netNow : M Nat := do return (← read).net

/-- The time scale of instants: network time, or device time while network time is not valid (R381, R383). -/
def Dev.instantNow (d : Dev) (c : Clock) : Nat := if d.oB 0x1800 3 then c.net else c.dev

/-- The groups enabled for snapshots (6002h.03). -/
def Dev.snapGroups (d : Dev) : List Nat :=
  d.objs.filterMap fun e => if okey 0x6002 3 0 ≤ e.1 ∧ e.1 < okey 0x6002 4 0 ∧ e.2 = 1 then some (keyInst e.1) else none

/-- The next instant of the periodic snapshots after the last one taken, or the latest one that has passed. -/
def Dev.snapPeriodic (d : Dev) (now : Nat) : Option Nat :=
  let p := d.o 0x6002 2 * uMs
  if p = 0 then none else some (max (d.mon.snapLast / p + 1) (now / p) * p)

/-- The monitors of a quantity and scope (R384). -/
def Dev.monitorsOf (d : Dev) (q scope : Nat) : List Nat :=
  (List.range 64).filter (fun m => d.o 0x6030 1 m == q && d.o 0x6030 2 m == scope)

/-- A sample of a quantity is taken: it sets out to the monitors that watch it, under its date (R384, R385). -/
def monFeed (q scope v : Nat) : M Unit := do
  let d ← get
  let date := d.instantNow (← read)
  set { d with mon.feed := d.mon.feed ++ (d.monitorsOf q scope).map (fun m => (m, date, v)) }

/-! ### Token buckets -/

/-- A bucket after time has passed: rate in tokens per second, tokens scaled by 2^-16 ns per second. -/
def bucketNow (rate depth now : Nat) : Option Bucket → Nat
  | none => depth * uS
  | some b => min (depth * uS) (b.tokens + rate * (now - b.last))

/-- Take one token if there is one; the bucket afterwards. -/
def bucketTake (rate depth now : Nat) (b : Option Bucket) : Bool × Option Bucket :=
  let t := bucketNow rate depth now b
  if uS ≤ t then (true, some ⟨t - uS, now⟩) else (false, some ⟨t, now⟩)

/-! ### Message pools (R311, R312) -/

/-- Shared units of Sill `k`: 32,768 less the sum of the minimums. -/
def Dev.poolShared (d : Dev) (k : Nat) : Nat :=
  32768 - (List.range 8).foldl (fun a j => a + d.o 0x4301 1 (k * 8 + j)) 0

/-- Units that pool `i` holds beyond its minimum. -/
def Dev.poolOver (d : Dev) (i : Nat) : Nat := d.o 0x4302 1 i - d.o 0x4301 1 i

/-- Free shared units of Sill `k`. -/
def Dev.poolFree (d : Dev) (k : Nat) : Nat :=
  d.poolShared k - (List.range 8).foldl (fun a j => a + d.poolOver (k * 8 + j)) 0

/-- `occ < 2^j × free` for a signed shift `j`. -/
def belowDt (occ free : Nat) (j : Int) : Bool :=
  if 0 ≤ j then decide (occ < 2 ^ j.toNat * free) else decide (occ * 2 ^ (-j).toNat < free)

/-- Whether pool `i` (Sill × 8 + k) can take `n` units (R312). -/
def Dev.poolRoom (d : Dev) (i n : Nat) : Bool :=
  let used := d.o 0x4302 1 i
  let lo := d.o 0x4301 1 i
  decide (used + n ≤ d.o 0x4301 2 i) &&
    (decide (used + n ≤ lo) ||
      (belowDt (d.poolOver i) (d.poolFree (i / 8)) (d.oS 16 0x4301 3) &&
        decide ((used + n - lo) - d.poolOver i ≤ d.poolFree (i / 8))))

/-- Take `n` units of a pool and note its peak. -/
def Dev.poolTake (d : Dev) (i n : Nat) : Dev :=
  let u := d.o 0x4302 1 i + n
  let d := d.setO 0x4302 1 i u
  if d.o 0x4302 2 i < u then d.setO 0x4302 2 i u else d

/-- Sources whose messages were held take the units of pool 7 that are free (R401): the lowest-numbered source first (DESIGN CHOICE, log
entry 7). -/
def Dev.sendHeld : PMap (Option EvMsg) → Dev → Dev
  | (k, some m) :: rest, d =>
    if d.poolRoom 15 1 then
      Dev.sendHeld rest { d.poolTake 15 1 with ev.queue := d.ev.queue ++ [m], ev.held := oset d.ev.held k none }
    else d
  | (_, none) :: rest, d => Dev.sendHeld rest d
  | [], d => d

/-- Give back `n` units of a pool; what waits for pool 7 takes the room. -/
def Dev.poolGive (d : Dev) (i n : Nat) : Dev :=
  let e := d.setO 0x4302 1 i (d.o 0x4302 1 i - n)
  Dev.sendHeld e.ev.held e

/-! ### Raising events (R400) -/

/-- Sources that are never raised, and whose objects read 0 (R399, R443, R477). -/
def reservedSource (s : Nat) : Bool :=
  !(s < 320 || (320 ≤ s && s ≤ 327) || (384 ≤ s && s ≤ 469) || (471 ≤ s && s ≤ 474) || (528 ≤ s && s ≤ 532)
    || (544 ≤ s && s ≤ 551) || (560 ≤ s && s ≤ 564) || (576 ≤ s && s ≤ 583) || (590 ≤ s && s ≤ 606) || (608 ≤ s && s ≤ 611)
    || (616 ≤ s && s ≤ 639))

/-- The event message of a raise, with its time stamps (R406). -/
def mkMsg (c : Clock) (d : Dev) (src code sev p1 p2 p3 : Nat) : EvMsg :=
  let valid := d.oB 0x1800 3
  { src, code, sev, p1 := p1 % 2 ^ 32, p2 := p2 % 2 ^ 32, p3 := p3 % 2 ^ 32, valid,
    cycles := d.o 0x6410 9, optime := d.o 0x6410 0xA,
    secs := (if valid then c.secs else c.dev / uS) % 2 ^ 32 }

/-- Step 1 of a raise: count, latch, last code and time. -/
def Dev.raise1 (d : Dev) (c : Clock) (src code sev : Nat) : Dev :=
  (((d.addO 0x6400 4 src 1).setO 0x6400 3 src (d.o 0x6400 3 src ||| 2 ^ sev)).setO 0x6400 7 src code).setO 0x6400 8 src c.t80

/-- Send a message to the writer through pool 7, or hold it, or lose it (R401). -/
def sendMsg (m : EvMsg) : M Unit := do
  let d ← get
  match oget d.ev.held m.src with
  | some h =>
    incO 0x6400 6 m.src
    if m.sev = 3 ∧ h.sev ≠ 3 then
      modify fun d => { d with ev.held := oset d.ev.held m.src (some m) }
  | none =>
    if d.poolRoom 15 1 then
      set { d.poolTake 15 1 with ev.queue := d.ev.queue ++ [m] }
    else
      set { d with ev.held := oset d.ev.held m.src (some m) }

/-- Step 3 of a raise: whether the source limiter passes it (R402). -/
def passLimiter (m : EvMsg) : M Bool := do
  if m.src = 610 ∨ m.src = 611 then return true
  else
    let d ← get
    let now ← runNow
    let (ok, b) := bucketTake (d.o 0x6401 1 m.src) (d.o 0x6401 2 m.src) now (oget d.ev.buckets m.src)
    set { d with ev.buckets := oset d.ev.buckets m.src b }
    if ok ∨ m.sev = 3 then return true
    else
      incO 0x6400 5 m.src
      modify fun d => { d with ev.second := nset d.ev.second m.src (nget d.ev.second m.src + 1) }
      return false

/-- A message finds its source without one that waits, or takes its place (R401). -/
def Dev.takesMsg (d : Dev) (m : EvMsg) : Bool :=
  match oget d.ev.held m.src with
  | some h => m.sev == 3 && h.sev != 3
  | none => true

/-- Steps 3 and 4 of a raise: the source limiter, then the message. -/
def limitAndSend (m : EvMsg) : M Unit := do
  if ← passLimiter m then sendMsg m

/-- A raise (R400). -/
def raiseEv (src code sev p1 p2 p3 : Nat) : M Unit := do
  if reservedSource src then return ()
  let c ← read
  modify fun d => d.raise1 c src code sev
  let d ← get
  if d.oB 0x6400 1 src ∨ sev = 3 then
    limitAndSend (mkMsg c d src code sev p1 p2 p3)

/-- The limit of a code and an instance (R478). -/
def findLimit (l : List CodeLimit) (code inst : Nat) : Option CodeLimit :=
  l.find? (fun x => x.code == code && x.inst == inst)

/-- A raise whose rule records its code at most once per second of device time per instance (R478). `pos` names the parameter that
carries the number suppressed: 1, 2, 3, or 0 for none. A message that the source limiter or a waiting message stops forms no record, so
that the limit stands as it was; one that waits for pool 7 counts as formed at its raise (DESIGN CHOICE, log entry 37). -/
def raiseLim (src code sev inst p1 p2 p3 pos : Nat) : M Unit := do
  if reservedSource src then return ()
  let c ← read
  modify fun d => d.raise1 c src code sev
  let d ← get
  if d.oB 0x6400 1 src ∨ sev = 3 then
    let l := findLimit d.ev.limits code inst
    let sup := match l with | some x => x.suppressed | none => 0
    let recent : Bool := match l with | some x => decide ((c.dev : Int) < x.last + uS) | none => false
    let rest := d.ev.limits.filter (fun x => !(x.code == code && x.inst == inst))
    if recent ∧ sev ≠ 3 then
      let last := match l with | some x => x.last | none => 0
      set { d with ev.limits := ⟨code, inst, last, sup + 1⟩ :: rest }
    else
      let m := mkMsg c d src code sev
        (if pos = 1 then sup else p1) (if pos = 2 then sup else p2) (if pos = 3 then sup else p3)
      if ← passLimiter m then
        modify fun d => if d.takesMsg m then { d with ev.limits := ⟨code, inst, c.dev, 0⟩ :: rest } else d
        sendMsg m

/-- The limits after device time has restarted at a data-plane reset (R478): those of data-plane sources begin anew; the others go on, so
that their last records lie before device time 0. Codes of the data-plane areas and of time name data-plane sources (R399, R416). -/
def limitsRestart (dev : Nat) (l : List CodeLimit) : List CodeLimit :=
  (l.filter fun x => !(dataPlaneArea x.code || x.code / 0x400 == 6)).map fun x => { x with last := x.last - dev }

/-- "In the last second": how many of `times` lie in the second of device time before `now` (R478). -/
def inLastSecond (now : Nat) (times : List Nat) : Nat := (times.filter (fun t => now < t + uS)).length

/-- A parameter that names an object: index in [31:16], sub-index in [15:8] (R406). -/
def objParam (key : Nat) : Nat := keyIndex key <<< 16 + keySub key <<< 8

/-! ### Pools with their limit actions (R313) -/

/-- Take units of a dropping pool, or drop and count. -/
def poolTakeOrDrop (i n : Nat) : M Bool := do
  let d ← get
  if d.poolRoom i n then
    set (d.poolTake i n)
    return true
  else
    incO 0x4302 3 i
    raiseLim (637 + i / 8) 0x4301 1 i i 0 0 3
    return false

/-- Take units of a waiting pool, or stall its producers. -/
def poolTakeOrStall (i n : Nat) : M Bool := do
  let d ← get
  if d.poolRoom i n ∧ oget d.yard.poolStall i = none then
    set (d.poolTake i n)
    return true
  else
    if oget d.yard.poolStall i = none then
      let now ← runNow
      modify fun d => { d with yard.poolStall := oset d.yard.poolStall i (some now) }
      raiseLim (637 + i / 8) 0x4301 1 i i 1 0 3
    return false

/-- Give back units of a pool. -/
def poolGive (i n : Nat) : M Unit := modify fun d => d.poolGive i n

/-- The units of a message just taken stay in pool `i` until its consumer takes the message. -/
def poolKeep (i n : Nat) : M Unit :=
  modify fun d => { d with yard.poolHeld := mset (dK []) d.yard.poolHeld i (mget (dK []) d.yard.poolHeld i ++ [n]) }

/-- The consumer of pool `i` has by now taken a number of its messages, oldest first: how many is free (log entry 125). -/
def poolDrain (i : Nat) : M Unit := do
  let d ← get
  let held := mget (dK []) d.yard.poolHeld i
  if !held.isEmpty then
    let k := (← fresh) % (held.length + 1)
    modify fun d => { d.poolGive i (held.take k).sum with yard.poolHeld := mset (dK []) d.yard.poolHeld i (held.drop k) }

/-- A management core is in service (R432). -/
def Dev.inService (d : Dev) (c : Nat) : Bool := d.o 0x1460 1 c == 2 || d.o 0x1460 1 c == 3

/-- Writes of the record store from SD0, one unit each, join those that pool 6 has yet to take (R311, R415). Their content stands at once
(DESIGN CHOICE, log entry 139). -/
def Dev.storeAsk (d : Dev) (n : Nat) : Dev := { d with yard.storeWait := d.yard.storeWait + n }

/-- Pool 6 takes up to `n` of the waiting store writes while it has room; they leave it as SD1 takes them (R313). -/
def storeTake : Nat → M Unit
  | 0 => return ()
  | n + 1 => do
    if ← poolTakeOrStall 6 1 then
      modify fun d => { d with yard.storeWait := d.yard.storeWait - 1 }
      poolKeep 6 1
      storeTake n

/-- Store writes that wait go on. -/
def storeDrive : M Unit := do
  if (← get).yard.storeWait ≠ 0 then
    poolDrain 6
    storeTake (← get).yard.storeWait

/-! ### Interrupts and rings -/

/-- The vector instance f × 64 + v of a ring (R368). -/
def ringVector (r : Nat) : Nat :=
  if r < 16 then 1 + r else if r < 32 then 1 + r else if r = 32 then 33 else if r = 33 then 0 else 64

/-- Send a vector's message, or set its pending bit while it is masked. -/
def msixSend (i : Nat) : M Unit := do
  let d ← get
  let v := mget (dK {}) d.host.vectors i
  if v.masked then
    set { d with host.vectors := mset (dK {}) d.host.vectors i { v with count := 0, pending := true } }
  else
    set { d with host.vectors := mset (dK {}) d.host.vectors i { v with count := 0, pending := false } }
    emit (.msix i)

/-- The interrupt enable of the ring or batch engine that owns vector `i` (R50, R360, R368). -/
def Dev.vectorOn (d : Dev) (i : Nat) : Bool :=
  let ie := fun r => (mget (dK ({} : Ring)) d.host.rings r).ie
  if i = 0 then ie 33 else if i ≤ 32 then ie (i - 1) else if i = 33 then ie 32
  else if i = 34 then (mget (dK ({} : BatchEng)) d.host.batch 0).ie
  else if i = 64 then ie 34
  else if i = 65 then (mget (dK ({} : BatchEng)) d.host.batch 1).ie
  else false

/-- Send vector `i`'s message if its completions reach the threshold, or at once where the holdoff is 0 (R368). -/
def msixCheck (i : Nat) : M Unit := do
  let d ← get
  let v := mget (dK {}) d.host.vectors i
  if d.vectorOn i ∧ 0 < v.count ∧ (d.o 0x5440 1 i = 0 ∨ d.o 0x5440 2 i ≤ v.count) then msixSend i

/-- One completion counts toward vector `i` (R368). -/
def msixCount (i : Nat) : M Unit := do
  let d ← get
  let now ← runNow
  let v := mget (dK {}) d.host.vectors i
  let v := { v with count := v.count + 1, first := if v.count = 0 then now else v.first }
  set { d with host.vectors := mset (dK {}) d.host.vectors i v }
  msixCheck i

/-- A ring. -/
def Dev.ring (d : Dev) (r : Nat) : Ring := mget (dK {}) d.host.rings r

/-- Replace a ring. -/
def Dev.setRing (d : Dev) (r : Nat) (x : Ring) : Dev := { d with host.rings := mset (dK {}) d.host.rings r x }

/-- The entry length of a ring (R363, R365, R367). -/
def ringEntry (r : Nat) : Nat := if r < 16 then 64 else 32

/-- The device has finished entry HEAD of a ring: write `data` at `ofs` of it, then the head write-back, then count. -/
def ringAdvance (r ofs : Nat) (data : Bytes) : M Unit := do
  let d ← get
  let x := d.ring r
  emit (.dma (x.base + x.head * ringEntry r + ofs) data)
  let h := if x.size = 0 then 0 else (x.head + 1) % x.size
  modify fun d => d.setRing r { x with head := h, running := x.en }
  if x.headWb ≠ 0 then emit (.dma x.headWb (toBytes 4 h))
  msixCount (ringVector r)

/-- Write an entry into a device-producer ring, if it runs and has room (R361, R367). -/
def ringPut (r : Nat) (entry : Bytes) : M Bool := do
  let x := (← get).ring r
  if x.running ∧ x.size ≠ 0 ∧ (x.head + 1) % x.size ≠ x.seen then
    ringAdvance r 0 entry
    return true
  else return false

/-! ### Frames -/

/-- A frame of the device. -/
def Dev.frame (d : Dev) (id : Nat) : Option Frame := oget d.yard.frames id

/-- Replace a frame. -/
def setFrame (f : Frame) : M Unit :=
  modify fun d => { d with yard.frames := oset d.yard.frames f.id (some f) }

/-- Forget a frame. -/
def dropFrame (id : Nat) : M Unit :=
  modify fun d => { d with yard.frames := oset d.yard.frames id none }

/-- A field of a Tenon (R172): `lo` its lowest bit, `w` its width. -/
def Frame.tf (f : Frame) (lo w : Nat) : Nat := fld f.tenon lo w

/-- A frame with a Tenon field written. -/
def Frame.setT (f : Frame) (lo w v : Nat) : Frame := { f with tenon := putFld f.tenon lo w v }

/-! ### Meanings -/

/-- The device after an effect. -/
def Dev.after (d : Dev) (c : Clock) (f : M Unit) : Dev := ((f.run c).run d).2

/-- Run a device effect as the meaning of command `c`: the clock and the queue stay as they are. A command that names a
resource that does not exist faults. -/
def run (c : Instr) (f : M Unit) (s : State) : Host.Outcome State Fault Refusal :=
  if c.wf then .next { s with dev := s.dev.after s.clk f } else .fault .noSuchResource

/-- Run a device effect that also moves the clock, as the meaning of command `c`. -/
def runClk (c : Instr) (f : M Unit) (k : Dev → Clock → Clock) (s : State) : Host.Outcome State Fault Refusal :=
  if c.wf then .next { s with dev := s.dev.after s.clk f, clk := k s.dev s.clk } else .fault .noSuchResource

end Sys2Proof.Machine
end

