-- ==== Sys2Proof/Machine/DramMap.lean ====
section
/-! DEFINITION. Where a DRAM burst lies: segments, channels, banks, rows (R343 to R345), and the requests that wait at a channel
(R346). -/

namespace Sys2Proof.Machine

/-- The region of a segment (R343). -/
def regionOf (g : Nat) : Nat := if g < 1024 then 0 else if g < 1280 then 1 else if g < 1408 then 2 else 3

/-- The order in force of a region (R345). -/
def Dev.orderOf (d : Dev) (r : Nat) : Nat := (oget d.dram.order r).getD (if r = 0 then 1 else 0)

/-- The channel and position of a segment of Sill `s` (R344). -/
def Dev.segAt (d : Dev) (s g : Nat) : Nat × Nat := (d.o 0x5011 1 (s * 1536 + g), d.o 0x5011 2 (s * 1536 + g))

/-- Bank, row and column of a burst index under an order (R345). -/
def burstPlace (order b : Nat) : Nat × Nat × Nat :=
  let row := fld b 9 15
  match order with
  | 0 => (fld b 5 4, row, b % 32)
  | 1 => (fld b 5 4 ^^^ row % 16, row, b % 32)
  | _ => (fld b 1 4, row, fld b 5 4 * 2 + b % 2)

/-- A channel is in service (R353). -/
def Dev.chOn (d : Dev) (n : Nat) : Bool := d.o 0x5001 1 n == 2 || d.o 0x5001 1 n == 3

/-- Channels of Sill `s` in service. -/
def Dev.chCount (d : Dev) (s : Nat) : Nat := ((List.range 24).filter (fun i => d.chOn (24 * s + i))).length

/-- The DRAM of a Sill has failed (R355). -/
def Dev.sillFailed (d : Dev) (s : Nat) : Bool := d.oB 0x5021 3 s

/-- `n` bursts of segment `g` of Sill `s` from burst `b` are requested, in the flow class or the other class (R342, R346). -/
def dramAskSeg (s g b n : Nat) (write other : Bool) : M Unit := do
  let d ← get
  let now ← runNow
  let (ch, pos) := d.segAt s g
  if d.chOn ch then
    let new := (List.range n).map fun i =>
      let burst := pos * 131072 + b + i
      let (bank, row, _) := burstPlace (d.orderOf (regionOf g)) burst
      ({ burst, bank, row, write, at0 := now, other } : DramReq)
    set { d with dram.reqs := mset (dK []) d.dram.reqs ch (mget (dK []) d.dram.reqs ch ++ new) }

/-- The times of the last hour. -/
def lastHour (now : Nat) (l : List Nat) : List Nat := l.filter (fun t => now < t + 3600 * uS) ++ [now]

/-- An uncorrectable read of channel `n` (R351); one too many in an hour is to retire it (R353). -/
def burstBad (n burst : Nat) : M Unit := do
  incO 0x5002 2 n
  setO 0x5002 3 n burst
  raiseLim (384 + n) 0x5003 2 n n burst 0 3
  let d ← get
  let now ← runNow
  let l := lastHour now (mget (dK []) d.dram.ue n)
  set { d with
    dram.ue := mset (dK []) d.dram.ue n l
    dram.due := if d.oB 0x5020 5 ∧ d.o 0x5020 4 ≤ l.length ∧ !d.dram.due.contains n then d.dram.due ++ [n] else d.dram.due }

/-- `n` bursts of segment `g` from burst `b` are read by a requester that acts on them at once: whether all are good. The bursts known to
fail are counted (R351); the others are requested like any (log entry 91). -/
def dramTake (s g b n : Nat) (other : Bool) : M Bool := do
  let d ← get
  let (ch, pos) := d.segAt s g
  let bad := ((List.range n).map (pos * 131072 + b + ·)).filter (fun x => d.chOn ch && d.dram.bad.contains (ch * 2 ^ 24 + x))
  for x in bad do burstBad ch x
  if bad = [] then dramAskSeg s g b n false other
  return bad.isEmpty

/-- Bursts of flow-table slot `slot` of Sill `s` are requested: `n` bursts from burst `b` (R343). -/
def dramAsk (s slot b n : Nat) (write : Bool) : M Unit := dramAskSeg s (slot / 65536) (slot % 65536 * 2 + b) n write false

/-- The segment of a slot is being filled: reads of it find nothing, writes to it wait (R354). -/
def Dev.filling (d : Dev) (s slot : Nat) : Bool := d.dram.fill.contains (s * 1536 + slot / 65536)

/-- The first spare cell, or spare row of channel `ch`, that no repair record names (R457). -/
def Dev.freeSpare (d : Dev) (kind ch : Nat) : Nat :=
  let used := d.objs.filterMap fun e =>
    if keyIndex e.1 = 0x7022 ∧ keySub e.1 = 1 ∧ fld e.2 60 4 = kind ∧ fld e.2 54 6 = ch then some (fld e.2 40 13) else none
  ((List.range (if kind = 1 then 8192 else 32)).find? (!used.contains ·)).getD 0

/-- A repair is written to a free repair record, if there is one (R457): kind 1 cell, 2 row. -/
def repairRecord (kind ch addr : Nat) : M Unit := do
  let d ← get
  let spare := d.freeSpare kind ch
  let ask := fun (d : Dev) => if d.inService 0 then d.storeAsk 1 else d
  match (List.range 2048).find? (fun k => d.o 0x7022 1 k == 0) with
  | some k =>
    set (ask ((d.setO 0x7022 1 k (kind <<< 60 + ch <<< 54 + spare <<< 40 + addr)).setO 0x7022 2 0 (d.o 0x7022 2 + 1)))
    storeDrive
  | none =>
    if !d.dram.full then
      set { d with dram.full := true }
      raiseEv 578 0x7006 2 1 (← fresh) 0

end Sys2Proof.Machine
end

