-- ==== Sys2Proof/Machine/Ledger.lean ====
section
/-! DEFINITION. Event sources and the Ledger (16): forming, numbering, delivering, keeping, reading and clearing records;
FAULT_N; the limiter's second. -/

namespace Sys2Proof.Machine

/-- At least one management core is in service. -/
def Dev.anyCore (d : Dev) : Bool := d.inService 0 || d.inService 1

/-- Bytes 0 to 29 of a record (R406). -/
def recordHead (m : EvMsg) (seq : Nat) : Bytes :=
  toBytes 2 m.code ++ toBytes 2 (m.sev <<< 13 + (ofBool m.valid) <<< 12 + m.src % 1024) ++
  toBytes 3 (min m.cycles 0xFFFFFF) ++ toBytes 5 m.optime ++ toBytes 4 m.secs ++
  toBytes 4 m.p1 ++ toBytes 4 m.p2 ++ toBytes 4 m.p3 ++ toBytes 2 seq

/-- The 32 bytes of a record (R406). -/
def recordBytes (m : EvMsg) (seq : Nat) : Bytes :=
  let h := recordHead m seq
  h ++ toBytes 2 (crc16 h)

/-- The severity field of a stored record. -/
def LRec.sev (r : LRec) : Nat := fld r.data (8 * 28 + 13) 3

/-- Deliver a record to the event ring of function `f`, or count it as not written (R367). -/
def eventRingWrite (f : Nat) (rec : Bytes) : M Unit := do
  let ok ← ringPut (33 + f) rec
  if !ok then
    incO 0x5423 1 f
    raiseLim 564 0x5407 1 f f (← getO 0x5423 1 f) 0 3

/-- The slot of the oldest record for which `p` holds. -/
def oldestSlot (p : LRec → Bool) (m : PMap (Option LRec)) : Option (Nat × LRec) :=
  m.foldl (fun a e => match e.2 with
    | none => a
    | some r => if p r then
        match a with
        | some (_, q) => if r.seq < q.seq then some (e.1, r) else a
        | none => some (e.1, r)
      else a) none

/-- The lowest severity present. -/
def lowestSev (m : PMap (Option LRec)) : Nat :=
  m.foldl (fun a e => match e.2 with | none => a | some r => min a r.sev) 4

/-- The lowest slot that holds no record. -/
def emptySlot : PMap (Option LRec) → Nat → Nat
  | [], n => n
  | (k, _) :: r, n => if k = n then emptySlot r (n + 1) else n

/-- Directory entry `j`: bits [47:16] of the sequence of the slot's record, FFFFFFFFh while the slot is empty or between the first and the
third step of a write (R411). -/
def Events.dirEntry (e : Events) (j : Nat) : Nat :=
  if e.storing = some j then 0xFFFFFFFF
  else match oget e.slots j with
    | some r => r.seq / 65536
    | none => 0xFFFFFFFF

/-- The slots that are present (R411). -/
def Events.present (e : Events) : PMap (Option LRec) :=
  match e.storing with
  | some j => oset e.slots j none
  | none => e.slots

/-- Write a record into slot `j` (R411): its directory entry is empty from now until the write ends. -/
def Dev.putSlot (d : Dev) (j : Nat) (r : LRec) : Dev :=
  { d with ev.slots := oset d.ev.slots j (some r), ev.storing := some j, ev.rotten := d.ev.rotten.filter (· != j) }

/-- Keep a record in the Ledger, or discard it from storage (R410, R411); the write before has ended. -/
def storeRecord (sev : Nat) (r : LRec) : M Unit := do
  let d ← get
  let slots := d.ev.slots
  if slots.length < 131072 then
    set (d.putSlot (emptySlot slots 0) r)
  else
    let v := lowestSev slots
    match (if v ≤ sev then oldestSlot (fun q => q.sev == v) slots else none) with
    | some (j, _) => set (d.putSlot j r)
    | none =>
      incO 0x6410 4 sev
      modify fun d => { d with ev.disc := nset d.ev.disc sev (nget d.ev.disc sev + 1) }

/-- The writer forms, numbers, delivers and offers a record (R403, R404, R408). -/
def formRecord (m : EvMsg) : M Unit := do
  let seq ← getO 0x6410 3
  setO 0x6410 3 0 ((seq + 1) % 2 ^ 48)
  let d ← get
  let route := d.o 0x6400 2 m.src
  let rec_ := recordBytes m seq
  if bitOf route 0 then eventRingWrite 0 rec_
  let up := d.anyCore
  if bitOf route 1 ∧ up then
    emit (.mgmt rec_)
    eventRingWrite 1 rec_
  if bitOf route 3 ∨ m.sev = 3 then
    if up then storeRecord m.sev ⟨seq, ofBytes rec_⟩
    else
      incO 0x6410 5
      modify fun d => { d with
        ev.notStored := some (d.ev.notStored.getD seq), ev.notStoredN := d.ev.notStoredN + 1 }

/-- The writer takes the oldest event message (R408). -/
def ledgerRecord : M Unit := do
  let d ← get
  match d.ev.queue with
  | [] => return ()
  | m :: r =>
    set (({ d with ev.queue := r } : Dev).poolGive 15 1)
    formRecord m

/-- Storage resumes when a core comes back (R404). -/
def ledgerResume : M Unit := do
  let d ← get
  match d.ev.notStored with
  | none => return ()
  | some q =>
    set { d with ev.notStored := none, ev.notStoredN := 0 }
    raiseEv 610 0x6404 2 q d.ev.notStoredN 0

/-- The end of a second of the writer: one 6401h record for each source with suppressions in it (R402). -/
def limiterSecond : M Unit := do
  let d ← get
  let hot : PMap Nat := d.ev.second
  set { d with ev.second := [], ev.seconds := hot.foldl (fun (m : PMap Nat) (e : Nat × Nat) => nset m e.1 (nget d.ev.seconds e.1 + 1)) [] }
  for e in hot do
    raiseEv 610 0x6401 1 e.1 e.2 (nget d.ev.seconds e.1 + 1)

/-- The discard summary of 60 s (R410). -/
def discardSummary : M Unit := do
  let d ← get
  let n := nget d.ev.disc
  if d.ev.disc ≠ [] then
    set { d with ev.disc := [] }
    raiseEv 610 0x6403 2 (n 0 + n 1) (n 2) (n 3)

/-- Empty the slots that fail their check when read, one 6405h record each (R414). -/
def slotFails (bad : List Nat) : M Unit := do
  for j in bad do
    let d ← get
    if (oget d.ev.slots j).isSome then
      set { d with ev.slots := oset d.ev.slots j none, ev.rotten := d.ev.rotten.filter (· != j) }
      incO 0x6410 7
      raiseEv 611 0x6405 3 (0x400000 + 32 * j) 1 0

/-- The next present record of plane `pl`'s window; a slot that is reached and whose CRC does not hold is emptied (R412, R414). -/
def ledgerNext (pl : Nat) : Nat → M Nat
  | 0 => return 0
  | fuel + 1 => do
    let d ← get
    let cur := d.o 0x6420 1 pl
    match oldestSlot (fun r => cur ≤ r.seq) d.ev.present with
    | none => return 0
    | some (j, r) =>
      if d.ev.rotten.contains j then
        slotFails [j]
        ledgerNext pl fuel
      else
        setO 0x6420 3 pl r.seq
        setO 0x6420 1 pl (r.seq + 1)
        return r.data

/-- A read of 6420h.02[pl] (R412). -/
def ledgerRead (pl : Nat) : M Nat := do ledgerNext pl ((← get).ev.rotten.length + 1)

/-- The CRC of the slots of `bad` no longer holds (R414). -/
def Dev.rot (d : Dev) (bad : List Nat) : Dev := { d with ev.rotten := d.ev.rotten ++ bad.filter (!d.ev.rotten.contains ·) }

/-- A write of `v` to 6420h.04 by plane `pl` (R413): delete the records below severity `v`, then form 6402h. -/
def ledgerClear (pl v : Nat) : M Nat := do
  if v = 0 ∨ 4 < v then return 0x302
  let d ← get
  let gone := d.ev.slots.filterMap fun e => match e.2 with | some r => if r.sev < v then some r.seq else none | none => none
  set { d with ev.slots := d.ev.slots.filter fun e => match e.2 with | some r => !decide (r.sev < v) | none => true
               ev.storing := none }
  raiseEv 610 0x6402 2 pl gone.length (gone.foldl max 0)
  return 0

/-- The start-up check of every slot (R415): those of `bad` fail it, and those whose CRC no longer holds. -/
def ledgerCheck (bad : List Nat) : M Unit := do
  let d ← get
  let hit := (d.ev.rotten ++ bad).eraseDups.filter fun j => (oget d.ev.slots j).isSome
  set { d with ev.slots := d.ev.slots.filter (fun e => !hit.contains e.1), ev.rotten := [] }
  addO 0x6410 7 0 hit.length
  if hit ≠ [] then raiseEv 611 0x6405 3 0xFFFFFFFF hit.length 0

/-- A header field at start-up (R415): 0 the power-cycle count, 1 the operating time, 2 the global epoch, 3 the last assigned sequence. Each
goes up by one at a time and its two copies alternate, so the copy of lower value holds one less (DEDUCED, log entry 133): it wins where the
other fails, and with both failing the value is free. `bad` names failing copies as 131072 + 2 × field, + 1 for the copy of lower value. -/
def headerField (bad : List Nat) (f v len : Nat) : M Nat := do
  if !bad.contains (131072 + 2 * f) then return v
  else if !bad.contains (131073 + 2 * f) then return v - 1
  else return (← fresh) % 2 ^ len

/-- The header is read at start-up (R415). -/
def headerRead (bad : List Nat) : M Unit := do
  setO 0x6410 9 0 (← headerField bad 0 (← getO 0x6410 9) 32)
  setO 0x6410 0xA 0 (← headerField bad 1 (← getO 0x6410 0xA) 40)
  let e ← headerField bad 2 (← get).dict.epoch 32
  modify fun d => { d with dict.epoch := e }
  setO 0x6410 3 0 (← headerField bad 3 (← getO 0x6410 3) 48)

/-- The severity latch of source `i` holds FAULT_N asserted (R405). -/
def Dev.faultBy (d : Dev) (i : Nat) : Bool :=
  bitOf (d.o 0x6400 2 i) 2 && decide (0 < d.o 0x6400 3 i >>> d.o 0x6402 2)

/-- FAULT_N is asserted (R405). -/
def Dev.faultN (d : Dev) : Bool := (List.range 640).any d.faultBy

/-- Objects of this chapter whose value is computed: 6402h.01/.03, 6410h.02/.06/.08. -/
def Dev.ledgerObj (d : Dev) (ix sub i : Nat) : Option Nat :=
  let recs := d.ev.present.filterMap (fun e => e.2)
  match ix, sub with
  | 0x6402, 1 => some ((List.range 640).foldl (fun a s => if d.o 0x6400 3 s ≠ 0 then a + 1 <<< s else a) 0)
  | 0x6402, 3 => some (ofBool d.faultN)
  | 0x6410, 2 => some recs.length
  | 0x6410, 6 => some (match oldestSlot (fun _ => true) d.ev.present with | some (_, r) => r.seq | none => d.o 0x6410 3)
  | 0x6410, 8 => some (recs.filter (fun r => r.sev == i)).length
  | _, _ => none

/-! ### Meanings -/

/-- LEDGER_RECORD (R408). -/
def execLedgerRecord (s : State) := run .ledgerRecord (whileRunning 678 ledgerRecord) s

/-- LIMITER_SECOND (R402). -/
def execLimiterSecond (s : State) := run .limiterSecond limiterSecond s

/-- LEDGER_DISCARD_SUMMARY (R410). -/
def execLedgerDiscardSummary (s : State) := run .ledgerDiscardSummary discardSummary s

/-- OPERATING_TIME_TICK (R409). -/
def execOperatingTimeTick (s : State) := run .operatingTimeTick (whileRunning 679 (incO 0x6410 0xA)) s

end Sys2Proof.Machine
end

