-- ==== Sys2Proof/Machine/Banks.lean ====
section
/-! DEFINITION. The commit point (02): shadow banks and their owners, commits and swaps, visible epochs, breaking ownership,
and pegged objects in triplicate. A plane is 0 (host) or 1 (management). -/

namespace Sys2Proof.Machine

/-- The key of a table address: index, sub-index, address. -/
def tkey (ix sub addr : Nat) : Nat := (ix <<< 8 + sub % 256) <<< 32 + addr % 4294967296

/-- The index of a table key. -/
def tkeyIndex (k : Nat) : Nat := k >>> 40

/-- The area of an object key or a table key. -/
def areaOfKey (k : Nat) : Nat := (areaOf (keyIndex k)).getD 0

/-- The area of a table key. -/
def areaOfTkey (k : Nat) : Nat := (areaOf (tkeyIndex k)).getD 0

/-- Port `p` runs, or is set to run, in a slotted mode (R66). -/
def Dev.slotted (d : Dev) (p : Nat) : Bool := 0x10 ≤ d.o 0x2400 1 p

/-- The part of its area with which a staged object swaps: 0 the bulk; 1 + p the objects that swap at an instant of port p:
connection pages (R123), gate lists and preemption (R332). -/
def keyPart (k : Nat) : Nat :=
  let i := keyInst k
  match keyIndex k with
  | 0x4430 => 1 + i / 256
  | 0x4431 => if keySub k = 6 then 0 else 1 + i
  | 0x4410 => if keySub k ≤ 2 then 1 + i else 0
  | 0x2810 => 1 + i / 160
  | _ => 0

/-- A bank. -/
def Dev.bank (d : Dev) (a : Nat) : Bank := mget (dK {}) d.dict.banks a

/-- Replace a bank. -/
def Dev.setBank (d : Dev) (a : Nat) (b : Bank) : Dev := { d with dict.banks := mset (dK {}) d.dict.banks a b }

/-- Empty the shadow bank of an area and release it (R37). -/
def Dev.dropBank (d : Dev) (a : Nat) : Dev :=
  { d.setBank a {} with
    dict.shadow := mfilter (fun k => areaOfKey k ≠ a) d.dict.shadow
    dict.tblShadow := mfilter (fun k => areaOfTkey k ≠ a) d.dict.tblShadow }

/-- Whether plane `pl` may write the shadow bank of area `a` (R23, R24). -/
def Dev.bankFree (d : Dev) (a pl : Nat) : Bool :=
  let b := d.bank a
  b.phase == .idle && (b.owner == 0 || b.owner == pl + 1)

/-- Note a staged write of plane `pl` to area `a`. -/
def touchBank (a pl : Nat) : M Unit := do
  let now ← runNow
  modify fun d => d.setBank a { owner := pl + 1, last := now, phase := .idle }

/-- Stage a value in the shadow bank. -/
def stageObj (a pl key v : Nat) : M Unit := do
  touchBank a pl
  modify fun d => { d with dict.shadow := oset d.dict.shadow key (some v) }

/-- Stage a table entry (`none`: an empty address) in the shadow bank. -/
def stageTbl (a pl key : Nat) (v : Option Nat) : M Unit := do
  touchBank a pl
  modify fun d => { d with dict.tblShadow := oset d.dict.tblShadow key (some v) }

/-- The value a staged write acts on, and a shadow read returns, for plane `pl`: the shadow value for the owner (R35). -/
def Dev.shadowObj (d : Dev) (pl key : Nat) : Nat :=
  let own := (d.bank (areaOfKey key)).owner == pl + 1
  match oget d.dict.shadow key with
  | some v => if own then v else mget objDflt d.objs key
  | none => mget objDflt d.objs key

/-- A lit table entry. -/
def Dev.tbl (d : Dev) (ix sub addr : Nat) : Option Nat := oget d.tbls (tkey ix sub addr)

/-- A table entry as plane `pl` sees its shadow bank. -/
def Dev.shadowTbl (d : Dev) (pl key : Nat) : Option Nat :=
  if (d.bank (areaOfTkey key)).owner = pl + 1 then
    match oget d.dict.tblShadow key with
    | some v => v
    | none => oget d.tbls key
  else oget d.tbls key

/-- A staged object's value at the visible epoch (R35). -/
def Dev.visibleObj (d : Dev) (key : Nat) : Nat :=
  match d.dict.prev.find? (fun p => p.key == key) with
  | some p => p.val
  | none => mget objDflt d.objs key

/-- A table entry at the visible epoch (R35). -/
def Dev.visibleTbl (d : Dev) (key : Nat) : Option Nat :=
  match d.dict.tblPrev.find? (fun p => p.2.1 == key) with
  | some p => p.2.2
  | none => oget d.tbls key

/-! ### Epochs and visibility -/

/-- Commits whose swaps are complete, in epoch order, become visible (R36). -/
def settleCommits : List Commit → Nat → List Commit × Nat
  | [], v => ([], v)
  | c :: r, v => if c.left = [] then settleCommits r c.epoch else (c :: r, v)

/-- Settle the commits in progress. -/
def Dev.settle (d : Dev) : Dev :=
  let (cs, v) := settleCommits d.dict.commits (d.o 0x1020 3)
  { (d.setO 0x1020 3 0 v).setO 0x1020 4 0 cs.length with
    dict.commits := cs
    dict.prev := d.dict.prev.filter (fun p => v < p.epoch)
    dict.tblPrev := d.dict.tblPrev.filter (fun p => v < p.1) }

/-- Commits whose connection pages have all swapped are counted and reported once they are visible (R123). -/
def cmTell : M Unit := do
  let d ← get
  let seen := fun (x : Nat × Nat × Nat) => decide (x.1 ≤ d.o 0x1020 3)
  set { d with plumb.swaps := d.plumb.swaps.filter (fun x => !seen x) }
  for x in d.plumb.swaps.filter seen do
    incO 0x2811 3
    raiseEv 464 0x2801 1 x.1 x.2.1 x.2.2

/-- Four accepted commits are in progress (R36). -/
def Dev.commitsFull (d : Dev) : Bool := 4 ≤ d.dict.commits.length

/-- Accept a commit of plane `pl` (R22): the next epoch, with the parts that have to swap. -/
def acceptCommit (pl : Nat) (left : List (Nat × Nat)) : M Nat := do
  let d ← get
  let e := d.dict.epoch + 1
  set { (d.setO 0x1020 2 pl e).addO 0x1020 8 0 1 with
    dict.epoch := e, dict.commits := d.dict.commits ++ [Commit.mk e pl left] }
  modify Dev.settle
  return e

/-- The areas whose shadow bank plane `pl` owns. -/
def Dev.owned (d : Dev) (pl : Nat) : List Nat :=
  (mkeys d.dict.banks).filter (fun a => (d.bank a).owner == pl + 1 && (d.bank a).phase == .idle)

/-- Remove repeats from a list of numbers. -/
def nub (l : List Nat) : List Nat := l.foldl (fun a x => if a.contains x then a else a ++ [x]) []

/-- The parts of area `a` that a commit swaps separately. -/
def Dev.commitParts (d : Dev) (a : Nat) : List Nat :=
  let ks := (mkeys d.dict.shadow).filter (fun k => areaOfKey k == a)
  let tb := (mkeys d.dict.tblShadow).any (fun k => areaOfTkey k == a)
  if a = 0x0C then List.range 64
  else if a = 0x0A then
    let cm := ks.any (fun k => keyIndex k == 0x2810 || keyIndex k == 0x2811)
    let ports := (List.range 256).filter (fun p => d.slotted p && d.oB 0x2400 2 p)
    (if ks.any (fun k => keyPart k == 0 || !ports.contains (keyPart k - 1)) || tb || (cm && ports.isEmpty) then [0] else [])
      ++ (if cm then ports.map (· + 1) else [])
  else if a = 0x11 then
    -- a port whose gate and preemption objects keep their values does not wait (R332)
    let own := nub ((ks.filter (fun k => keyPart k != 0 && oget d.dict.shadow k != some (mget objDflt d.objs k))).map keyPart)
    own ++ (if ks.any (fun k => !own.contains (keyPart k)) || tb then [0] else [])
  else [0]

/-- The mask of a session key's copy: SHAKE256 over the store key, the object key and the copy's epoch (R436; their octets, log entry 99). -/
@[irreducible] def sealMask (key epoch : Nat) : Nat := digest256 (toBytes 32 Config.storeKey ++ toBytes 8 key ++ toBytes 4 epoch)

/-- What a copy of a pegged object holds for a value, and the value for what it holds: a session key lies under its mask (R436). -/
def pegSeal (key v epoch : Nat) : Nat := if keyIndex key = 0x1140 ∧ keySub key = 2 then v ^^^ sealMask key epoch else v

/-- Write the three copies of a pegged key with an epoch; core 0 writes them over the Sill link (R415). -/
def Dev.pegStore (d : Dev) (key v epoch : Nat) : Dev :=
  let c : PegCopy := ⟨pegSeal key v (epoch % 2 ^ 32), epoch % 2 ^ 32, true⟩
  { (if d.inService 0 then d.storeAsk 3 else d) with
    dict.pegs := oset d.dict.pegs key (some ⟨c, c, c⟩)
    dict.pegIndet := d.dict.pegIndet.filter (· ≠ key) }

/-- A key carries flag P. -/
def keyPegged (key : Nat) : Bool := ((findRow (keyIndex key) (keySub key)).map ObjRow.pegged).getD false

/-- A staged key of area `a` swaps with part `part`: in the parser and Tenon area every part swaps all of it; a key of a port that
has no swap of its own to wait for swaps with the bulk. -/
def Dev.inPart (d : Dev) (a part k : Nat) : Bool :=
  let q := keyPart k
  a == 0x0C || q == part || (part == 0 && !d.dict.commits.any (fun c => c.left.contains (a, q)))

/-- Swap a part of an area for the commit of epoch `e`: the staged values become lit (R24, R32). -/
def Dev.swapPart (d : Dev) (a part e : Nat) : Dev :=
  let ks := d.dict.shadow.filter (fun x => areaOfKey x.1 == a && d.inPart a part x.1)
  let ts := if part = 0 ∨ a = 0x0C then d.dict.tblShadow.filter (fun x => areaOfTkey x.1 == a) else []
  let d1 := ks.foldl (fun (d : Dev) x =>
    let v := x.2.getD 0
    let old := mget objDflt d.objs x.1
    let d : Dev := { d with
      objs := mset objDflt d.objs x.1 v
      dict.prev := d.dict.prev ++ [⟨e, x.1, old⟩]
      dict.shadow := oset d.dict.shadow x.1 none }
    if keyPegged x.1 then d.pegStore x.1 v e else d) d
  ts.foldl (fun (d : Dev) x =>
    { d with
      tbls := oset d.tbls x.1 (x.2.getD none)
      dict.tblPrev := d.dict.tblPrev ++ [(e, x.1, oget d.tbls x.1)]
      dict.tblShadow := oset d.dict.tblShadow x.1 none }) d1

/-- The epoch of the commit in progress that covers a part. -/
def Dev.pendingPart (d : Dev) (a part : Nat) : Option Nat :=
  (d.dict.commits.find? (fun c => c.left.contains (a, part))).map Commit.epoch

/-- A part of an area has swapped: strike it from its commit; the last part of an area ends the swap (R24). -/
def Dev.partDone (d : Dev) (a part : Nat) : Dev :=
  let cs := d.dict.commits.map (fun c => { c with left := c.left.filter (· ≠ (a, part)) })
  let d := { d with dict.commits := cs }
  let d := if cs.any (fun c => c.left.any (fun x => x.1 == a)) then d
    else if a = 0x0C then d
    else d.setBank a { d.bank a with owner := 0, phase := .copying }
  d.settle

/-- The commit of plane `pl` (R36): status and epoch. -/
def commitReq (pl : Nat) : M (Nat × Nat) := do
  let d ← get
  if d.commitsFull then return (0x701, d.o 0x1020 3)
  let own := d.owned pl
  if own = [] then return (0, d.o 0x1020 3)
  if d.o 0x7000 2 = 3 ∧ own.any (fun a => dataPlaneArea (a * 0x400)) then return (0x701, d.o 0x1020 3)
  let left := own.flatMap (fun a => (d.commitParts a).map (fun p => (a, p)))
  set (own.foldl (fun (d : Dev) a => d.setBank a { d.bank a with owner := 0, phase := .swapping }) d)
  let e ← acceptCommit pl left
  return (0, e)

/-- The discard of plane `pl` (R37). -/
def discardReq (pl : Nat) : M Nat := do
  modify fun d => (d.owned pl).foldl Dev.dropBank d
  return 0

/-- The ownership of a bank ends without a commit (R38). -/
def loseBank (a : Nat) : M Unit := do
  let d ← get
  let owner := (d.bank a).owner
  set (d.dropBank a)
  raiseEv 608 0x1003 2 (a * 0x400) (owner - 1) (d.o 0x1020 3)

/-- Every bank of plane `pl` is discarded (R38). -/
def loseBanks (pl : Nat) : M Unit := do
  let d ← get
  for a in d.owned pl do loseBank a

/-- A write of area number `a` to 1020h.06 by plane `pl` (R38). -/
def bankBreak (pl a : Nat) : M Nat := do
  let d ← get
  let now ← runNow
  if areaOf (a * 0x400) ≠ some a then return 0x302
  let b := d.bank a
  if b.phase ≠ .idle then return 0x402
  if b.owner = 0 then return 0
  if b.owner = pl + 1 then return 0x302
  if now < b.last + d.o 0x1020 7 * uS then return 0x402
  loseBank a
  return 0

/-- The value an object of the parser and Tenon area has for a frame that entered under bank `k` (R177). -/
def Dev.ob (d : Dev) (k ix sub : Nat) (i : Nat := 0) : Nat :=
  let key := okey ix sub i
  if k < d.dict.bank12 then
    match oget d.dict.oldObj key with
    | some v => v
    | none => mget objDflt d.objs key
  else mget objDflt d.objs key

/-- A table entry of that area for a frame that entered under bank `k`. -/
def Dev.tblB (d : Dev) (k ix sub addr : Nat) : Option Nat :=
  let key := tkey ix sub addr
  if k < d.dict.bank12 then
    match oget d.dict.oldTbl key with
    | some v => v
    | none => oget d.tbls key
  else oget d.tbls key

/-- The bank that a frame which enters the parser of bay `b` now runs under. -/
def Dev.bankOf (d : Dev) (b : Nat) : Nat :=
  if d.dict.baysNew ≠ [] ∧ d.dict.commits.any (fun c => c.left.contains (0x0C, b)) then d.dict.bank12 - 1 else d.dict.bank12

/-- A bay swaps the parser and Tenon area between two packets (R24, R177). -/
def Dev.swapBay (d : Dev) (b e : Nat) : Dev :=
  let d := if d.dict.baysNew = [] then
      let ks := d.dict.shadow.filter (fun x => areaOfKey x.1 == 0x0C)
      let ts := d.dict.tblShadow.filter (fun x => areaOfTkey x.1 == 0x0C)
      let d : Dev := { d with
        dict.bank12 := d.dict.bank12 + 1
        dict.oldObj := ks.map (fun x => (x.1, some (mget objDflt d.objs x.1)))
        dict.oldTbl := ts.map (fun x => (x.1, some (oget d.tbls x.1))) }
      d.swapPart 0x0C b e
    else d
  ({ d with dict.baysNew := d.dict.baysNew ++ [b] } : Dev).partDone 0x0C b

/-- No frame between the parser and the end of stage 12 runs under an old bank (R177). -/
def Dev.oldBankDone (d : Dev) : Bool :=
  d.yard.frames.all (fun e => match e.2 with
    | some f => !(f.phase == 1 && decide (f.bank < d.dict.bank12))
    | none => true)

/-- The copy of lit into shadow begins (R24, R177). -/
def shadowCopyStart (a : Nat) : M Unit := do
  let d ← get
  if (d.bank a).phase = .swapping ∧ !d.dict.commits.any (fun c => c.left.any (fun x => x.1 == a)) ∧ (a = 0x0C → d.oldBankDone) then
    set (d.setBank a { d.bank a with phase := .copying })

/-- The copy ends and the bank is clean (R24). -/
def shadowCopyDone (a : Nat) : M Unit := do
  let d ← get
  if (d.bank a).phase = .copying then
    let d := d.setBank a {}
    set (if a = 0x0C then { d with dict.baysNew := [], dict.oldObj := [], dict.oldTbl := [] } else d)

/-! ### Pegged objects -/

/-- Epoch `a` is higher than epoch `b` (R43). -/
def epochHigher (a b : Nat) : Bool :=
  let k := (a + 2 ^ 32 - b % 2 ^ 32) % 2 ^ 32
  decide (1 ≤ k ∧ k < 2 ^ 31)

/-- The copies of a pegged key: unlisted copies hold the default at epoch 0. -/
def Dev.pegTriple (d : Dev) (key : Nat) : PegTriple :=
  let c : PegCopy := ⟨pegSeal key (objDflt key) 0, 0, true⟩
  (oget d.dict.pegs key).getD ⟨c, c, c⟩

/-- Copy 0, 1 or 2. -/
def PegTriple.copy (t : PegTriple) : Nat → PegCopy
  | 0 => t.a | 1 => t.b | _ => t.c

/-- Replace a copy. -/
def PegTriple.setCopy (t : PegTriple) (n : Nat) (c : PegCopy) : PegTriple :=
  match n with | 0 => { t with a := c } | 1 => { t with b := c } | _ => { t with c := c }

/-- The copy that decides the value (R44), or none: indeterminate. -/
def pegWinner (t : PegTriple) : Option PegCopy :=
  let ok := [t.a, t.b, t.c].filter PegCopy.good
  match ok.find? (fun c => 2 ≤ (ok.filter (fun x => x.val == c.val && x.epoch == c.epoch)).length) with
  | some c => some c
  | none => ok.find? (fun c => (ok.filter (fun x => epochHigher c.epoch x.epoch)).length + 1 == ok.length)

/-- Record that copy `n` of a key could not be written (R41). -/
def pegWriteFail (key n : Nat) : M Unit := raiseEv 609 0x1004 2 (objParam key) (keyInst key) n

/-- Resolve a pegged key as its copies stand (R44); the copies in `fail` cannot be written. The highest epoch of record 1002h is the
largest number that the three copies hold, excluded copies with them (DESIGN CHOICE, log entry 116). -/
def pegResolve (key : Nat) (fail : List Nat) : M Unit := do
  let d ← get
  let t := d.pegTriple key
  match pegWinner t with
  | none =>
    let top := max t.a.epoch (max t.b.epoch t.c.epoch)
    if !d.dict.pegIndet.contains key then
      set { d with
        objs := mset objDflt d.objs key (objDflt key)
        dict.pegIndet := d.dict.pegIndet ++ [key]
        dict.pegRepaired := d.dict.pegRepaired.filter (· ≠ key) }
      raiseEv 609 0x1002 3 (objParam key) (keyInst key) top
  | some w =>
    set { d with objs := mset objDflt d.objs key (pegSeal key w.val w.epoch), dict.pegIndet := d.dict.pegIndet.filter (· ≠ key) }
    for n in [0, 1, 2] do
      let c := t.copy n
      if c ≠ { w with good := true } then
        if fail.contains n then pegWriteFail key n
        else
          modify fun d => { d with
            dict.pegs := oset d.dict.pegs key (some ((d.pegTriple key).setCopy n { w with good := true }))
            dict.pegRepaired := if d.dict.pegRepaired.contains key then d.dict.pegRepaired else d.dict.pegRepaired ++ [key] }
          incO 0x1030 4
          raiseEv 609 0x1001 1 (objParam key) (keyInst key) n

/-- Write a pegged key that carries no flag S (R39, R41): its own epoch, copies A, B, C with read-back; the copies in `fail`
fail their read-back twice. The status. -/
def pegWrite (pl key v : Nat) (fail : List Nat) : M Nat := do
  let d ← get
  if d.commitsFull then return 0x701
  let e ← acceptCommit pl []
  match [0, 1, 2].find? fail.contains with
  | none =>
    modify fun d => { d.pegStore key v e with objs := mset objDflt d.objs key v }
    storeDrive
    return 0
  | some n =>
    let t := d.pegTriple key
    let c : PegCopy := ⟨pegSeal key v (e % 2 ^ 32), e % 2 ^ 32, true⟩
    let t := (if 0 < n then t.setCopy 0 c else t)
    let t := (if 1 < n then t.setCopy 1 c else t)
    let t := t.setCopy n { t.copy n with good := false }
    modify fun d => { d with dict.pegs := oset d.dict.pegs key (some t) }
    pegWriteFail key n
    pegResolve key fail
    return 0x701

/-- Copies found damaged: `key × 4 + copy`. -/
def pegDamage (bad : List Nat) : M Unit := do
  for b in bad do
    let key := b / 4
    let n := b % 4
    let d ← get
    let exists_ : Bool := match findRow (keyIndex key) (keySub key) with
      | some r => r.pegged && decide (keyInst key < r.size) | none => false
    if exists_ ∧ n < 3 then
      let t := d.pegTriple key
      set { d with dict.pegs := oset d.dict.pegs key (some (t.setCopy n { t.copy n with good := false })) }

/-- A copy of a triple is not in agreement. -/
def PegTriple.uneven (t : PegTriple) : Bool := !(t.a.good && t.a == t.b && t.b == t.c)

/-- Compare the copies of every pegged object (R42, R44). -/
def pegCompare (bad : List Nat) : M Unit := do
  pegDamage bad
  let d ← get
  for e in d.dict.pegs do
    if (d.pegTriple e.1).uneven ∧ !d.dict.pegIndet.contains e.1 then pegResolve e.1 []

/-- A scrub pass (R42). -/
def pegScrub (bad : List Nat) : M Unit := do
  pegCompare bad
  let c ← read
  let d ← get
  setO 0x1030 6 0 (if d.oB 0x1800 3 then c.t80 else 0)

/-- The state of pegged object `k` (1030h.03). -/
def Dev.pegState (d : Dev) (k : Nat) : Nat :=
  let key := (pegKeyIn peggedRows k).getD 0
  if d.dict.pegIndet.contains key then 2 else if d.dict.pegRepaired.contains key then 1 else 0

/-- Read 1030h.03[k]: the state, clearing "repaired". -/
def pegStateRead (k : Nat) : M Nat := do
  let d ← get
  let key := (pegKeyIn peggedRows k).getD 0
  set { d with dict.pegRepaired := d.dict.pegRepaired.filter (· ≠ key) }
  return d.pegState k

/-- Objects of this chapter whose value is computed. 1020h.05 has an instance for every number from 0 to the highest area number, and one
that numbers no area reads 0 (DESIGN CHOICE, log entry 115). -/
def Dev.dictObj (d : Dev) (ix sub i : Nat) : Option Nat :=
  match ix, sub with
  | 0x1020, 5 => some (let b := d.bank i; if b.phase ≠ .idle then 3 else b.owner)
  | 0x1030, 1 => some pegCount
  | 0x1030, 2 => some ((pegKeyIn peggedRows i).getD 0)
  | 0x1030, 5 => some d.dict.pegIndet.length
  | _, _ => none

/-! ### Meanings -/

/-- SHADOW_COPY_START (R177). -/
def execShadowCopyStart (a : Nat) (s : State) := run (.shadowCopyStart a) (shadowCopyStart a) s

/-- SHADOW_COPY_DONE (R24). -/
def execShadowCopyDone (a : Nat) (s : State) := run (.shadowCopyDone a) (shadowCopyDone a) s

/-- PEG_SCRUB_PASS (R42). -/
def execPegScrubPass (bad : List Nat) (s : State) := run (.pegScrubPass bad) (whileRunning 678 (pegScrub bad)) s

end Sys2Proof.Machine
end

