-- ==== Sys2Proof/Machine/HostIf.lean ====
section
/-! DEFINITION. The host interface (14): rings, punts, injects, MSI-X, PCI Express errors, attachment and loss of the host,
PERST_N; pools that let their producers go on (R313). -/

namespace Sys2Proof.Machine

/-- Base units for a message of `n` octets (R311). -/
def poolUnits (n : Nat) : Nat := ceilDiv n 256

/-- Function accesses reach the device: the link is up, PERST_N and PORST_N are released. -/
def Dev.pcieUp (d : Dev) : Bool := d.o 0x5401 1 != 0 && !d.host.perst && !d.power.porst

/-- The BAR0 offset of a ring block (R359). -/
def ringOffset (r : Nat) : Nat :=
  if r < 16 then 0x20000 + 0x40 * r else if r < 32 then 0x21000 + 0x40 * (r - 16) else if r = 32 then 0x22000 else 0x23000

/-- The function a ring belongs to. -/
def ringFunction (r : Nat) : Nat := if r = 34 then 1 else 0

/-- A power of two in a range. -/
def powerOfTwoIn (lo hi n : Nat) : Bool := decide (lo ≤ n ∧ n ≤ hi) && (2 ^ Nat.log2 n == n)

/-- The rings of a function may run: the host is attached, for function 0 (R373). -/
def Dev.hostOk (d : Dev) (f : Nat) : Bool := f != 0 || d.o 0x5400 1 == 1

/-! ### Ring registers (R360): they take no write while the link is down or PERST_N is asserted (R375) -/

/-- A write of RING_BASE (0), RING_SIZE (1) or RING_LIMIT (2). A RING_LIMIT outside its range is ignored (DESIGN CHOICE, log
entry 8). -/
def ringConfigWrite (r reg v : Nat) : M Unit := do
  let d ← get
  let x := d.ring r
  if !d.pcieUp then return ()
  if x.en ∨ x.running then set (d.setRing r { x with err := true })
  else
    match reg with
    | 0 => set (d.setRing r { x with base := v % 2 ^ 64 / 4096 * 4096 })
    | 1 => set (d.setRing r { x with size := v % 2 ^ 32 })
    | _ => if r < 16 ∧ (v = 0 ∨ 64 ≤ v ∧ v ≤ 16384) then set (d.setRing r { x with limit := v })

/-- RING_CTRL [1]. -/
def ringInterrupt (r : Nat) (on : Bool) : M Unit := do
  if (← get).pcieUp then
    modify fun d => d.setRing r { d.ring r with ie := on }
    if on then msixCheck (ringVector r)

/-- RING_CTRL [0] set: the ring starts, or flags a configuration error. -/
def ringEnable (r : Nat) (ie : Bool) : M Unit := do
  let d ← get
  let x := d.ring r
  if d.pcieUp ∧ d.hostOk (ringFunction r) then
    if powerOfTwoIn 64 65536 x.size then set (d.setRing r { x with en := true, running := true })
    else set (d.setRing r { x with err := true })
  ringInterrupt r ie

/-- RING_CTRL [0] cleared: no entry is ever half done between commands, so the ring stops at once. -/
def ringDisable (r : Nat) : M Unit :=
  modify fun d => if d.pcieUp then d.setRing r { d.ring r with en := false, running := false } else d

/-- W1C of RING_CTRL [31]. -/
def ringErrorClear (r : Nat) : M Unit :=
  modify fun d => if d.pcieUp then d.setRing r { d.ring r with err := false } else d

/-- A device read failed (R369): `kind` 0 timeout, 1 poisoned, 2 UR or CA. -/
def dmaReadError (f kind ofs : Nat) : M Unit := do
  incO 0x5402 3
  raiseEv 561 0x5404 2 f kind ofs

/-- The device reads RING_TAIL; a descriptor fetch that fails (`err` 1 to 3) stops a punt or inject ring (R361, R369). -/
def ringTailPoll (r err : Nat) : M Unit := do
  let d ← get
  let x := d.ring r
  if x.running then
    if 0 < err ∧ r < 32 then
      set (d.setRing r { x with en := false, running := false, err := true })
      dmaReadError 0 (err - 1) (ringOffset r)
    else set (d.setRing r { x with seen := if x.size = 0 then 0 else x.tail % x.size })

/-! ### Punts -/

/-- The punts that wait for a ring. -/
def Dev.puntList (d : Dev) (r : Nat) : List Punt := mget (dK []) d.host.punts r

/-- Replace them. -/
def Dev.setPunts (d : Dev) (r : Nat) (l : List Punt) : Dev := { d with host.punts := mset (dK []) d.host.punts r l }

/-- A punt is dropped (R364). -/
def puntDrop (r reason : Nat) : M Unit := do
  incO 0x5420 2 r
  raiseLim 562 0x5405 1 r r reason 0 3

/-- Ring of a punt or a Reflection (R362). -/
def Dev.puntRing (d : Dev) (kind reason tc base hash : Nat) : Nat :=
  let r := if kind = 0 then (if reason < 0x100 then d.o 0x5430 2 reason else d.o 0x5430 1 tc) else base
  (r + hash % d.o 0x5430 3) % 16

/-- A punt joins the wait for ring `r`, or is dropped (R363, R364). -/
def puntEnqueue (r : Nat) (p : Punt) : M Bool := do
  let d ← get
  let seq := nget d.host.puntSeq r
  set { d with host.puntSeq := nset d.host.puntSeq r ((seq + 1) % 2 ^ 32) }
  let u := poolUnits p.data.length
  let held := (d.puntList r).foldl (fun a x => a + x.units) 0
  if d.o 0x5420 4 r < held + u then
    puntDrop r p.reason
    return false
  else
    let ok ← poolTakeOrDrop 0 u
    if ok then
      modify fun d => d.setPunts r (d.puntList r ++ [{ p with seq := seq, units := u }])
      return true
    else
      puntDrop r p.reason
      return false

/-- The frame of a waiting punt has ended: whole, or errored and discarded before delivery (R364). -/
def puntEnds (id : Nat) (data : Option Bytes) : M Unit := do
  let d ← get
  for e in d.host.punts do
    for p in e.2 do
      if p.src = some id ∧ data = none then poolGive 0 p.units
    modify fun d => d.setPunts e.1 ((d.puntList e.1).filterMap fun p =>
      if p.src = some id then
        match data with
        | some b => some { p with src := none, data := b }
        | none => none
      else some p)

/-- FRAME_LEN of a punt (R363). -/
def Punt.frameLen (p : Punt) : Nat := max p.len p.data.length

/-- The result bytes 12 to 63 of a punt descriptor (R363). -/
def puntResult (p : Punt) (n : Nat) : Bytes :=
  toBytes 2 p.reason ++ toBytes 2 p.frameLen ++ toBytes 2 n ++ toBytes 1 p.kind ++
  toBytes 1 (p.flags % 128 + (if n < p.frameLen then 128 else 0)) ++ toBytes 2 p.inPort ++ toBytes 2 p.inTrib ++
  toBytes 6 p.secs ++ toBytes 4 p.ns ++ toBytes 2 p.frac ++ toBytes 1 p.tc ++ toBytes 1 0 ++ toBytes 2 p.flowAct ++
  toBytes 4 p.hash ++ toBytes 2 p.aux ++ toBytes 2 0 ++ toBytes 12 p.scratch ++ toBytes 4 p.seq

/-- A waiting punt fills a posted descriptor (R361, R363). -/
def puntDeliver (r : Nat) (desc : Bytes) : M Unit := do
  let d ← get
  let x := d.ring r
  match d.puntList r with
  | [] => return ()
  | p :: rest =>
    if x.running ∧ x.head ≠ x.seen ∧ p.src = none then
      let len := beAt desc 8 2
      let okLen : Bool := len % 64 == 0 && decide (256 ≤ len ∧ len ≤ 16384)
      let n := if okLen then
          let n := min p.data.length len
          if x.limit = 0 then n else min n x.limit
        else 0
      set ((d.setPunts r rest).poolGive 0 p.units)
      if okLen then
        emit (.dma (beAt desc 0 8) (p.data.take n))
        incO 0x5420 1 r
        if n < p.frameLen then incO 0x5420 3 r
      else incO 0x5420 2 r
      emit (.dma (x.base + x.head * 64 + 12) (puntResult p n))
      ringAdvance r 10 [1#8]

/-! ### Injects -/

/-- Whether an inject descriptor is in range (R365). -/
def injectOk (d : Bytes) : Bool :=
  let len := beAt d 8 2
  decide (60 ≤ len ∧ len ≤ 16379) && byteAt d 11 ≤ 1 && beAt d 12 2 ≤ 255 && byteAt d 14 ≤ 7 && byteAt d 15 ≤ 15 &&
    byteAt d 16 % 16 == 0 && fld (byteAt d 16) 4 2 ≤ 2 && beAt d 24 8 == 0

/-- The inject ring the engine serves next (R366): highest priority, round robin within it. -/
def Dev.injectNext (d : Dev) : Option Nat :=
  let ready := (List.range 16).filter (fun r => (d.ring (16 + r)).running && (d.ring (16 + r)).head != (d.ring (16 + r)).seen)
  let top := ready.foldl (fun a r => max a (d.o 0x5421 3 r)) 0
  let c := ready.filter (fun r => d.o 0x5421 3 r == top)
  let last := nget d.host.injLast top
  match c.find? (fun r => last ≤ r) with
  | some r => some r
  | none => c.head?

/-- Pool 1 is at its limit, and the engine reads nothing (R313, R366). -/
def Dev.injectStopped (d : Dev) : Bool := (oget d.yard.poolStall 1).isSome || !d.poolRoom 1 1

/-- The inject engine takes one frame from ring `r`, when it is that ring's turn (R365, R366, R369). -/
def injectTake (r : Nat) (desc data : Bytes) (err : Nat) : M Unit := do
  let d ← get
  if d.injectNext ≠ some r then return ()
  if d.injectStopped then
    let _ ← poolTakeOrStall 1 1
    return ()
  let x := d.ring (16 + r)
  let served : M Unit := modify fun d => { d with host.injLast := nset d.host.injLast (d.o 0x5421 3 r) (r + 1) }
  if !injectOk desc then
    served
    incO 0x5421 2 r
    raiseLim 563 0x5406 1 r r x.head 0 3
    ringAdvance (16 + r) 10 [2#8]
  else if 0 < err then
    served
    dmaReadError 0 (err - 1) (ringOffset (16 + r))
    ringAdvance (16 + r) 10 [3#8]
  else
    let len := beAt desc 8 2
    let ok ← poolTakeOrStall 1 (poolUnits len)
    if ok then
      served
      incO 0x5421 1 r
      addO 0x5421 4 r len
      let d ← get
      let waiting := mget (dK []) d.host.inj r ++ [Inj.mk desc (fitTo len data) (poolUnits len)]
      set { d with host.inj := mset (dK []) d.host.inj r waiting }
      ringAdvance (16 + r) 10 [1#8]

/-! ### Management cores -/

/-- A message to the management cores through pool 2 (R311); it is dropped and counted while no core is in service (R454). -/
def toManagement (b : Bytes) : M Bool := do
  let d ← get
  if !d.anyCore then
    incO 0x4302 3 2
    return false
  else
    poolDrain 2
    let n := poolUnits b.length
    let ok ← poolTakeOrDrop 2 n
    if ok then
      poolKeep 2 n
      emit (.mgmt b)
    return ok

/-! ### Waiting pools -/

/-- The limit in force of pool `i` (R312; DESIGN CHOICE, log entry 9). -/
def Dev.poolLimit (d : Dev) (i : Nat) : Nat :=
  let j := d.oS 16 0x4301 3
  let f := d.poolFree (i / 8)
  min (d.o 0x4301 2 i) (d.o 0x4301 1 i + (if 0 ≤ j then 2 ^ j.toNat * f else f / 2 ^ (-j).toNat))

/-- A waiting pool's producers resume at seven eighths of the limit (R313). -/
def poolResume (i : Nat) : M Unit := do
  poolDrain i
  let d ← get
  match oget d.yard.poolStall i with
  | none => return ()
  | some t =>
    if d.o 0x4302 1 i * 8 ≤ 7 * d.poolLimit i then
      let now ← runNow
      set { d with yard.poolStall := oset d.yard.poolStall i none }
      addO 0x4302 4 i ((now - t) / uNs)

/-! ### Attachment and loss -/

/-- Disable the rings of function 0 and its batch engine (R373). -/
def Dev.stopFunction0 (d : Dev) : Dev :=
  { d with
    host.rings := d.host.rings.filterMap (fun e =>
      if e.1 = 34 then some e
      else
        let x : Ring := { e.2 with en := false, running := false }
        if x = {} then none else some (e.1, x))
    host.batch := mset (dK {}) d.host.batch 0 { mget (dK {}) d.host.batch 0 with en := false } }

/-- The staged image is discarded (R428): the update returns to state 0. -/
def updDiscard (cause : Nat) : M Unit := do
  let d ← get
  let kind := d.o 0x1420 2
  set { ((d.setO 0x1420 6 0 0).setO 0x1420 1 0 0) with sec.chunks := [] }
  raiseEv 548 0x1409 1 kind cause 0

/-- The update is in a state that holds a staged image which is not on trial. -/
def Dev.updStaged (d : Dev) : Bool := 1 ≤ d.o 0x1420 6 && d.o 0x1420 6 ≤ 4

/-- The host-vanished behaviour begins (R372, R373). -/
def hostVanish (cause : Nat) : M Unit := do
  let d ← get
  if d.o 0x5400 1 = 1 then
    let now ← runNow
    set { ((d.setO 0x5400 1 0 2).setO 0x5400 2 0 cause) with host.lostAt := now }
    incO 0x5400 4
    raiseEv 560 0x5401 2 cause ((now - d.host.beat) / uMs) 0
    modify Dev.stopFunction0
    loseBanks 0
    let d ← get
    if d.o 0x1420 1 = 1 ∧ d.updStaged then updDiscard 1

/-- The BAR0 registers of a function return to their defaults (R373). -/
def Dev.resetBar0 (d : Dev) (f : Nat) : Dev :=
  { d with
    host.rings := d.host.rings.filter (fun e => ringFunction e.1 != f)
    host.vectors := d.host.vectors.filter (fun e => e.1 / 64 != f)
    host.batch := d.host.batch.filter (fun e => e.1 != f)
    objWins := d.objWins.filter (fun e => e.1 / 4 != f)
    tblWins := d.tblWins.filter (fun e => e.1 / 16 != f) }

/-- The configuration space of function 0 returns to its defaults: D0, Bus Master Enable clear (PRESUMED of PCI Express, log entry 27). -/
def Dev.resetConfig (d : Dev) : Dev := { d with host.busMaster := false, host.d0 := true }

/-- The link goes down (R372 cause 1, R373). -/
def linkDown : M Unit := do
  setO 0x5401 1 0 0
  setO 0x5401 2 0 0
  hostVanish 1
  modify fun d => ((d.resetBar0 0).resetBar0 1).resetConfig

/-- The link trains, or retrains (R357, R375). Rate and width are packed as rate × 256 + width in the record (log entry 10). -/
def linkRetrain (rate width : Nat) : M Unit := do
  let d ← get
  if !d.host.perst then
    let r := d.o 0x5401 1
    let w := d.o 0x5401 2
    set ((d.setO 0x5401 1 0 rate).setO 0x5401 2 0 width)
    if r ≠ 0 then
      incO 0x5401 3
      if rate < r ∨ width < w then raiseEv 560 0x5403 2 (r * 256 + w) (rate * 256 + width) 0

/-- A write of 1 to HOST_ATTACH (R374). -/
def hostAttach : M Unit := do
  let d ← get
  if d.host.busMaster ∧ d.host.d0 ∧ d.o 0x5401 1 ≠ 0 ∧ d.o 0x5400 1 ≠ 1 then
    let now ← runNow
    let lost := d.o 0x5400 1 = 2
    set { d.setO 0x5400 1 0 1 with host.beat := now }
    raiseEv 560 0x5402 1 (d.o 0x5401 1) (d.o 0x5401 2) (if lost then (now - d.host.lostAt) / uS else 0)

/-- PERST_N is asserted (R375). -/
def perstAssert : M Unit := do
  let d ← get
  if !d.host.perst then
    set { d with host.perst := true, host.aer := [] }
    incO 0x5401 4
    raiseEv 560 0x5409 1 (d.o 0x5400 1) (d.o 0x5401 1) 0
    linkDown

/-! ### Meanings -/

/-- RING_CONFIG_WRITE (R360). -/
def execRingConfigWrite (r reg v : Nat) (s : State) := run (.ringConfigWrite r reg v) (ringConfigWrite r reg v) s

/-- RING_ENABLE (R360). -/
def execRingEnable (r : Nat) (ie : Bool) (s : State) := run (.ringEnable r ie) (ringEnable r ie) s

/-- RING_DISABLE (R360). -/
def execRingDisable (r : Nat) (s : State) := run (.ringDisable r) (ringDisable r) s

/-- RING_INTERRUPT_ENABLE (R368). -/
def execRingInterruptEnable (r : Nat) (on : Bool) (s : State) := run (.ringInterruptEnable r on) (ringInterrupt r on) s

/-- RING_ERROR_CLEAR (R360). -/
def execRingErrorClear (r : Nat) (s : State) := run (.ringErrorClear r) (ringErrorClear r) s

/-- RING_TAIL_POLL (R361). -/
def execRingTailPoll (r err : Nat) (s : State) := run (.ringTailPoll r err) (ringTailPoll r err) s

/-- PUNT_DELIVER (R363). -/
def execPuntDeliver (r : Nat) (desc : Bytes) (s : State) := run (.puntDeliver r desc) (puntDeliver r desc) s

/-- INJECT_TAKE (R366). -/
def execInjectTake (r : Nat) (desc data : Bytes) (err : Nat) (s : State) :=
  run (.injectTake r desc data err) (injectTake r desc data err) s

/-- MSIX_HOLDOFF_EXPIRY (R368). -/
def execMsixHoldoffExpiry (i : Nat) (s : State) :=
  run (.msixHoldoffExpiry i) (do
    let d ← get
    if d.vectorOn i ∧ 0 < (mget (dK ({} : Vector)) d.host.vectors i).count then msixSend i) s

/-- PCIE_ERROR (R369): kind 0 correctable, 1 uncorrectable. -/
def execPcieError (f kind aer : Nat) (s : State) :=
  run (.pcieError f kind aer) (do
    modify fun d => { d with host.aer := nset d.host.aer (f * 2 + kind) (nget d.host.aer (f * 2 + kind) ||| aer) }
    if kind = 0 then incO 0x5402 1
    else
      incO 0x5402 2
      raiseEv 561 0x5408 2 aer f 0) s

/-- BAR_UNMAPPED_ACCESS (R358, R370). -/
def execBarUnmappedAccess (s : State) := run .barUnmappedAccess (incO 0x5402 4) s

/-- LINK_RETRAIN (R357). -/
def execLinkRetrain (rate width : Nat) (s : State) := run (.linkRetrain rate width) (linkRetrain rate width) s

/-- The host configures function 0 before it attaches: `ready` says whether it leaves it in D0 with Bus Master Enable set. -/
def Dev.configured (d : Dev) (ready : Bool) : Dev :=
  if d.o 0x5400 1 = 1 then d else { d with host.busMaster := ready, host.d0 := d.host.d0 || ready }

/-- HOST_ATTACH (R374). -/
def execHostAttach (ready : Bool) (s : State) :=
  run (.hostAttach ready) (do
    modify fun d => d.configured ready
    hostAttach) s

/-- HOST_DETACH (R372, cause 5). -/
def execHostDetach (s : State) := run .hostDetach (hostVanish 5) s

/-- HOST_HEARTBEAT (R371). -/
def execHostHeartbeat (s : State) :=
  run .hostHeartbeat (do let now ← runNow; modify fun d => { d with host.beat := now }) s

/-- HOST_WDOG_EXPIRY (R372, cause 3). -/
def execHostWdogExpiry (s : State) :=
  run .hostWdogExpiry (do if (← getO 0x5400 3) ≠ 0 then hostVanish 3) s

/-- PCIE_LINK_DOWN (R372, cause 1). -/
def execPcieLinkDown (s : State) := run .pcieLinkDown linkDown s

/-- FUNCTION_LEVEL_RESET (R373; cause 2 on function 0). -/
def execFunctionLevelReset (f : Nat) (s : State) :=
  run (.functionLevelReset f) (do
    if f = 0 then hostVanish 2
    modify fun d => if f = 0 then (d.resetBar0 0).resetConfig else d.resetBar0 f) s

/-- BUS_MASTER_DISABLE (R372, cause 2). -/
def execBusMasterDisable (s : State) :=
  run .busMasterDisable (do
    hostVanish 2
    modify fun d => { d with host.busMaster := false }) s

/-- D3HOT_ENTRY (R372, cause 2). -/
def execD3hotEntry (s : State) :=
  run .d3hotEntry (do
    hostVanish 2
    modify fun d => { d with host.d0 := false }) s

/-- PERST_ASSERT (R375). -/
def execPerstAssert (s : State) := run .perstAssert perstAssert s

/-- PERST_RELEASE (R375): the link trains. -/
def execPerstRelease (rate width : Nat) (s : State) :=
  run (.perstRelease rate width) (do
    modify fun d => { d with host.perst := false }
    linkRetrain rate width) s

end Sys2Proof.Machine
end

