-- ==== Sys2Proof/Machine/Gates.lean ====
section
/-! DEFINITION. Port rates and times, and gate lists (03, 11, 12): where a list stands at a network time, the combined timeline of
a pending change or step (R297), gate_open and next_opening (R294, R330). Times are device times in 2^-16 ns unless said. -/

namespace Sys2Proof.Machine

/-- The rate of a port mode in Gb/s (R66). -/
def modeRate (m : Nat) : Nat :=
  match m with
  | 1 => 100 | 2 => 200 | 3 => 200 | 4 => 400 | 5 => 400 | 6 => 800
  | 0x11 => 100 | 0x12 => 200 | 0x14 => 400 | 0x16 => 800 | _ => 800

/-- The rate of a port in Gb/s. -/
def Dev.rate (d : Dev) (p : Nat) : Nat := modeRate (d.o 0x2400 1 p)

/-- `w(b)`: the time of `b` bytes at the port rate, in 2^-16 ns, rounded down (R294; log entry 11). -/
def Dev.wOf (d : Dev) (p b : Nat) : Nat := b * 8 * 65536 / d.rate p

/-- The same rounded up: when the last of `b` bytes has left. -/
def Dev.wUp (d : Dev) (p b : Nat) : Nat := ceilDiv (b * 8 * 65536) (d.rate p)

/-- The number of slots of a slotted mode (R66). -/
def modeSlots (m : Nat) : Nat :=
  match m with
  | 0x11 => 20 | 0x12 => 40 | 0x14 => 80 | 0x16 => 160 | _ => 0

/-- The number of lanes a mode uses (R66). -/
def modeLanes (m : Nat) : Nat :=
  match m with
  | 1 => 1 | 2 => 1 | 3 => 2 | 4 => 2 | 5 => 4 | 6 => 4
  | 0x11 => 1 | 0x12 => 1 | 0x14 => 2 | 0x16 => 4 | _ => 4

/-- The lanes that a port's mode uses. -/
def Dev.lanesOf (d : Dev) (p : Nat) : List Nat := (List.range (modeLanes (d.o 0x2400 1 p))).map (fun k => 4 * p + k)

/-- The time-stamps of a port lie within R91: locked or held time base, calibrated lanes, state 3, clock within R77, which is read as
2400h.07 clear (DESIGN CHOICE, log entry 140). -/
def Dev.stampGood (d : Dev) (p : Nat) : Bool :=
  !d.slotted p && (d.o 0x1800 2 == 2 || d.o 0x1800 2 == 3) && (d.lanesOf p).all (fun l => d.o 0x2030 3 l == 0) &&
    d.o 0x2400 3 p == 3 && !d.oB 0x2400 7 p

/-- E(p) in ns (R293): the transmit PHY term of R68 plus 127 ns. -/
def Dev.egressPathNs (d : Dev) (p : Nat) : Nat :=
  match d.rate p with | 100 => 437 | 200 => 302 | 400 => 252 | _ => 227

/-- The port is in state 3 or 4 (R81). -/
def Dev.portUp (d : Dev) (p : Nat) : Bool := d.o 0x2400 3 p == 3 || d.o 0x2400 3 p == 4

/-- The transmitter of a port is stopped (R83): 2440h.03 on an Ethernet port; a slotted port sends in every state but 0 and 6 while
its transmit island runs. -/
def Dev.txStopped (d : Dev) (p : Nat) : Bool :=
  if d.slotted p then d.o 0x2400 3 p == 0 || d.o 0x2400 3 p == 6 || bitOf (d.o 0x2440 1 p) 8 else d.oB 0x2440 3 p

/-- Preemption is active on a port (R325). -/
def Dev.preempting (d : Dev) (p : Nat) : Bool := d.o 0x4410 3 p == 2 && !d.slotted p

/-! ### Gate lists -/

/-- A gate list: whether it runs, its cycle and base, and its entries as (gates, interval), times in 2^-16 ns. Gate bit 8 is
the bounded gate. -/
structure GateList where
  on : Bool
  cycle : Nat
  base : Nat
  ents : List (Nat × Nat)
  deriving DecidableEq, Repr

/-- A staged object's value in the new bank. -/
def Dev.newObj (d : Dev) (ix sub i : Nat) : Nat :=
  match oget d.dict.shadow (okey ix sub i) with
  | some v => v
  | none => d.o ix sub i

/-- The gate list of a port, of the bank in force or of the new bank (R328, R329). -/
def Dev.gateList (d : Dev) (p : Nat) (new : Bool) : GateList :=
  let g := fun ix sub i => if new then d.newObj ix sub i else d.o ix sub i
  let n := g 0x4431 1 p
  { on := g 0x4431 5 p == 1 && decide (1 ≤ n ∧ n ≤ 256) && !d.slotted p
    cycle := g 0x4431 2 p * uNs
    base := ofT80 (g 0x4431 3 p)
    ents := if g 0x4431 5 p == 1 && decide (1 ≤ n ∧ n ≤ 256) then
        (List.range n).map (fun k => let e := g 0x4430 1 (p * 256 + k); (e >>> 32 % 512, e % 2 ^ 32 * uNs))
      else [] }

/-- The entry in force at `pos` within a cycle: number, gates, and where it ends (R329). -/
def entryAt (cycle pos : Nat) : List (Nat × Nat) → Nat → Nat → Nat × Nat × Nat
  | [], k, _ => (k, 0, cycle)
  | [e], k, _ => (k, e.1, cycle)
  | e :: r, k, t =>
    let stop := min cycle (t + e.2)
    if pos < stop then (k, e.1, stop) else entryAt cycle pos r (k + 1) stop

/-- Where a list stands at network time `n`: entry, gates, and when the entry ends (none: never). -/
def GateList.at (g : GateList) (n : Int) : Nat × Nat × Option Int :=
  if g.on ∧ 0 < g.cycle then
    let pos := ((n - g.base) % g.cycle).toNat
    let (k, m, e) := entryAt g.cycle pos g.ents 0 0
    (k, m, some (n - pos + e))
  else (0, 0x1FF, none)

/-- The first cycle start of a list at or after network time `n`; without a running list, the first whole microsecond (R331). -/
def GateList.startFrom (g : GateList) (n : Nat) : Nat :=
  if g.on ∧ 0 < g.cycle then (n + (((g.base : Int) - n) % g.cycle).toNat) else ceilDiv n uUs * uUs

/-! ### The combined timeline (R297) -/

/-- How far a pending step moves network time (R98). -/
def Step.delta (s : Step) : Int := if s.absolute then (s.amount : Int) - s.apply else toS 64 s.amount

/-- Network time less device time: now, and after the pending step. -/
def Dev.offsets (d : Dev) (c : Clock) : Int × Int :=
  let o := (c.net : Int) - c.dev
  match d.time.step with
  | some s => (o, o + s.delta)
  | none => (o, o)

/-- The device time at which the pending step applies. -/
def Dev.stepDev (d : Dev) (c : Clock) : Option Nat :=
  match d.time.step with
  | some s => some (((s.apply : Int) - ((c.net : Int) - c.dev)).toNat)
  | none => none

/-- The device time of a network time before the step, or after it. -/
def Dev.devOf (d : Dev) (c : Clock) (n : Nat) : Nat :=
  let (o0, o1) := d.offsets c
  let t := ((n : Int) - o0).toNat
  match d.stepDev c with
  | some s => if t < s then t else max s ((n : Int) - o1).toNat
  | none => t

/-- The gates of port `p` at device time `t`, and until when they hold. -/
def Dev.gatesAt (d : Dev) (c : Clock) (p t : Nat) : Nat × Option Nat :=
  let (o0, o1) := d.offsets c
  let sd := d.stepDev c
  let after : Bool := match sd with | some s => decide (s ≤ t) | none => false
  let off := if after then o1 else o0
  let chg := (oget d.eg.change p).map (fun g => d.devOf c g.eff)
  let new : Bool := match chg with | some x => decide (x ≤ t) | none => false
  let (_, m, e) := (d.gateList p new).at ((t : Int) + off)
  let cut := fun (x : Option Nat) (y : Option Nat) =>
    match x, y with
    | some a, some b => if t < b then some (min a b) else some a
    | none, some b => if t < b then some b else none
    | x, none => x
  (m, cut (cut (e.map (fun n => max (t + 1) ((n - off).toNat))) sd) chg)

/-- A gate stays open from `s` to `e` (R294, R317). -/
def Dev.gateOpen (d : Dev) (c : Clock) (p bit : Nat) : Nat → Nat → Nat → Bool
  | 0, _, _ => false
  | fuel + 1, s, e =>
    let (m, stop) := d.gatesAt c p s
    if !bitOf m bit then false
    else match stop with
      | none => true
      | some x => if e ≤ x then true else d.gateOpen c p bit fuel x e

/-- The next opening of a gate after `s`: from where it is closed, the next instant it opens. -/
def Dev.scanOpen (d : Dev) (c : Clock) (p bit : Nat) : Nat → Nat → Bool → Option Nat
  | 0, _, _ => none
  | fuel + 1, s, closed =>
    let (m, stop) := d.gatesAt c p s
    if bitOf m bit ∧ closed then some s
    else match stop with
      | none => none
      | some x => d.scanOpen c p bit fuel x (closed || !bitOf m bit)

/-- next_opening (R294). A list that opens nothing in two cycles opens nothing before the next change or step. -/
def Dev.nextOpening (d : Dev) (c : Clock) (p bit s : Nat) : Option Nat :=
  match d.scanOpen c p bit 1100 s false with
  | some t => some t
  | none =>
    let later := (match d.stepDev c with | some x => [x] | none => []) ++
      (match oget d.eg.change p with | some g => [d.devOf c g.eff] | none => [])
    let later := match later with
      | [x, y] => [min x y, max x y]
      | l => l
    (later.filter (fun x => s < x)).foldl (fun a x => match a with
      | some t => some t
      | none => d.scanOpen c p bit 1100 x true) none

/-- A frame of `b` bytes fits from device time `t`: its gate stays open to its last byte (R317). -/
def Dev.fits (d : Dev) (c : Clock) (p bit t b : Nat) : Bool := d.gateOpen c p bit 1100 t (t + d.wOf p (b + 8))

/-- B(p) in bytes (R292), the larger of old and new while a preemption change is pending (R326). -/
def Dev.blockBytes (d : Dev) (p : Nat) : Nat :=
  let now := if d.preempting p then 227 else 16487
  match oget d.eg.change p with
  | none => now
  | some _ =>
    if d.newObj 0x4410 1 p = 1 ∧ (d.newObj 0x4410 2 p = 0 ∨ d.preempting p) then now else 16487

/-! ### Latencies (R90) -/

/-- The mean of the factory latencies of the lanes in use, in 2^-16 ns: receive (1) or transmit (2). -/
def Dev.tsMean (d : Dev) (p sub : Nat) : Int :=
  let ls := d.lanesOf p
  let one := fun l => if (mget (dK ({} : LaneSt)) d.lanes l).generic.contains (11 + sub) then (if sub = 1 then 48 else 52) * 65536 else d.oS 32 0x7810 sub l
  (ls.foldl (fun a l => a + one l) (0 : Int)) / (ls.length : Int)

/-- The effective latency of a port in 2^-16 ns. -/
def Dev.tsEff (d : Dev) (p sub : Nat) : Nat :=
  (clampI 0 (2000 * 65536) (d.tsMean p sub + d.oS 32 0x1810 sub p)).toNat

/-- By how much a time-stamp lies off its time-stamp point, the latency itself being taken as the mean of the factory latencies
(DEDUCED, log entry 24). A frame of a tributary is not corrected (R92). -/
def Dev.tsShift (d : Dev) (p sub : Nat) : Int :=
  if d.slotted p then 0
  else if sub = 1 then d.tsMean p 1 - d.tsEff p 1
  else d.tsEff p 2 - d.tsMean p 2

/-- A time moved by a shift. -/
def shiftTime (t : Nat) (x : Int) : Nat := ((t : Int) + x).toNat

end Sys2Proof.Machine
end

