-- ==== Sys2Proof/Machine/Parser.lean ====
section
/-! DEFINITION. Parsing (07): the header graph walk with its length checks (R164 to R167), key selectors (R171), the symmetric
hash (R169), the pre-class (R162). -/

namespace Sys2Proof.Machine

/-- `w` bits from bit offset `o` of octets, bit 0 the most significant of the first octet. -/
def bitsAt (b : Bytes) (o w : Nat) : Nat :=
  if w = 0 then 0
  else
    let first := o / 8
    let last := (o + w - 1) / 8
    (beAt b first (last - first + 1)) >>> (8 * (last + 1) - (o + w)) % 2 ^ w

/-- What a parse gives. -/
structure Parsed where
  /-- (HDR_ID, offset, LEN_KIND), in walk order. -/
  hdrs : List (Nat × Nat × Nat) := []
  fields : PMap Nat := []
  wofs : PMap Nat := []
  presence : Nat := 0
  dend : Option Nat := none
  claim : Option Nat := none
  trunc : Bool := false
  /-- Cause of inconsistency, 0 none. -/
  incons : Nat := 0
  unknown : Option Nat := none
  deriving DecidableEq, Repr

/-- The header length of a state entry at `off`, or none where its field lies beyond byte 511 (R164, R165). -/
def hdrLen (e data : Bytes) (off : Nat) : Option Nat :=
  let x := beAt e 2 2
  let add := byteAt e 4
  if x = 0 then some add
  else
    let o := off * 8 + fld x 6 10
    let w := fld x 2 4 + 1
    if 512 * 8 < o + w then none else some (bitsAt data o w <<< (x % 4) + add)

/-- The length check of a header (R166, R167): the cause of inconsistency (0 none) and the datagram end it claims. -/
def lenCheck (kind : Nat) (trust : Bool) (data : Bytes) (h : Nat) (dend : Option Nat) : Nat × Option Nat :=
  let past := fun (x : Nat) => match dend with | some q => decide (q < x) | none => false
  let claim := fun (bad : Bool) (cause x : Nat) =>
    if trust then (0, none) else if bad || past x then (cause, none) else (0, some x)
  match kind with
  | 1 =>
    let ihl := byteAt data h % 16
    let tot := beAt data (h + 2) 2
    if ihl < 5 then (1, none) else claim (decide (tot < ihl * 4)) 2 (h + tot)
  | 2 => claim false 3 (h + 40 + beAt data (h + 4) 2)
  | 3 => let n := beAt data (h + 4) 2; claim (decide (n < 8)) 4 (h + n)
  | 5 => if byteAt data (h + 12) / 16 < 5 then (1, none) else (0, none)
  | _ => (0, none)

/-- One extraction of a state (R164), if it lies within the frame and byte 511. -/
def extractOne (e data : Bytes) (off n : Nat) (p : Parsed) (k : Nat) : Parsed :=
  let o := off * 8 + beAt e (172 + 4 * k) 2
  let w := byteAt e (174 + 4 * k)
  let dst := byteAt e (175 + 4 * k)
  if w = 0 ∨ min 512 n * 8 < o + w then p
  else { p with fields := nset p.fields dst (bitsAt data o w), wofs := nset p.wofs dst (o + w) }

/-- The next state after a header: the first transition that matches, else the default (R164, R165). None where the selector
lies beyond byte 511. -/
def nextState (e data : Bytes) (off : Nat) : Option Nat :=
  let s := beAt e 10 2
  let w := fld s 0 6
  let o := off * 8 + fld s 6 10
  if w = 0 then some (beAt e 8 2)
  else if 512 * 8 < o + w then none
  else
    let v := bitsAt data o w
    let t := (List.range 16).find? fun k =>
      let b := 12 + 10 * k
      bitOf (beAt e (b + 8) 2) 14 && (v &&& beAt e (b + 4) 4) == (beAt e b 4 &&& beAt e (b + 4) 4)
    some (match t with | some k => beAt e (20 + 10 * k) 2 | none => beAt e 8 2)

/-- The walk of the header graph from state `s` at `off`, with `left` headers still allowed (R165). -/
def walk (graph : Nat → Option Nat) (data : Bytes) (n : Nat) (trust : Bool) : Nat → Nat → Nat → Parsed → Parsed
  | 0, _, _, p => { p with trunc := true }
  | left + 1, s, off, p =>
    match graph s with
    | none => { p with unknown := some s }
    | some x =>
      let e := toBytes 204 x
      let ctrl := byteAt e 1
      if !bitOf ctrl 7 then { p with unknown := some s }
      else match hdrLen e data off with
        | none => { p with trunc := true }
        | some len =>
          if n < off + len then { p with incons := 6 }
          else if 512 < off + len then { p with trunc := true }
          else if (match p.dend with | some q => decide (q < off + len) | none => false) then { p with incons := 5 }
          else
            let (cause, c) := lenCheck (fld ctrl 4 3) trust data off p.dend
            if cause ≠ 0 then { p with incons := cause }
            else
              let p := match c with
                | some x => { p with dend := some x, claim := some (max x (p.claim.getD 0)) }
                | none => p
              let p := { p with
                hdrs := p.hdrs ++ [(byteAt e 0, off, fld ctrl 4 3)]
                presence := p.presence ||| 2 ^ byteAt e 0 }
              let p := (List.range 8).foldl (extractOne e data off n) p
              match nextState e data off with
              | none => { p with trunc := true }
              | some t => if bitOf t 15 then p else walk graph data n trust left (t % 256) (off + len) p

/-- Parse a frame of a port under a bank (R165). -/
def Dev.parse (d : Dev) (bank port : Nat) (data : Bytes) : Parsed :=
  walk (fun s => d.tblB bank 0x3000 1 s) data (data.length - 4) (d.ob bank 0x3010 4 port == 1) 24 (d.ob bank 0x3010 1 port) 0 {}

/-! ### Keys -/

/-- The 32-bit word of a key selector byte (R171). -/
def keyWord (fields : PMap Nat) (tenon presence : Nat) (v : Nat) : Nat :=
  if v < 0x80 then nget fields v
  else if v < 0x90 then fld tenon (32 * (v - 0x80)) 32
  else if v < 0x98 then fld presence (32 * (v - 0x90)) 32
  else 0

/-- A key from a list of selectors, selector 0 most significant (R171). -/
def keyOf (fields : PMap Nat) (tenon presence : Nat) (sel : Bytes) : Nat :=
  sel.foldl (fun a x => a <<< 32 + keyWord fields tenon presence x.toNat) 0

/-! ### The symmetric hash (R169) -/

/-- An address of `n` words from word `w`, in 16 bytes. -/
def hashAddr (fields : PMap Nat) (n w : Nat) : Nat :=
  if n = 0 ∨ w = 0xFF then 0
  else if n = 1 then 0xFFFF <<< 32 + nget fields w % 2 ^ 32
  else (List.range 4).foldl (fun a k => a <<< 32 + nget fields (w + k) % 2 ^ 32) 0

/-- What the hash of a profile gives: HASH, DIR, and the ordered pairs. -/
structure HashOut where
  hash : Nat
  dir : Nat
  addrWords : Nat
  aAddr : Nat
  aPort : Nat
  bAddr : Nat
  bPort : Nat
  proto : Nat
  deriving DecidableEq, Repr

/-- The symmetric hash of profile `h` under a bank. -/
def Dev.hash (d : Dev) (bank h : Nat) (fields : PMap Nat) (context : Nat) : HashOut :=
  let o := fun sub => d.ob bank 0x3050 sub h
  let low := fun (w bits : Nat) => if w = 0xFF then 0 else nget fields w % 2 ^ bits
  let n := o 1
  let sa := hashAddr fields n (o 2)
  let da := hashAddr fields n (o 3)
  let sp := low (o 4) 16
  let dp := low (o 5) 16
  let pr := low (o 6) 8
  let fwd := decide (sa <<< 16 + sp ≤ da <<< 16 + dp)
  let (aa, ap, ba, bp) := if fwd then (sa, sp, da, dp) else (da, dp, sa, sp)
  let bytes := toBytes 16 aa ++ toBytes 2 ap ++ toBytes 16 ba ++ toBytes 2 bp ++ toBytes 1 pr ++ toBytes 4 context
  ⟨crc32c bytes, (if fwd then 0 else 1), n, aa, ap, ba, bp, pr⟩

/-! ### The pre-class (R162) -/

/-- A VLAN EtherType. -/
def isVlan (t : Nat) : Bool := t == 0x8100 || t == 0x88A8

/-- The pre-class of a frame of port `p` under a bank. -/
def Dev.preClass (d : Dev) (bank p : Nat) (data : Bytes) : Nat :=
  let dflt := d.ob bank 0x3010 6 p
  let t0 := beAt data 12 2
  match d.ob bank 0x3010 5 p with
  | 1 => if isVlan t0 then d.ob bank 0x3011 1 (p * 8 + byteAt data 14 / 32) else dflt
  | 2 =>
    let o := if isVlan t0 then (if isVlan (beAt data 16 2) then 20 else 16) else 12
    let t := beAt data o 2
    if t = 0x0800 then d.ob bank 0x3012 1 (p * 64 + byteAt data (o + 3) / 4)
    else if t = 0x86DD then d.ob bank 0x3012 1 (p * 64 + fld (beAt data (o + 2) 2) 6 6)
    else dflt
  | _ => dflt

end Sys2Proof.Machine
end

