-- ==== Sys2Proof/Machine/Edit.lean ====
section
/-! DEFINITION. The egress edit of a frame: congestion and DSCP marks (R289, R298), address rewriting (R219), one-step time-stamp
insertion (R99 to R102), checksums and FCS by difference (R100). -/

namespace Sys2Proof.Machine

/-- The weighted sum of octets `[lo, lo + n)` as 16-bit words aligned on `base` (R100). -/
def wordSum (b : Bytes) (lo n base : Nat) : Nat :=
  (List.range n).foldl (fun a k => a + byteAt b (lo + k) * (if (lo + k + base) % 2 = 0 then 256 else 1)) 0

/-- An Internet checksum updated by ones'-complement difference for octets `[lo, lo + n)` that changed from `old` to `new`: a sum of
FFFFh gives 0000h (R100). -/
def csumFix (c : Nat) (old new : Bytes) (lo n base : Nat) : Nat :=
  let s := (0xFFFF - c) + wordSum new lo n base + n * 0xFFFF * 256 - wordSum old lo n base
  let f := s % 0xFFFF
  if f = 0 then 0 else 0xFFFF - f

/-- Write `n` octets of a number at an offset. -/
def putBe (b : Bytes) (o n v : Nat) : Bytes := overlay b o (toBytes n v)

/-- Write `w` bits that end at bit offset `e`. -/
def putBits (b : Bytes) (e w v : Nat) : Bytes :=
  let first := (e - w) / 8
  let last := (e - 1) / 8
  let n := last - first + 1
  putBe b first n (putFld (beAt b first n) (8 * (last + 1) - e) w v)

/-- The first IP header of a header vector: (version, offset), by the kinds of 4002h, when its offset is at most 255 (R289). -/
def Dev.ipHeader (d : Dev) (hdrs : List (Nat × Nat × Nat)) : Option (Nat × Nat) :=
  let k4 := d.o 0x4002 1
  let k6 := d.o 0x4002 2
  match hdrs.find? (fun h => h.1 != 0xFF && (h.1 == k4 || h.1 == k6)) with
  | some (k, o, _) => if o ≤ 255 then some (if k = k4 then 4 else 6, o) else none
  | none => none

/-- The traffic-class octet (DSCP and ECN) of an IP header. -/
def ipTos (b : Bytes) (v o : Nat) : Nat := if v = 4 then byteAt b (o + 1) else fld (beAt b o 2) 4 8

/-- The frame is of an ECN-capable transport (R289), by the IP header recorded at ingress. -/
def Frame.isEct (f : Frame) : Bool :=
  match f.ip with
  | some (v, o) => ipTos f.data v o % 4 != 0
  | none => false

/-- Write the traffic-class octet, repairing an IPv4 header checksum by difference. -/
def putTos (b : Bytes) (v o t : Nat) : Bytes :=
  if v = 4 then
    let n := putBe b (o + 1) 1 t
    putBe n (o + 10) 2 (csumFix (beAt b (o + 10) 2) b n o 2 (o % 2))
  else putBe b o 2 (putFld (beAt b o 2) 4 8 t)

/-- The mark of a copy (R289, R298). -/
def markEdit (f : Frame) (c : Copy) (b : Bytes) : Bytes :=
  match f.ip with
  | none => b
  | some (v, o) =>
    let t := ipTos b v o
    let t := if bitOf c.mark 1 then c.dscp * 4 + t % 4 else t
    let t := if bitOf c.mark 0 then t ||| 3 else t
    if c.mark = 0 then b else putTos b v o t

/-- The transport header of a frame: LEN_KIND 3 UDP or 5 TCP, the first after offset `o` (log entry 12). -/
def l4After (f : Frame) (o : Nat) : Option (Nat × Nat) :=
  (f.hdrs.find? (fun h => decide (o < h.2.1) && (h.2.2 == 3 || h.2.2 == 5))).map (fun h => (h.2.2, h.2.1))

/-- The IPv4 header that holds offset `o`: the last one at or before it. -/
def ip4Before (f : Frame) (o : Nat) : Option Nat :=
  ((f.hdrs.filter (fun h => h.2.2 == 1 && decide (h.2.1 ≤ o))).getLast?).map (fun h => h.2.1)

/-- Repair a TCP or UDP checksum for octets that changed. -/
def l4Fix (l4 : Option (Nat × Nat)) (old new : Bytes) (lo n : Nat) : Bytes :=
  match l4 with
  | none => new
  | some (k, o) =>
    let c := o + (if k = 3 then 6 else 16)
    let v := beAt new c 2
    if v = 0 then new
    else
      let w := csumFix v old new lo n (lo % 2)
      putBe new c 2 (if k = 3 ∧ w = 0 then 0xFFFF else w)

/-- The rewriting of R219: address and port of the profile's source words (SIDE 1) or destination words (SIDE 2). -/
def Dev.natEdit (d : Dev) (f : Frame) (b : Bytes) : Bytes :=
  let h := f.tf 274 4
  let src := f.natSide == 1
  let n := d.ob f.bank 0x3050 1 h
  let wa := d.ob f.bank 0x3050 (if src then 2 else 3) h
  let wp := d.ob f.bank 0x3050 (if src then 4 else 5) h
  let addr := f.tf 56 128
  let ends := fun w => nget f.wofs w
  let b1 :=
    if n = 1 ∧ wa ≠ 0xFF ∧ ends wa ≠ 0 then
      let o := ends wa / 8 - 4
      let x := putBits b (ends wa) 32 addr
      let x := match ip4Before f o with
        | some i => putBe x (i + 10) 2 (csumFix (beAt b (i + 10) 2) b x o 4 ((o + i + o) % 2))
        | none => x
      l4Fix (l4After f o) b x o 4
    else if n = 4 ∧ wa ≠ 0xFF ∧ ends wa ≠ 0 then
      let o := ends wa / 8 - 4
      let x := (List.range 4).foldl (fun x k => if ends (wa + k) = 0 then x else putBits x (ends (wa + k)) 32 (fld addr (96 - 32 * k) 32)) b
      l4Fix (l4After f o) b x o 16
    else b
  if f.natPort ≠ 0 ∧ wp ≠ 0xFF ∧ ends wp ≠ 0 then
    let o := ends wp / 8 - 2
    let x := putBits b1 (ends wp) 16 f.natPort
    let l4 := ((f.hdrs.filter (fun h => (h.2.2 == 3 || h.2.2 == 5) && decide (h.2.1 ≤ o))).getLast?).map (fun h => (h.2.2, h.2.1))
    l4Fix l4 b1 x o 2
  else b1

/-- An address of one family does not fit the frame of the other (R219). -/
def Dev.natMismatch (d : Dev) (f : Frame) : Bool :=
  let v4 := decide (fld (f.tf 56 128) 32 96 = 0xFFFF)
  let n := d.ob f.bank 0x3050 1 (f.tf 274 4)
  (n == 1 && !v4) || (n == 4 && v4) || n == 0

/-- The asymmetry that a message of a type takes up in this device (R99; PRESUMED from IEEE 1588-2019, log entry 15): Delay_Req and
Pdelay_Req lose that of the egress port, Sync and Pdelay_Resp gain that of the ingress port, other messages take none. -/
def Stamp.asym (t : Stamp) (mt : Nat) : Int :=
  if mt = 1 ∨ mt = 2 then -t.asymOut else if mt = 0 ∨ mt = 3 then t.asymIn else 0

/-- The time-stamp of a frame that goes out on port `p`, fixed at device time `at0` and network time `net0` (R99). -/
def Dev.stamp (d : Dev) (f : Frame) (p at0 net0 : Nat) : Stamp :=
  { at0 := at0, net0 := net0, asymOut := d.oS 32 0x1810 5 p, asymIn := d.oS 32 0x1810 5 f.port, delay := d.oS 32 0x1810 6 f.port
    slotted := d.slotted p }

/-- What a one-step insertion does (R99, R102): the new octets, or the cause it is skipped for; and whether a correction
overflowed. A frame that arrived on a tributary is refused on an Ethernet port too (R92; DESIGN CHOICE, log entry 140). -/
def oneStep (f : Frame) (t : Stamp) (b : Bytes) : Except Nat (Bytes × Bool) :=
  let kind := f.tf 376 2
  let tf := f.tf 368 8
  let cs := f.tf 360 8
  let corr := if kind = 1 then tf - 26 else tf
  let end_ := if kind = 1 then tf + 10 else tf + 8
  let overlap := fun (a n : Nat) => decide (cs ≠ 0 ∧ a < cs + 2 ∧ cs < a + n)
  if t.slotted ∨ f.origin = 1 then .error 3      -- R92
  else if 256 < end_ ∨ 256 < cs + 2 ∧ cs ≠ 0 ∨ kind = 1 ∧ tf < 26 then .error 0
  else if overlap corr 8 || (kind == 1 && overlap tf 10) then .error 1
  else if b.length < max end_ (if cs = 0 then 0 else cs + 2) + 4 then .error 2
  else
    let old := toS 64 (beAt b corr 8)
    let frac := t.net0 % 65536
    let asym := t.asym (byteAt b (corr - 8) % 16)
    let add : Int := if kind = 1 then frac else (t.at0 : Int) - f.t0 + asym + t.delay
    let overs := decide (2 ^ 63 ≤ old + add ∨ old + add < -(2 ^ 63))
    let x := putBe b corr 8 (if overs then 2 ^ 63 - 1 else ofS 64 (old + add))
    let x := if kind = 1 then putBe (putBe x tf 6 (t.net0 / uS)) (tf + 6) 4 (t.net0 / uNs % 1000000000) else x
    let c := beAt b cs 2
    let x := if cs = 0 ∨ c = 0 then x
      else
        let lo := corr
        let n := end_ - corr
        let w := csumFix c b x lo n (cs % 2)
        putBe x cs 2 (if w = 0 then 0xFFFF else w)
    .ok (x, overs)

/-- The FCS of an edited frame, by the CRC difference of its body (R100): `old` and `new` with their FCS octets. -/
def fcsFix (old new : Bytes) : Bytes :=
  let n := old.length - 4
  let ob := old.take n
  let nb := new.take n
  let d := crc32 ob ^^^ crc32 nb
  let f := new.drop n
  nb ++ (List.range 4).map (fun k => f.getD k 0#8 ^^^ BitVec.ofNat 8 (d >>> (8 * k)))

/-- The stomped FCS of octets without FCS (R303): the computed FCS XOR 5A5A5A5Ah. -/
def stompFcs (body : Bytes) : Bytes := body ++ (fcsBytes body).map (· ^^^ 0x5A#8)

/-- The octets that a copy of a frame sends, fixed at its egress time-stamp (R99), with FCS; counts insertions and failed
rewrites. A mirror copy is the frame as received, cut to its session's length (R391). -/
def egressData (f : Frame) (c : Copy) (t : Stamp) : M Bytes := do
  let d ← get
  if c.kind = 1 then
    let n := d.o 0x6060 4 c.session
    return if n ≠ 0 ∧ n < f.data.length then (let b := f.data.take (n - 4); b ++ fcsBytes b) else f.data
  if f.origin = 4 then return f.data
  let b := markEdit f c f.data
  let b ← if f.natSide ≠ 0 then
      if d.natMismatch f then do
        incO 0x3830 0x16 f.sill
        pure b
      else pure (d.natEdit f b)
    else pure b
  let kind := f.tf 376 2
  let b ← if kind = 1 ∨ kind = 2 then
      match oneStep f t b with
      | .ok (x, overs) => do
        incO 0x1830 1 c.port
        if overs then
          incO 0x1830 2 c.port
          raiseLim 530 0x1806 1 c.port c.port 4 0 3
        pure x
      | .error k => do
        incO 0x1830 2 c.port
        raiseLim 530 0x1806 1 c.port c.port k 0 3
        pure b
    else pure b
  return if b = f.data then b else fcsFix f.data b

end Sys2Proof.Machine
end

