-- ==== Sys2Proof/Machine/Sched.lean ====
section
/-! DEFINITION. What admission and the egress scheduler share (11, 12): buffer accounts (R286), queues becoming active (R322,
R323), credit-based shapers (R324), pause towards the partner (R337). -/

namespace Sys2Proof.Machine

/-- The queue of a port, class and sub-queue (R172). -/
def queueId (p c s : Nat) : Nat := p * 128 + c * 16 + s

/-- A copy's queue. -/
def Copy.q (c : Copy) : Nat := queueId c.port c.tc c.subq

/-- The frames of a queue, oldest first. -/
def Dev.queue (d : Dev) (q : Nat) : List Copy := mget (dK []) d.yard.queues q

/-- Replace a queue. -/
def Dev.setQueue (d : Dev) (q : Nat) (l : List Copy) : Dev := { d with yard.queues := mset (dK []) d.yard.queues q l }

/-- The bounded FIFO of a port. -/
def Dev.fifoB (d : Dev) (p : Nat) : List Copy := mget (dK []) d.yard.bounded p

/-- Replace it. -/
def Dev.setFifoB (d : Dev) (p : Nat) (l : List Copy) : Dev := { d with yard.bounded := mset (dK []) d.yard.bounded p l }

/-- The bounded FIFO of a packet-client tributary. -/
def Dev.fifoT (d : Dev) (e : Nat) : List Copy := mget (dK []) d.yard.tribBounded e

/-- Replace it. -/
def Dev.setFifoT (d : Dev) (e : Nat) (l : List Copy) : Dev := { d with yard.tribBounded := mset (dK []) d.yard.tribBounded e l }

/-- The residue of a queue. -/
def Dev.residue (d : Dev) (q : Nat) : List ResEntry := mget (dK []) d.yard.residues q

/-- Replace a residue; 4052h.02 counts the entries of the device. -/
def Dev.setResidue (d : Dev) (q : Nat) (l : List ResEntry) : Dev :=
  let n := d.o 0x4052 2 - (d.residue q).length + l.length
  { d.setO 0x4052 2 0 n with yard.residues := mset (dK []) d.yard.residues q l }

/-- The copy as its queue or FIFO holds it now, with the cells it has grown to. -/
def Dev.currentCopy (d : Dev) (c : Copy) : Copy :=
  let l := if c.bounded then (match c.trib with | some e => d.fifoT e | none => d.fifoB c.port) else d.queue c.q
  (l.find? (fun x => x.frame == c.frame && x.idx == c.idx)).getD c

/-! ### Packet-client tributaries of a port -/

/-- Slots of port `p` (R109). -/
def Dev.slotsOf (d : Dev) (p : Nat) : Nat := modeSlots (d.o 0x2400 1 p)

/-- The ports of a bonded group (R131): a 16-bit number per member. Members are numbered over the gaps that unused ones leave (DESIGN
CHOICE, log entry 142). -/
def bondPorts (v : Nat) : List Nat := ((List.range 8).map (fun m => fld v (112 - 16 * m) 16)).filter (· ≠ 0xFFFF)

/-- The formed bonded group that a port belongs to (R132). -/
def Dev.bondOf (d : Dev) (p : Nat) : Option Nat :=
  (List.range 31).find? fun g =>
    let s := d.o 0x2850 2 g
    (s == 1 || s == 2 || s == 4) && (bondPorts (d.o 0x2850 1 g)).contains p

/-- The ports of the line that port `p` belongs to: itself, or its bonded group. -/
def Dev.lineOf (d : Dev) (p : Nat) : List Nat :=
  match d.bondOf p with
  | some g => bondPorts (d.o 0x2850 1 g)
  | none => [p]

/-- An entry of connection memory that names a slot of its port. -/
def Dev.isSlot (d : Dev) (e : Nat) : Bool := decide (e % 160 < d.slotsOf (e / 160))

/-- The keys of slots of the lit transmit page in mode `m` (2810h.01). -/
def Dev.txSlots (d : Dev) (m : Nat) : List Nat :=
  ((d.objs.filter (fun e => keyIndex e.1 == 0x2810 && keySub e.1 == 1 && e.2 == m)).map (fun e => keyInst e.1)).filter d.isSlot

/-- Groups that are configured. -/
def Dev.pgUsed (d : Dev) : List Nat :=
  (d.objs.filter (fun e => keyIndex e.1 == 0x28C0 && keySub e.1 == 1 && e.2 != 0)).map (fun e => keyInst e.1)

/-- A group is valid (R148). -/
def Dev.pgValid (d : Dev) (g : Nat) : Bool := 2 ≤ d.o 0x28C1 2 g

/-- A valid group that pairs ports, or tributaries. -/
def Dev.pgPorts (d : Dev) (g : Nat) : Bool := d.pgValid g && d.o 0x28C0 1 g ≤ 2
def Dev.pgTribs (d : Dev) (g : Nat) : Bool := d.pgValid g && 3 ≤ d.o 0x28C0 1 g

/-- Entry `e` is the key of a packet-client tributary that draws frames: its own connection entries are in force (a grouped protect
port's are not, R149), and it is not refused (R119; DEDUCED, log entry 129). -/
def Dev.clientOut (d : Dev) (e : Nat) : Bool :=
  d.o 0x2810 1 e == 2 && d.o 0x2810 3 e == e && (oget d.plumb.refused e).isNone &&
    !d.pgUsed.any (fun g => d.pgPorts g && d.o 0x28C0 3 g == e / 160)

/-- The packet-client tributary of a slotted port that names sub-queue group `s`, which its key entry gives (R118, R128, R130). -/
def Dev.tribOf (d : Dev) (p s : Nat) : Option Nat :=
  (d.txSlots 2).find? (fun e => e / 160 == p && d.o 0x2810 4 e == s && d.clientOut e)

/-- The number of slots of a tributary on the lit transmit page: entries of its line that name its key. -/
def Dev.tribSize (d : Dev) (key : Nat) : Nat :=
  let line := d.lineOf (key / 160)
  ((d.txSlots 2).filter (fun e => d.o 0x2810 3 e == key && line.contains (e / 160))).length

/-- The number of slots of a tributary on the page that is staged. -/
def Dev.tribNewSize (d : Dev) (key : Nat) : Nat :=
  let listed := d.txSlots 2 ++ (d.dict.shadow.filter (fun e =>
    keyIndex e.1 == 0x2810 && keySub e.1 == 1 && e.2 == some 2 && d.o 0x2810 1 (keyInst e.1) != 2)).map (fun e => keyInst e.1)
  let line := d.lineOf (key / 160)
  (listed.filter (fun e => d.isSlot e && d.newObj 0x2810 1 e == 2 && d.newObj 0x2810 3 e == key && line.contains (e / 160))).length

/-- A connection-memory swap of the port is pending (R123). -/
def Dev.pageSwapPending (d : Dev) (p : Nat) : Bool := d.dict.commits.any (fun c => c.left.contains (0x0A, 1 + p))

/-- A transmit line. -/
def Dev.txLine (d : Dev) (p : Nat) : TxLine := mget (dK {}) d.plumb.tx p

/-- The length of `n` Plumb frames in 2^-16 ns (R109). -/
def plumbTime (n : Nat) : Nat := n * 85903540224 / 100

/-- How many frames of line `p` still go before the one with the new page, if its next frame starts at device time `base` (R123): up to
the next multiframe, or to the network time, and at least 8 whole frames since acceptance; none once the swap has been put off (R129). -/
def Dev.swapFrames (d : Dev) (c : Clock) (p base : Nat) : Nat :=
  let t := d.txLine p
  if t.deferred.isSome then 0
  else if d.newObj 0x2811 1 0 = 1 then
    max (8 - t.since) (ceilDiv ((d.devOf c (ofT80 (d.newObj 0x2811 2 0)) - base) * 100) 85903540224)
  else
    let n := (32 - t.mfn % 32) % 32
    if 8 ≤ t.since + n then n else n + 32

/-- The device time of the planned page swap of line `p` (R123). -/
def Dev.swapAt (d : Dev) (c : Clock) (p : Nat) : Nat :=
  let base := max c.dev ((d.txLine p).at0 + plumbTime 1)
  base + plumbTime (d.swapFrames c p base)

/-- Blocks of a frame of `b` octets on a tributary: start, data, terminate, idle (R128). -/
def tribBlocks (b : Nat) : Nat := b / 8 + 3

/-- The time of `n` blocks of a tributary of `g` slots, in 2^-16 ns: 1,023g − 1 blocks in a Plumb frame (R129). -/
def tribTime (g n : Nat) : Nat := if g = 0 then 0 else n * 85903540224 / (100 * (1023 * g - 1))

/-- The time of `n` blocks of tributary `e` of port `p` from device time `s`, as bounded admission projects it: at the smaller capacity
past the planned swap (R129). -/
def Dev.tribSpan (d : Dev) (c : Clock) (p e s n : Nat) : Nat :=
  let g := d.tribSize e
  let m := d.tribNewSize e
  if d.pageSwapPending p ∧ 0 < m ∧ m < g then
    let x := d.swapAt c p
    if x ≤ s then tribTime m n
    else if s + tribTime g n ≤ x then tribTime g n
    else (x - s) + tribTime m (n - (x - s) / max 1 (tribTime g 1))
  else tribTime g n

/-- The packet client with key `e` does not continue at the pending swap of port `p` (R126). -/
def Dev.tribStops (d : Dev) (p e : Nat) : Bool :=
  d.pageSwapPending p &&
    !(d.newObj 0x2810 1 e == 2 && d.newObj 0x2810 3 e == e && d.newObj 0x2810 4 e == d.o 0x2810 4 e)

/-! ### Accounts (R286) -/

/-- The sum of an object over its instances, where `n` instances read the default `v` when unlisted. -/
def Dev.sumObj (d : Dev) (ix sub n v : Nat) : Nat :=
  let l := d.objs.filter (fun e => keyIndex e.1 == ix && keySub e.1 == sub)
  n * v + l.foldl (fun a e => a + e.2) 0 - l.length * v

/-- Cells in retirement or retired (4000h.0A). -/
def Dev.cellsRetired (d : Dev) : Nat := d.o 0x4000 0xA

/-- Free cells. -/
def Dev.cellsFree (d : Dev) : Nat := 1572864 - d.cellsRetired - d.yard.cellsUsed

/-- The size of Shared. -/
def Dev.sharedSize (d : Dev) : Nat :=
  1572864 - 16384 - d.o 0x4001 1 - d.o 0x4001 2 - d.sumObj 0x4010 1 32768 4 - d.cellsRetired

/-- Free cells of Shared. -/
def Dev.sharedFree (d : Dev) : Nat := d.sharedSize - d.yard.sharedUsed

/-- depth(q): cells of a queue. -/
def Dev.depth (d : Dev) (q : Nat) : Nat := d.o 0x4010 8 q

/-! ### Active lists -/

/-- Sub-queues of a class that hold a frame, in the order in which they became active; classes likewise. A packet-client
tributary with key e stands at 256 + e. -/
def Dev.subList (d : Dev) (pc : Nat) : List Nat := mget (dK []) d.eg.subList pc

/-- Active classes. -/
def Dev.clsList (d : Dev) (x : Nat) : List Nat := mget (dK []) d.eg.clsList x

/-- Append a member that is not in a list. -/
def addLast (l : List Nat) (x : Nat) : List Nat := if l.contains x then l else l ++ [x]

/-- A frame arrives at a queue: an empty sub-queue wakes (R323) and joins the active lists (R322). -/
def Dev.wake (d : Dev) (c : Copy) : Dev :=
  let pc := c.port * 8 + c.tc
  let x := match c.trib with | some e => 256 + e | none => c.port
  let d := if (d.queue c.q).isEmpty then d.setO 0x4421 4 c.q (nget d.eg.vtime pc) else d
  { d with
    eg.subList := mset (dK []) d.eg.subList pc (addLast (d.subList pc) c.subq)
    eg.clsList := mset (dK []) d.eg.clsList x (addLast (d.clsList x) c.tc) }

/-! ### Pause -/

/-- The partner has paused a class of a port, and the watchdog does not ignore it (R336, R338). -/
def Dev.paused (d : Dev) (p c : Nat) : Bool :=
  let i := p * 8 + (if d.o 0x4450 1 p = 1 then 0 else c)
  (oget d.eg.pauseUntil (p * 8 + c)).isSome && d.o 0x4451 5 i == 0

/-- A class of a port holds frames. -/
def Dev.classHolds (d : Dev) (p c : Nat) : Bool := (List.range 16).any (fun s => !(d.queue (queueId p c s)).isEmpty)

/-! ### Credit-based shapers (R324) -/

/-- Bytes are kept in units of 1/(8000 × 65536): a rate of r Mb/s adds r units in 2^-16 ns. -/
def byteUnit : Nat := 8000 * 65536

/-- The idle slope of a class, at most the port rate. -/
def Dev.idle (d : Dev) (p c : Nat) : Nat := min (d.o 0x4420 4 (p * 8 + c)) (d.rate p * 1000)

/-- A level at time `now`. -/
def Level.at (l : Level) (rate now : Nat) (cap : Int) : Int :=
  let up := l.amount + (rate * (now - l.last) : Nat)
  match l.mode with
  | 1 => min cap up
  | 2 => if l.amount < 0 then min 0 up else l.amount
  | _ => l.amount

/-! ### A frame on the medium -/

/-- Octets of a frame that have left by device time `now` (R303, R325): those of earlier fragments, and those of the present one at
the rate of its port, or of its packet-client tributary. -/
def Dev.txSent (d : Dev) (t : Tx) (now : Nat) : Nat :=
  let more :=
    if t.cut then 0
    else match t.copy.trib with
      | some e => (now - t.from0) * 8 / max 1 (tribTime (d.tribSize e) 1)
      | none => (now - t.from0) * d.rate t.copy.port / (8 * 65536)
  match t.data with
  | some b => min (t.done + more) b.length
  | none => t.done + more

/-- The frame that a class of a port has on the medium or interrupted; a bounded frame and a control frame are no class's. -/
def Dev.classTx (d : Dev) (p cl : Nat) : Option Tx :=
  match oget d.eg.preempt p, oget d.eg.express p with
  | some t, _ => if t.copy.tc = cl then some t else none
  | none, some t => if !t.control ∧ !t.copy.bounded ∧ t.copy.tc = cl then some t else none
  | none, none => none

/-- A class of a port is transmitting (R324). -/
def Dev.sending (d : Dev) (p cl : Nat) : Bool :=
  match d.classTx p cl with
  | some t => !t.cut
  | none => false

/-- What the credit of a class of a port falls by for `n` bytes: n × (rate − idle) ÷ rate, in byte units (R324). -/
def Dev.cbsFall (d : Dev) (p cl n : Nat) : Nat :=
  let r := d.rate p * 1000
  n * byteUnit * (r - d.idle p cl) / r

/-- What the credit has fallen by so far for the frame that the class has on the medium: its octets, preambles and the gaps between
its fragments. -/
def Dev.cbsFallen (d : Dev) (c : Clock) (p cl : Nat) : Nat :=
  match d.classTx p cl with
  | some t => d.cbsFall p cl (d.txSent t c.dev + 8 + 20 * t.frags)
  | none => 0

/-- The credit of a class in byte units, without what the frame on the medium takes. -/
def Dev.cbsBase (d : Dev) (c : Clock) (p cl : Nat) : Int :=
  match oget d.eg.cbs (p * 8 + cl) with
  | none => 0
  | some l => l.at (d.idle p cl) c.dev ((2 ^ 31 - 1) * byteUnit)

/-- The credit of a class in byte units (R324). -/
def Dev.credit (d : Dev) (c : Clock) (p cl : Nat) : Int := d.cbsBase c p cl - (d.cbsFallen c p cl : Int)

/-- Bring a class's credit up to date and note how it changes from here (R324). -/
def cbsTouch (p cl : Nat) : M Unit := do
  let d ← get
  let k ← read
  if d.o 0x4420 4 (p * 8 + cl) ≠ 0 then
    let x := d.cbsBase k p cl
    let holds := d.classHolds p cl
    let blocked := !bitOf (d.gatesAt k p k.dev).1 cl || d.paused p cl
    let l : Level :=
      if d.sending p cl then ⟨x, k.dev, 0⟩
      else if !holds then (if 0 < x then ⟨0, k.dev, 0⟩ else ⟨x, k.dev, 2⟩)
      else if blocked then ⟨x, k.dev, 0⟩
      else ⟨x, k.dev, 1⟩
    set { d with eg.cbs := oset d.eg.cbs (p * 8 + cl) (some l) }
  else set { d with eg.cbs := oset d.eg.cbs (p * 8 + cl) none }

/-- Bring every class of a port up to date. -/
def cbsTouchAll (p : Nat) : M Unit := do
  for c in List.range 8 do cbsTouch p c

/-! ### The watchdog of a pause (R338) -/

/-- The class under which pause counters and the watchdog run: 0 for the port in PAUSE mode (R336, R338). -/
def Dev.fcClass (d : Dev) (p c : Nat) : Nat := if d.o 0x4450 1 p = 1 then 0 else c

/-- Note since when a class has been paused with a frame queued. -/
def wdTouch (p c : Nat) : M Unit := do
  let d ← get
  let now ← devNow
  let c := d.fcClass p c
  let i := p * 8 + c
  let holds : Bool := if d.o 0x4450 1 p = 1 then (List.range 8).any (d.classHolds p) else d.classHolds p c
  let on : Bool := holds && (List.range 8).any (fun x => (x == c || d.o 0x4450 1 p == 1) && (oget d.eg.pauseUntil (p * 8 + x)).isSome)
  set { d with eg.wdSince := oset d.eg.wdSince i (if on then some ((oget d.eg.wdSince i).getD now) else none) }

/-! ### Flow control towards the partner (R337) -/

/-- The classes of a port in XOFF, as bits. -/
def Dev.xoffBits (d : Dev) (p : Nat) : Nat :=
  (List.range 8).foldl (fun a c => if mget (dK false) d.eg.xoff (p * 8 + c) then a + 2 ^ c else a) 0

/-- A change of the classes in XOFF queues a MAC control frame, or updates the one that waits. -/
def fcQueue (p bits : Nat) : M Unit :=
  modify fun d => { d with eg.ctl := oset d.eg.ctl p (some (bits ||| (oget d.eg.ctl p).getD 0)) }

/-- Evaluate XOFF and XON of a lossless class of an ingress port (R337). -/
def fcEval (p c : Nat) : M Unit := do
  let d ← get
  let i := p * 8 + c
  let was := mget (dK false) d.eg.xoff i
  let sends : Bool := d.oB 0x4020 1 i && d.o 0x4450 1 p != 0 && !d.slotted p
  let free := d.sharedFree
  let k := d.oS 16 0x4020 6 i
  let used := d.o 0x4020 3 i + d.o 0x4450 3 i
  let now : Bool :=
    if !sends then false
    else if 0 < d.o 0x4020 4 i || !belowDt used free k then true
    else if was && !belowDt (used + d.o 0x4450 4 i) free k then true
    else false
  if now ≠ was then
    let before := d.xoffBits p
    modify fun d => { d with eg.xoff := mset (dK false) d.eg.xoff i now }
    let d ← get
    if sends ∧ (d.o 0x4450 1 p = 2 ∨ (before = 0) ≠ (d.xoffBits p = 0)) then fcQueue p (2 ^ c)

/-- The quanta frame that waits for port `p`: its octets with FCS, and the classes it turns off and on (R337). -/
def Dev.pauseFrame (d : Dev) (p bits : Nat) : Bytes × Nat × Nat :=
  let xoff := d.xoffBits p
  let quanta := d.o 0x4450 5 p
  let src := toBytes 6 (d.o 0x4450 6 p)
  let head := toBytes 6 0x0180C2000001 ++ src ++ toBytes 2 0x8808
  let body :=
    if d.o 0x4450 1 p = 2 then
      let named := xoff ||| bits
      toBytes 2 0x0101 ++ toBytes 2 named ++
        (List.range 8).flatMap (fun c => toBytes 2 (if bitOf xoff c then quanta else 0))
    else toBytes 2 1 ++ toBytes 2 (if xoff ≠ 0 then quanta else 0)
  let f := fitTo 60 (head ++ body)
  (f ++ fcsBytes f, xoff, clearBits bits xoff)

end Sys2Proof.Machine
end

