-- ==== Sys2Proof/Machine/Yard.lean ====
section
/-! DEFINITION. The Yard (11): how a copy is charged and freed (R286, R310), the best-effort and lossless admission steps (R287,
R288), the ECN decision (R289), the bounded walk (R294, R301). What a copy's end reports stands in Reports. -/

namespace Sys2Proof.Machine

/-- Cells of a frame of `n` octets: at most 64 are written (R281, R285). -/
def cellCount (n : Nat) : Nat := min 64 (ceilDiv n 256)

/-- Cells at admission: 1 for a frame whose last byte has not arrived (R287, R308). -/
def Frame.admitCells (f : Frame) : Nat := if f.whole then cellCount f.data.length else 1

/-! ### Accounts -/

/-- Add cells to (or take them from) the accounts that a copy is charged to. -/
def Dev.acctMove (d : Dev) (f : Frame) (c : Copy) (n : Int) : Dev :=
  let up := fun (x : Nat) => ((x : Int) + n).toNat
  let pc := f.port * 8 + c.tc
  let d1 := match c.acct with
    | .qmin | .shared | .headroom => d.setO 0x4010 8 c.q (up (d.o 0x4010 8 c.q))
    | _ => d
  match c.acct with
  | .shared =>
    let d2 := if c.lossless then d1.setO 0x4020 3 pc (up (d1.o 0x4020 3 pc)) else d1
    { d2 with yard.sharedUsed := up d2.yard.sharedUsed, yard.qShared := nset d2.yard.qShared c.q (up (nget d2.yard.qShared c.q)) }
  | .headroom => d1.setO 0x4020 4 pc (up (d1.o 0x4020 4 pc))
  | .bounded =>
    { d1.setO 0x4030 5 c.port (up (d1.o 0x4030 5 c.port)) with yard.boundedUsed := up d1.yard.boundedUsed }
  | _ => d1

/-- Physical cells of a frame: all its copies share one set (R281, R310). -/
def holdCells (id n : Nat) : M Unit := do
  match (← get).frame id with
  | none => return ()
  | some f =>
    modify fun d => { d with yard.cellsUsed := d.yard.cellsUsed + n - f.cells }
    setFrame { f with cells := n }

/-- The frame is done with: whole, decided, no copy left, and no commit owed (R234). -/
def Frame.over (f : Frame) : Bool :=
  f.whole && f.copies == 0 && 3 ≤ f.phase && (f.slot.isNone || f.committed) && !f.mirrorWait

/-- Free a frame's cells once no copy is left, and forget it once it is done with. -/
def frameDone (id : Nat) : M Unit := do
  match (← get).frame id with
  | none => return ()
  | some f =>
    if f.copies = 0 ∧ 3 ≤ f.phase then holdCells id 0
    if f.over then dropFrame id

/-- A copy joins its queue (R287, R322, R323). -/
def enqueueCopy (f : Frame) (c : Copy) : M Unit := do
  modify fun d => ((d.wake c).setQueue c.q (d.queue c.q ++ [c])).acctMove f c c.cells
  incO 0x4010 0xD c.q
  let d ← get
  peakO 0x4010 0xC c.q (d.depth c.q)
  if c.trib = none then
    cbsTouch c.port c.tc
    wdTouch c.port c.tc
  if c.lossless then fcEval f.port c.tc

/-- The bounded copies of port `p`: its FIFO and those of its packet-client tributaries. -/
def Dev.boundedOf (d : Dev) (p : Nat) : List Copy :=
  d.fifoB p ++ (d.yard.tribBounded.filter (fun e => e.1 / 160 == p)).flatMap (·.2)

/-- Another bounded copy of the same frame on the same port, to which the charge passes (R310). -/
def Dev.boundedTwin (d : Dev) (c : Copy) : Option Copy :=
  (d.boundedOf c.port).find? (fun x => x.frame == c.frame && x.idx != c.idx && x.acct == .none)

/-- A copy has ended: its cells go back to its account, or to a twin that shares the charge (R310). -/
def releaseCopy (c : Copy) : M Unit := do
  let d ← get
  match d.frame c.frame with
  | none => return ()
  | some f =>
    let twin := if c.acct = .bounded then d.boundedTwin c else none
    match twin with
    | some t =>
      let swap := fun (x : Copy) => if x.idx = t.idx ∧ x.frame = t.frame then { x with acct := .bounded, cells := c.cells } else x
      match t.trib with
      | some e => set (d.setFifoT e ((d.fifoT e).map swap))
      | none => set (d.setFifoB t.port ((d.fifoB t.port).map swap))
    | none => set (d.acctMove f c (-(c.cells : Int)))
    setFrame { f with copies := f.copies - 1 }
    if c.lossless then fcEval f.port c.tc
    frameDone f.id

/-! ### Steps 3 to 6 of R287, steps 1 to 4 of R288 -/

/-- The account that admits a best-effort or lossless copy of `n` cells, or none. Step 3 is the caller's. -/
def Dev.queueAccount (d : Dev) (f : Frame) (c : Copy) (n : Nat) : Option Acct :=
  let q := c.q
  let free := d.sharedFree
  if d.depth q + n ≤ d.o 0x4010 1 q then some .qmin
  else if c.lossless then
    let i := f.port * 8 + c.tc
    if belowDt (d.o 0x4020 3 i) free (d.oS 16 0x4020 6 i) then some .shared
    else if d.o 0x4020 4 i + n ≤ d.o 0x4020 2 i then some .headroom
    else none
  else if d.depth q + n ≤ d.o 0x4010 3 q ∧ belowDt (nget d.yard.qShared q) free (d.oS 16 0x4010 2 q) then some .shared
  else none

/-- How a copy was admitted, as a trace record codes it (R387). -/
def Acct.code : Acct → Nat
  | .qmin => 0 | .shared => 1 | .headroom => 2 | .bounded => 3 | .none => 0xFF

/-- A refusal at the completion reserve (R285). -/
def reserveHit : M Unit := do
  let now ← devNow
  incO 0x4000 6
  modify fun d => { d with yard.reserve := now :: d.yard.reserve.filter (fun t => now < t + uS) }
  let d ← get
  raiseLim 320 0x4001 2 0 d.cellsFree (inLastSecond now d.yard.reserve) 0 3

/-- The ECN decision of R289: the copy, marked where it applies, or none when it is dropped. -/
def ecnDecide (f : Frame) (c : Copy) : M (Option Copy) := do
  let d ← get
  let q := c.q
  let depth := d.depth q
  let mode := d.o 0x4010 7 q
  let lo := d.o 0x4010 4 q
  let hi := d.o 0x4010 5 q
  set { d with yard.lfsr := nset d.yard.lfsr q (nget d.yard.lfsr q + 1) }
  let hit : Bool ←
    if mode = 0 ∨ depth ≤ lo then pure false
    else if hi ≤ depth then pure true
    else do
      let r ← fresh
      pure (decide (r % 65536 * 100 * (hi - lo) < 65536 * d.o 0x4010 6 q * (depth - lo)))
  if !hit then return some c
  else if f.isEct then
    incO 0x4010 0xA q
    return some { c with mark := c.mark ||| 1 }
  else if mode = 2 then
    incO 0x4010 0xB q
    return none
  else return some c

/-- What admission of a copy to a queue gives. -/
inductive Adm where
  | admitted | residue | dropped
  deriving DecidableEq, Repr

/-- A copy joins the residue of its queue (R309), unless the device's residue is full. -/
def joinResidue (c : Copy) : M Adm := do
  let d ← get
  let now ← devNow
  if 65536 ≤ d.o 0x4052 2 then
    incO 0x4052 3
    raiseLim 322 0x4007 2 c.port c.q 0 0 3
    return .dropped
  else
    let e := ResEntry.mk { c with acct := .none, cells := 0, eligible := false } (now + d.o 0x4052 1 * uNs)
    set (d.setResidue c.q (d.residue c.q ++ [e]))
    return .residue

/-- The port admits nothing: it is in a state other than 3 and 4 (step 1 of R287). -/
def Dev.portClosed (d : Dev) (p : Nat) : Bool := !d.portUp p

/-- The watchdog of a class drops its admissions (R338, action 1). -/
def Dev.wdDrops (d : Dev) (p c : Nat) : Option Nat :=
  let i := p * 8 + (if d.o 0x4450 1 p = 1 then 0 else c)
  if !d.slotted p ∧ d.o 0x4451 5 i = 1 ∧ d.o 0x4451 3 p = 1 then some i else none

/-- Steps 3 to 6 for a copy that waits for nothing else: its account and its ECN decision; none when refused. A copy that ECN
drops answers `some none`. -/
def queueTake (f : Frame) (c : Copy) (ecn : Bool) : M (Option (Option Copy)) := do
  let d ← get
  let n := f.admitCells
  if d.cellsFree ≤ 16384 then
    reserveHit
    return none
  else
    match d.queueAccount f c n with
    | none => return none
    | some a =>
      let c := { c with acct := a, cells := n, admBy := a.code, depth0 := d.depth c.q }
      if ecn then
        let r ← ecnDecide f c
        return some r
      else return some (some c)

/-- Admit a best-effort or lossless copy (R287, R288). `multi`: it is a multicast copy. -/
def queueAdmit (f : Frame) (c0 : Copy) (multi : Bool) : M Adm := do
  let d ← get
  let p := c0.port
  let slotted := d.slotted p
  let trib := if slotted then d.tribOf p c0.subq else none
  monFeed 3 c0.q (d.depth c0.q)
  if slotted ∧ trib = none then
    incO 0x2833 1 p
    return .dropped
  let lossless := f.origin < 4 ∧ c0.kind = 0 ∧ d.oB 0x4020 1 (f.port * 8 + c0.tc)
  let c : Copy := { c0 with trib := trib, lossless := lossless, depth0 := d.depth c0.q }
  if d.portClosed p then
    incO 0x4041 1 p
    return .dropped
  match d.wdDrops p c.tc with
  | some i =>
    incO 0x4451 6 i
    modify fun d => { d with eg.wdDropped := nset d.eg.wdDropped i (nget d.eg.wdDropped i + 1) }
    return .dropped
  | none =>
    if !lossless ∧ !(d.residue c.q).isEmpty then joinResidue c
    else
      let shortHeadroom : Bool := decide (lossless ∧ 16384 < d.cellsFree)
      let r ← queueTake f c (c.kind != 1)
      match r with
      | some (some x) =>
        enqueueCopy f x
        return .admitted
      | some none => return .dropped
      | none =>
        if shortHeadroom then
          let i := f.port * 8 + c.tc
          incO 0x4020 5 i
          raiseLim 320 0x400A 2 f.port i (d.o 0x4020 3 i + d.o 0x4020 4 i) 0 3
          return .dropped
        else
          incO 0x4010 9 c.q
          if multi ∧ !lossless then joinResidue c else return .dropped

/-! ### Bounded delivery -/

/-- The class is bounded on the port (R291). -/
def Dev.bounded (d : Dev) (p c : Nat) : Bool := d.oB 0x4031 1 (p * 8 + c)

/-- The gate walk of R294 from start `s`: the start, or the refusal cause. -/
def Dev.boundedWalk (d : Dev) (k : Clock) (p len dl : Nat) : Nat → Nat → Nat → Except Nat Nat
  | 0, _, _ => .error 4
  | fuel + 1, s, n =>
    if d.gateOpen k p 8 1100 s (s + d.wOf p (len + 8)) then .ok s
    else match d.nextOpening k p 8 s with
      | none => .error 0
      | some t =>
        let s := t + d.wOf p (d.blockBytes p)
        if 64 < n + 1 then .error 4
        else if dl < s + d.wOf p 8 then .error 0
        else d.boundedWalk k p len dl fuel s (n + 1)

/-- The deadline of a frame in a class (R291). -/
def Dev.deadline (d : Dev) (f : Frame) (p c : Nat) : Nat := f.t0 + d.o 0x4031 2 (p * 8 + c) * uNs

/-- The port's bounded pool takes `n` more cells (R294). -/
def Dev.boundedRoom (d : Dev) (p n : Nat) : Bool :=
  d.o 0x4030 5 p + n ≤ d.o 0x4030 4 p && d.yard.boundedUsed + n ≤ d.o 0x4001 1

/-- A copy of this frame holds the port's bounded charge already (R310). -/
def Dev.boundedShares (d : Dev) (f : Frame) (c : Copy) : Bool :=
  (d.boundedOf c.port).any (fun x => x.frame == f.id)

/-- admit_bounded of R294 and R301: enqueue with its projection, or answer the refusal cause. -/
def boundedAdmit (f : Frame) (c0 : Copy) : M (Option Nat) := do
  let d ← get
  let k ← read
  let p := c0.port
  let slotted := d.slotted p
  let trib := if slotted then d.tribOf p c0.subq else none
  monFeed 3 c0.q (d.depth c0.q)
  if slotted ∧ trib = none then return some 5
  let c : Copy := { c0 with trib := trib, bounded := true, depth0 := d.depth c0.q }
  let bmax := d.o 0x4031 3 (p * 8 + c.tc)
  let len := if f.whole then f.data.length else bmax
  let dl := d.deadline f p c.tc
  if d.txStopped p then return some 3
  if f.whole ∧ bmax < len then return some 2
  let shares := d.boundedShares f c
  let n := if shares then 0 else ceilDiv len 256
  if !shares ∧ !d.boundedRoom p n then return some 1
  let start : Except Nat (Nat × Nat × Nat) :=
    match trib with
    | some e =>
      let now := k.dev + 112 * uNs
      let s := max (d.o 0x4033 1 e) (now + d.tribSpan k p e now (tribBlocks (d.o 0x2832 1 e)))
      .ok (s, s + d.tribSpan k p e s 1, s + d.tribSpan k p e s (tribBlocks len))
    | none =>
      let s0 := max (d.o 0x4030 1 p) (k.dev + d.egressPathNs p * uNs + d.wOf p (d.blockBytes p))
      match d.boundedWalk k p len dl 65 s0 0 with
      | .ok s => .ok (s, s + d.wOf p 8, s + d.wOf p (len + 20))
      | .error e => .error e
  match start with
  | .error e => return some e
  | .ok (s, dep, fin) =>
    if dl < dep then return some 0
    let c := { c with
      acct := (if shares then .none else .bounded), cells := n, deadline := dl, proj := dep, start := s, plen := len, admBy := 3 }
    incO 0x4031 8 (p * 8 + c.tc)
    modify fun d =>
      let d := d.acctMove f c n
      match trib with
      | some e => (d.setO 0x4033 1 e fin).setFifoT e (d.fifoT e ++ [c])
      | none => (d.setO 0x4030 1 p fin).setFifoB p (d.fifoB p ++ [c])
    return none

/-- Count a bounded refusal (R298, R301). -/
def countRefusal (c : Copy) (cause : Nat) : M Unit := do
  let d ← get
  let p := c.port
  let i := p * 8 + c.tc
  incO 0x4031 9 i
  setO 0x4031 0x11 i cause
  if d.slotted p then
    match d.tribOf p c.subq with
    | some e => incO 0x4033 2 e
    | none => return ()
  raiseLim 321 0x4003 1 p i cause 0 3

end Sys2Proof.Machine
end

