-- ==== Sys2Proof/Machine/Reports.lean ====
section
/-! DEFINITION. What a frame's end reports (14, 15): trace records (R387, R388), postcards (R393), mirror copies (R391, R392),
punts (R363), and the end of a copy with its residue (R309, R310). -/

namespace Sys2Proof.Machine

/-! ### Punts -/

/-- The punt descriptor's fields that a frame gives (R363). -/
def Dev.puntOf (d : Dev) (f : Frame) (kind reason aux : Nat) : Punt :=
  let stamp : Nat := if f.origin = 0 ∧ d.stampGood f.port then 0 else 64
  { src := if f.whole then none else some f.id
    data := f.data.take (f.data.length - 4)
    kind := kind
    reason := reason
    flags := stamp + (f.tf 290 1) * 32 + (f.tf 293 1) * 16 + (f.tf 292 1) * 8 + (if f.origin = 2 ∨ f.origin = 3 then 4 else 0)
      + f.tf 286 2
    inPort := f.tf 504 8
    inTrib := f.tf 488 16
    secs := f.tsNet / uS % 2 ^ 48
    ns := f.tsNet / 65536 % 1000000000
    frac := f.tsNet % 65536
    tc := f.tf 485 3
    flowAct := f.tf 410 16
    hash := f.tf 294 32
    aux := aux
    scratch := f.tf 160 96 }

/-- A frame is punted, once at most (R308, R362). One whose ingress has ended errored is discarded (R364), but for a length found
inconsistent at the end, which R168 punts. -/
def puntFrame (f : Frame) (reason : Nat) : M Unit := do
  if !f.punted then
    let d ← get
    setFrame { f with punted := true }
    if f.whole ∧ f.fault.isSome ∧ ¬(f.fault = some 4 ∧ reason = 2) then return ()
    let r := d.puntRing 0 reason (f.tf 485 3) 0 (f.tf 294 32)
    let _ ← puntEnqueue r (d.puntOf f 0 reason 0)

/-! ### Trace records -/

/-- Where a frame or copy ended: outcome, cause and instant (R387). -/
structure Ending where
  outcome : Nat
  cause : Nat := 0
  at0 : Nat
  deriving DecidableEq, Repr

/-- A time as an offset from T0 in 1/16 ns, FFFFFFFFh for a point not reached. -/
def traceTime (f : Frame) : Option Nat → Nat
  | none => 0xFFFFFFFF
  | some t => min 0xFFFFFFFE ((t - f.t0) / 4096)

/-- A trace record (R387), 128 octets with its CRC. -/
def traceBytes (f : Frame) (c : Option Copy) (e : Ending) (seq : Nat) : Bytes :=
  let t := traceTime f
  let port := match c with | some x => x.port | none => 0xFFFF
  let q := match c with | some x => if x.bounded then 0x8000 + x.port else x.q | none => 0xFFFF
  let tc := match c with | some x => x.tc | none => f.tf 485 3
  let bnd := match c with | some x => x.bounded && x.admBy == 3 | none => false
  let b := toBytes 4 seq ++ [BitVec.ofNat 8 e.outcome, BitVec.ofNat 8 (f.tf 286 8)] ++ toBytes 2 (f.tf 504 8) ++ toBytes 2 port ++
    toBytes 2 q ++ [BitVec.ofNat 8 tc, BitVec.ofNat 8 (match c with | some x => x.admBy | none => 0xFF)] ++
    toBytes 2 f.data.length ++ toBytes 8 f.t0 ++ toBytes 4 (t f.tParsed) ++ toBytes 4 (t f.tStage9) ++ toBytes 4 (t f.tStage12) ++
    toBytes 4 (t f.admitted) ++ toBytes 4 (t (some e.at0)) ++
    toBytes 4 (t (if bnd then c.map Copy.proj else none)) ++ toBytes 4 (t (if bnd then c.map Copy.deadline else none)) ++
    toBytes 2 f.hits ++ toBytes 2 f.defaults ++ toBytes 4 (match c with | some x => x.depth0 | none => 0) ++
    toBytes 4 (f.tf 294 32) ++ toBytes 2 (f.tf 410 16) ++ toBytes 2 e.cause ++ toBytes 1 (f.tf 450 4) ++ toBytes 3 (f.tf 430 20) ++
    toBytes 2 f.mcCopies ++ toBytes 2 0 ++ toBytes 32 (f.tf 0 256) ++ toBytes 16 0
  b ++ toBytes 4 (crc32c b)

/-- Records in the trace ring. -/
def traceSize : Nat := 4194304

/-- Write a trace record into the ring (R388). -/
def traceWrite (f : Frame) (c : Option Copy) (e : Ending) : M Unit := do
  let d ← get
  let seq := d.o 0x6041 2
  let stop := d.o 0x6041 1 = 1
  if stop ∧ traceSize ≤ d.mon.traceN then
    incO 0x6041 4
    if !d.mon.traceFull then
      modify fun d => { d with mon.traceFull := true }
      raiseEv 639 0x6002 1 seq 0 1
  else
    let rec_ := ofBytes (traceBytes f c e seq)
    set { d.setO 0x6041 2 0 ((seq + 1) % 2 ^ 64) with
      mon.trace := oset d.mon.trace (seq % traceSize) (some rec_)
      mon.traceN := min traceSize (d.mon.traceN + 1) }
    dramAskSeg 0 (1408 + seq % traceSize / 65536) (seq % 65536 * 2) 2 true true

/-! ### Reflections -/

/-- A Reflection is lost (R392, R393): session (FFh for postcards) and cause. -/
def reflectionLost (s cause : Nat) : M Unit := do
  if s = 0xFF then incO 0x6061 8 else incO 0x6060 9 s
  raiseLim 327 0x6005 1 s s cause 0 3

/-- A frame made by the device joins a queue under R287: its REFLECT names no session (R172), and a copy of kind 2 is a postcard, whose
loss counts against session FFh (R393). -/
def deviceFrame (data : Bytes) (kind p cls sub : Nat) : M Adm := do
  let d ← get
  let now ← devNow
  let id := d.yard.nextId
  let f : Frame :=
    { id := id, bay := p / 4, port := p, origin := 4, data := data, whole := true, t0 := now, phase := 3, copies := 1
      tenon := putFld 0 378 16 0xFF }
  set { d with yard.nextId := id + 1 }
  setFrame f
  let r ← queueAdmit f { frame := id, port := p, tc := cls, subq := sub, kind := kind, session := 0xFF, a := now } false
  if r = .dropped then dropFrame id else holdCells id (cellCount data.length)
  return r

/-- A postcard (R393). -/
def postcard (f : Frame) (c : Option Copy) (e : Ending) : M Unit := do
  let d ← get
  let dest := d.o 0x6061 1
  if dest ≠ 0 then
    let now ← runNow
    let rate := d.o 0x6061 6
    let cap := max uS (rate * uS / 10)
    let t := match d.mon.pcRate with | none => cap | some b => min cap (b.tokens + rate * (now - b.last))
    let seq := d.mon.pcSeq
    let ok : Bool := decide (uS ≤ t)
    set { d with mon.pcRate := some ⟨if ok then t - uS else t, now⟩, mon.pcSeq := seq + 1 }
    if !ok then reflectionLost 0xFF 4
    else
      let r := traceBytes f c e seq
      let cls := d.o 0x6061 3
      match dest with
      | 1 =>
        let body := (toBytes 64 (d.o 0x6061 4)).take (d.o 0x6061 5) ++ r
        let p := d.o 0x6061 2 % 256
        if d.bounded p (cls / 16 % 8) then reflectionLost 0xFF 0
        else
          let x ← deviceFrame (body ++ fcsBytes body) 2 p (cls / 16 % 8) (cls % 16)
          if x = .dropped then reflectionLost 0xFF 1 else incO 0x6061 7
      | 2 =>
        let ring := d.puntRing 2 0 0 (d.o 0x6061 2) (f.tf 294 32)
        let ok ← puntEnqueue ring { d.puntOf f 2 0 0xFF with src := none, data := r }
        if ok then incO 0x6061 7 else reflectionLost 0xFF 3
      | _ =>
        let ok ← toManagement r
        if ok then incO 0x6061 7 else reflectionLost 0xFF 3

/-- A frame or a copy has ended: its trace record follows copy 0, and it gives a postcard when REFLECT [15] is set. -/
def reportEnd (f : Frame) (c : Option Copy) (e : Ending) : M Unit := do
  let own : Bool := match c with | some x => x.kind == 0 | none => true
  let first : Bool := match c with | some x => x.kind == 0 && x.idx == 0 | none => true
  if f.origin < 4 ∧ own then
    if f.traced ∧ first then traceWrite f c e
    if f.tf 393 1 = 1 then postcard f c e

/-! ### Mirrors -/

/-- The octets of a mirror copy for the host or the management plane: the frame without its FCS (R363), cut to the session's length
(R391). -/
def Dev.mirrorCut (d : Dev) (s : Nat) (b : Bytes) : Bytes :=
  let n := d.o 0x6060 4 s
  let b := b.take (b.length - 4)
  if n ≠ 0 then b.take n else b

/-- A mirror copy is handed to the host or the management plane. -/
def mirrorHand (f : Frame) (s : Nat) (data : Bytes) : M Unit := do
  let d ← get
  let b := d.mirrorCut s data
  let ok ←
    if d.o 0x6060 1 s = 2 then
      puntEnqueue (d.puntRing 1 0 0 (d.o 0x6060 2 s) (f.tf 294 32)) { d.puntOf f 1 0 s with src := none, data := b, len := data.length - 4 }
    else toManagement b
  if ok then incO 0x6060 8 s else reflectionLost s 3

/-- The session of a frame is on, names `point`, and its random choice selects the frame (R391). -/
def mirrorChosen (f : Frame) (point : Nat) : M Bool := do
  let d ← get
  let s := f.tf 378 8
  if s = 0xFF ∨ d.o 0x6060 1 s = 0 ∨ d.o 0x6060 3 s ≠ point then return false
  else
    let n := d.o 0x6060 5 s
    if n = 0 then return true
    else
      let r ← fresh
      return r % 2 ^ n == 0

/-- The ingress mirror copy of a whole frame (R391, R392). -/
def mirrorIngress (f : Frame) : M Unit := do
  let d ← get
  let s := f.tf 378 8
  if f.fault.isSome then reflectionLost s 2
  else if d.o 0x6060 1 s = 1 then
    let now ← devNow
    let p := d.o 0x6060 2 s % 256
    let cls := d.o 0x6060 6 s
    if d.bounded p (cls / 16 % 8) then reflectionLost s 0
    else
      let f := { f with copies := f.copies + 1 }
      setFrame f
      let c : Copy :=
        { frame := f.id, idx := 0x10000, port := p, tc := cls / 16 % 8, subq := cls % 16, kind := 1, session := s, a := now }
      let r ← queueAdmit f c false
      if r = .dropped then
        modify fun d => match d.frame f.id with
          | some x => { d with yard.frames := oset d.yard.frames f.id (some { x with copies := x.copies - 1 }) }
          | none => d
        reflectionLost s 1
      else incO 0x6060 8 s
  else mirrorHand f s f.data

/-- A frame reaches admission, or its verdict: its ingress mirror copy is made, at its last byte (R391, R392). -/
def mirrorAtAdmission (id : Nat) : M Unit := do
  match (← get).frame id with
  | none => return ()
  | some f =>
    let d ← get
    if f.tf 480 2 = 2 ∧ !d.oB 0x6060 7 (f.tf 378 8) then return ()
    let chosen ← mirrorChosen f 0
    if chosen then
      if f.whole then mirrorIngress f else setFrame { f with mirrorWait := true }

/-! ### The end of a copy -/

/-- A copy ends with an outcome: its report, then its cells (R310, R387). -/
def endCopy (c : Copy) (e : Ending) : M Unit := do
  match (← get).frame c.frame with
  | none => return ()
  | some f =>
    reportEnd f (some c) e
    releaseCopy c

/-- The head of a residue expires (R309). -/
def expireHead (q : Nat) : M Unit := do
  let d ← get
  match d.residue q with
  | [] => return ()
  | e :: rest =>
    let now ← devNow
    let d := d.setResidue q rest
    set { d with yard.expired := (q, now) :: d.yard.expired.filter (fun x => now < x.2 + uS) }
    incO 0x4010 0x10 q
    let d ← get
    raiseLim 322 0x4006 1 (q / 128) q (d.yard.expired.filter (fun x => x.1 == q)).length 0 3
    endCopy e.copy { outcome := 11, at0 := now }
    if e.copy.kind ≠ 0 then reflectionLost e.copy.session 1

/-- The residue of a queue is retried: heads whose deadline has passed are dropped, heads that steps 3 to 6 let in are enqueued
(R309). `fuel` is the length of the residue. -/
def residueRetry (q : Nat) : Nat → M Unit
  | 0 => return ()
  | fuel + 1 => do
    let d ← get
    match d.residue q with
    | [] => return ()
    | e :: rest =>
      let now ← devNow
      if e.deadline ≤ now then
        expireHead q
        residueRetry q fuel
      else
        match d.frame e.copy.frame with
        | none =>
          set (d.setResidue q rest)
          residueRetry q fuel
        | some f =>
          let r ← queueTake f e.copy (e.copy.kind != 1)
          match r with
          | none => return ()
          | some x =>
            modify (·.setResidue q rest)
            match x with
            | some c => enqueueCopy f { c with admBy := 4 }
            | none => endCopy e.copy { outcome := 7, at0 := now }
            residueRetry q fuel

/-- Cells have left a queue: retry its residue. -/
def retryQueue (q : Nat) : M Unit := do
  let n := ((← get).residue q).length
  residueRetry q n

/-- A queue that has become empty leaves the active lists, forfeiting its deficits (R322); `x` is the port, or 256 + the key of a
packet-client tributary. -/
def Dev.settleQueue (d : Dev) (q x : Nat) : Dev :=
  if !(d.queue q).isEmpty then d
  else
    let pc := q / 16
    let d : Dev := { (d.setO 0x4421 3 q 0) with
      eg.subList := mset (dK []) d.eg.subList pc ((d.subList pc).filter (· != q % 16))
      eg.subVisited := mset (dK false) d.eg.subVisited q false }
    if (d.subList pc).isEmpty ∨ 256 ≤ x then
      let c := pc % 8
      { d with
        eg.clsList := mset (dK []) d.eg.clsList x ((d.clsList x).filter (· != c))
        eg.clsVisited := mset (dK false) d.eg.clsVisited (8 * x + c) false
        eg.clsDeficit := mset (dK 0) d.eg.clsDeficit (8 * x + c) 0 }
    else d

/-- The active list that a copy's class is in. -/
def Copy.list (c : Copy) : Nat := match c.trib with | some e => 256 + e | none => c.port

/-- Copies leave together, stranded or flushed (R304, R305). -/
def dropCopies (l : List Copy) (e : Ending) : M Unit := do
  for c in l do endCopy c e

/-- Empty a queue and its residue but for a head in transmission; answers how many frames that were. `sub` counts them in 4010h.0E
(stranded) or .0F (flushed), 0 nowhere (R304, R305, R338). -/
def emptyQueue (q sub : Nat) : M Nat := do
  let d ← get
  let now ← devNow
  let txs := [oget d.eg.express (q / 128), oget d.eg.preempt (q / 128)] ++ d.eg.tribTx.map (·.2)
  let busy : Copy → Bool := fun c => txs.any (fun t => match t with
    | some x => !x.control && !x.copy.bounded && x.copy.frame == c.frame && x.copy.idx == c.idx
    | none => false)
  let keep := (d.queue q).filter busy
  let gone := (d.queue q).filter (fun c => !busy c) ++ (d.residue q).map (·.copy)
  set ((d.setQueue q keep).setResidue q [])
  if sub ≠ 0 then addO 0x4010 sub q gone.length
  dropCopies gone { outcome := 10, at0 := now }
  for x in (q / 128) :: nub (gone.map Copy.list) do
    modify (·.settleQueue q x)
  cbsTouch (q / 128) (q / 16 % 8)
  wdTouch (q / 128) (q / 16 % 8)
  return gone.length

end Sys2Proof.Machine
end

