-- ==== Sys2Proof/Machine/Admit.lean ====
section
/-! DEFINITION. FRAME_ADMIT (11, 12): policing (R333, R334), replication (R307, R308), cut-through eligibility (R283), refusals
(R298); what the last byte of a frame corrects (R284, R285, R295); residue expiry and flushes (R305, R309). -/

namespace Sys2Proof.Machine

/-! ### Policers -/

/-- Policer credits are kept above their floor of −16,383 bytes, in units of 1/K byte: a rate of r kb/s adds r in 2^-16 ns. -/
def polUnit : Nat := 8 * 65536 * 1000000

/-- The floor of a policer credit in bytes. -/
def polFloor : Nat := 16383

/-- A policer credit now: full when absent. -/
def polNow (rate burst now : Nat) : Option Bucket → Nat
  | none => (burst + polFloor) * polUnit
  | some b => min ((burst + polFloor) * polUnit) (b.tokens + rate * (now - b.last))

/-- The policer of a frame colours it, and may drop it: false when dropped (R333, R334). -/
def police (f : Frame) : M Bool := do
  let i := f.tf 184 14
  if i = 0 then return true
  else
    let d ← get
    let now ← devNow
    let n := (if f.whole then f.data.length + 20 else 276) * polUnit
    let low := polFloor * polUnit
    let tc := polNow (d.o 0x4440 1 i) (d.o 0x4440 2 i) now (oget d.yard.polTc i)
    let tp := polNow (d.o 0x4440 3 i) (d.o 0x4440 4 i) now (oget d.yard.polTp i)
    let aware : Bool := f.tf 199 1 == 1
    let had := f.tf 483 2
    let col : Nat :=
      if (aware && had == 2) || decide (tp < low + n) then 2
      else if (aware && had == 1) || decide (tc < low + n) then 1 else 0
    let tc' := if col = 0 then tc - n else tc
    let tp' := if col ≤ 1 then tp - n else tp
    set { d with
      yard.polTc := oset d.yard.polTc i (some ⟨tc', now⟩)
      yard.polTp := oset d.yard.polTp i (some ⟨tp', now⟩) }
    let f := f.setT 483 2 col
    setFrame { f with polIdx := i, polDebit := if f.whole then 0 else (match col with | 0 => 3 | 1 => 2 | _ => 0) }
    incO 0x4440 (6 + col) i
    let acts := d.o 0x4440 5 i
    let drop : Bool := (col == 1 && acts / 4 % 4 == 1) || (col == 2 && acts % 4 == 1)
    if drop then incO 0x4440 9 i
    return !drop

/-- At the last byte of a frame decided on 276 bytes, the rest is debited from the stored credits, which are not refilled (R334). A
policer whose rates were written since then stands full. -/
def policeFix (f : Frame) : M Unit := do
  if f.polDebit ≠ 0 then
    let i := f.polIdx
    let n : Int := ((f.data.length : Int) - 256) * polUnit
    let d ← get
    let now ← devNow
    let fix := fun (burst : Nat) (b : Option Bucket) =>
      let b := b.getD ⟨(burst + polFloor) * polUnit, now⟩
      some { b with tokens := ((b.tokens : Int) - n).toNat }
    set { d with
      yard.polTc := if bitOf f.polDebit 0 then oset d.yard.polTc i (fix (d.o 0x4440 2 i) (oget d.yard.polTc i)) else d.yard.polTc
      yard.polTp := if bitOf f.polDebit 1 then oset d.yard.polTp i (fix (d.o 0x4440 4 i) (oget d.yard.polTp i)) else d.yard.polTp }
    setFrame { f with polDebit := 0 }

/-! ### Copies -/

/-- Cut-through eligibility of a copy to port `p` (R283). -/
def Dev.cutThrough (d : Dev) (f : Frame) (p : Nat) : Bool :=
  d.oB 0x4003 1 f.port && d.oB 0x4003 2 p && f.origin == 0 && !d.slotted f.port && d.portUp f.port && !d.oB 0x2400 7 f.port &&
    decide (d.rate p ≤ d.rate f.port) && f.tf 480 3 == 0 && !f.reissued && !f.punted

/-- The copies a frame asks for: (index, port, sub-queue, next hop); or the sub-index of 4052h that counts why there is none
(R307). -/
def Dev.copiesOf (d : Dev) (f : Frame) : Except Nat (List (Nat × Nat × Nat × Option Nat)) :=
  let id := f.tf 430 20
  let sub := f.tf 426 4
  if f.tf 450 4 = 4 then
    if 65535 < id then .error 4
    else
      let g := d.o 0x4050 1 id
      let n := g >>> 23
      let base := g % 2 ^ 18
      if n = 0 then .error 5
      else
        .ok ((List.range n).filterMap fun j =>
          let x := d.o 0x4051 1 (base + j)
          let p := fld x 56 8
          if bitOf x 50 ∧ p = f.tf 504 8 then none
          else some (j, p, (if bitOf x 51 then fld x 52 4 else sub), some (x % 2 ^ 24)))
  else .ok [(0, id % 256, sub, none)]

/-- A refused bounded copy receives its class's action (R298). One that no tributary takes counts once in 2833h.01 (R130): here, or as its
demoted copy is refused in turn. -/
def refuseBounded (f : Frame) (c : Copy) (cause : Nat) (multi : Bool) : M Unit := do
  countRefusal c cause
  let d ← get
  let now ← devNow
  let i := c.port * 8 + c.tc
  match d.o 0x4031 4 i with
  | 1 =>
    incO 0x4031 0xA i
    let m := d.o 0x4031 6 i
    let mark := if m = 1 then (if f.isEct then 1 else 0) else if m = 2 then 2 else 0
    let c := { c with tc := d.o 0x4031 5 i, mark := mark, dscp := d.o 0x4031 7 i }
    let r ← queueAdmit f c multi
    if r = .dropped then endCopy c { outcome := 7, at0 := now }
  | 2 =>
    if cause = 5 then incO 0x2833 1 c.port
    incO 0x4031 0xB i
    match d.frame f.id with
    | some x => puntFrame x 0x30
    | none => return ()
    endCopy c { outcome := 4, cause := 0x30, at0 := now }
  | _ =>
    if cause = 5 then incO 0x2833 1 c.port
    endCopy c { outcome := 8, cause := cause, at0 := now }

/-- One copy is admitted under the rules of its port and class (R308). -/
def admitCopy (f : Frame) (c : Copy) (multi : Bool) : M Unit := do
  let d ← get
  if d.bounded c.port c.tc then
    let r ← boundedAdmit f c
    match r with
    | none => return ()
    | some cause => refuseBounded f c cause multi
  else
    let r ← queueAdmit f c multi
    let now ← devNow
    if r = .dropped then endCopy c { outcome := 7, at0 := now }

/-- A frame ends without a copy: its report, and its phase. -/
def endFrame (id : Nat) (e : Ending) : M Unit := do
  match (← get).frame id with
  | none => return ()
  | some f =>
    reportEnd f none e
    match (← get).frame id with
    | none => return ()
    | some f =>
      setFrame { f with phase := 4 }
      frameDone id

/-- Frame `g` entered before `f` on the same port and is of the same flow: same hash profile, hash and, once asked for, flow key (R11). -/
def Frame.aheadOf (g f : Frame) : Bool :=
  decide (g.id < f.id) && g.port == f.port && g.trib == f.trib && (g.origin < 2) == (f.origin < 2) && g.asked == f.asked &&
    g.key == f.key && g.kdir == f.kdir && g.tf 274 4 == f.tf 274 4 && g.tf 294 32 == f.tf 294 32

/-- An older frame of the flow is not decided: it is before stage 12, or waits for admission to the same destination and queue (R11). -/
def Dev.olderWaits (d : Dev) (f : Frame) : Bool := d.yard.frames.any fun e => match e.2 with
  | some g => g.aheadOf f && (g.phase == 1 || (g.phase == 2 && g.tf 426 28 == f.tf 426 28 && g.tf 485 3 == f.tf 485 3))
  | none => false

/-- A frame's turn for admission has come: past stage 12, behind no older frame of its flow, and whole or with a copy that may cut
through (R11, R284). -/
def Dev.admitDue (d : Dev) (f : Frame) : Bool :=
  f.phase == 2 && !d.olderWaits f && (f.whole || (match d.copiesOf f with
    | .ok l => l.any (fun x => d.cutThrough f x.2.1)
    | .error _ => false))

/-- Admission of a frame: policing, then each copy under the rules of its port and class (R308). -/
def admitRun (f : Frame) : M Unit := do
  let d ← get
  let now ← devNow
  let id := f.id
  let plan := d.copiesOf f
  let multi : Bool := f.tf 450 4 == 4
  setFrame { f with admitted := some now, phase := 3, copies := 1 }
  let ok ← police { f with admitted := some now, phase := 3, copies := 1 }
  mirrorAtAdmission id
  if !ok then
    endFrame id { outcome := 6, at0 := now }
  else
    match plan with
    | .error s =>
      incO 0x4052 s
      endFrame id { outcome := 5, at0 := now }
    | .ok l =>
      match (← get).frame id with
      | none => return ()
      | some f =>
        let f := { f with copies := f.copies + l.length, mcCopies := if multi then l.length else 1 }
        setFrame f
        for x in l do
          let c : Copy :=
            { frame := id, idx := x.1, port := x.2.1, tc := f.tf 485 3, subq := x.2.2.1, nhop := x.2.2.2,
              eligible := d.cutThrough f x.2.1, a := now }
          admitCopy f c multi
        if l.isEmpty then reportEnd f none { outcome := 5, at0 := now }
  match (← get).frame id with
  | none => return ()
  | some f =>
    setFrame { f with copies := f.copies - 1 }
    if 1 < f.copies then holdCells id f.admitCells
    frameDone id

/-- FRAME_ADMIT: at the first cell when a copy is eligible, else at the last cell (R284, R308). -/
def frameAdmit (id : Nat) : M Unit := do
  let d ← get
  match d.frame id with
  | none => return ()
  | some f => if d.admitDue f then admitRun { f with id := id }

/-! ### Frames that wait at stage 9 -/

/-- The park descriptors of a Sill. -/
def Dev.parks (d : Dev) (k : Nat) : List ParkDesc := mget (dK []) d.flow.waits k

/-- Replace them. -/
def Dev.setParks (d : Dev) (k : Nat) (l : List ParkDesc) : Dev := { d with flow.waits := mset (dK []) d.flow.waits k l }

/-- Take a frame out of its park descriptor. -/
def Dev.unpark (d : Dev) (k id : Nat) : Dev :=
  d.setParks k (((d.parks k).map fun x => { x with frames := x.frames.filter (· != id) }).filter (fun x => !x.frames.isEmpty))

/-! ### The last byte of a frame -/

/-- A copy of a frame in a queue grows to the frame's cells, charged to the account of its first cell (R285). -/
def growQueued (f : Frame) (q : Nat) (l : List Copy) : M Unit := do
  let n := cellCount f.data.length
  if l.any (fun c => c.frame == f.id && c.cells < n) then
    for c in l do
      if c.frame = f.id ∧ c.cells < n then
        modify fun d => d.acctMove f c ((n : Int) - c.cells)
        if c.lossless then fcEval f.port c.tc
    modify fun d => d.setQueue q ((d.queue q).map (fun c => if c.frame = f.id ∧ c.cells < n then { c with cells := n } else c))
    let d ← get
    peakO 0x4010 0xC q (d.depth q)

/-- A copy is on the medium. -/
def Dev.onMedium (d : Dev) (c : Copy) : Bool :=
  ([oget d.eg.express c.port, oget d.eg.preempt c.port] ++ d.eg.tribTx.map (·.2)).any (fun t => match t with
    | some x => !x.control && x.copy.frame == c.frame && x.copy.idx == c.idx && x.copy.port == c.port
    | none => false)

/-- A bounded copy admitted with a provisional length is corrected at its last byte (R295), unless it is stomped or has been (R303).
`last`: it is the last admitted bounded frame of its port or tributary. -/
def fixBounded (f : Frame) (c : Copy) (last : Bool) : M Copy := do
  let len := f.data.length
  let n := ceilDiv len 256
  if c.plen < len ∨ ((f.fault.isSome ∨ f.memErr) ∧ (← get).onMedium c) then return c
  else
    let n := min n c.cells
    let c' := { c with cells := n, plen := len }
    modify fun d => d.acctMove f c ((n : Int) - c.cells)
    if last then
      let k ← read
      modify fun d =>
        match c.trib with
        | some e => d.setO 0x4033 1 e (c.start + d.tribSpan k c.port e c.start (tribBlocks len))
        | none => d.setO 0x4030 1 c.port (c.start + d.wOf c.port (len + 20))
    return c'

/-- Correct the bounded copies of a frame in a FIFO. -/
def fixFifo (f : Frame) : List Copy → M (List Copy)
  | [] => return []
  | c :: r => do
    let c' ← if c.frame = f.id then fixBounded f c r.isEmpty else pure c
    let r' ← fixFifo f r
    return c' :: r'

/-- How many octets of a frame a stomped copy sends before its FCS (R303): up to where ingress stopped under causes 2 and 3, the
projected length under cause 5, the octets before the error under cause 6. -/
def stompLen (f : Frame) (t : Tx) (k : Nat) : Nat :=
  let n := f.data.length
  match k with
  | 2 | 3 => n
  | 5 => min (t.copy.plen - 4) (n - 4)
  | 6 => min t.stompAt (n - 4)
  | _ => n - 4

/-- A copy of a frame is stomped on its medium (R200, R302). -/
def Dev.markStomped (d : Dev) (id : Nat) : Dev :=
  match d.frame id with
  | some f => { d with yard.frames := oset d.yard.frames id (some { f with stomped := true }) }
  | none => d

/-- A frame on a medium learns what its last byte brought: its octets, or a stomp. -/
def closeTx (f : Frame) (t : Tx) : M Tx := do
  if t.control ∨ t.copy.frame ≠ f.id ∨ t.data.isSome then return t
  else
    -- the octets past 4031h.03 come before the end and its fault, and may come before a memory error (R295)
    let overs : Bool := t.copy.bounded && decide (t.copy.plen < f.data.length) && (t.stomp.isNone || decide (t.copy.plen ≤ t.stompAt))
    let k := if overs then some 5 else if t.stomp.isSome then t.stomp else f.fault
    if k.isSome then modify (·.markStomped f.id)
    -- under causes 2 and 3 the octets end without an FCS (R303)
    let g := if k = some 2 ∨ k = some 3 then { f with data := f.data ++ [0#8, 0#8, 0#8, 0#8] } else f
    let b ← egressData (match t.copy.nhop with | some n => g.setT 200 24 n | none => g) t.copy t.stamp
    return { t with data := some b, stomp := k }

/-- Close the frames of a map of media. -/
def closeMedia (f : Frame) : PMap (Option Tx) → M (PMap (Option Tx))
  | [] => return []
  | e :: r => do
    let t ← match e.2 with
      | some t => do
        let t ← closeTx f t
        pure (some t)
      | none => pure none
    let r ← closeMedia f r
    return (e.1, t) :: r

/-- The last byte of a frame in reception has arrived, with the fault found at its end if any (R85, R168, R284). -/
def closeFrame (f0 : Frame) (data : Bytes) (fault : Option Nat) : M Unit := do
  let f := { f0 with data := data.take 16384, whole := true, fault := fault }
  setFrame f
  policeFix f
  let d ← get
  if 3 ≤ f.phase then
    for e in d.yard.queues do growQueued f e.1 e.2
    for e in d.yard.bounded do
      if e.2.any (fun c => c.frame == f.id) then
        let l ← fixFifo f e.2
        modify (·.setFifoB e.1 l)
    for e in d.yard.tribBounded do
      if e.2.any (fun c => c.frame == f.id) then
        let l ← fixFifo f e.2
        modify (·.setFifoT e.1 l)
    if 0 < f.copies then holdCells f.id (cellCount f.data.length)
  match (← get).frame f.id with
  | none => return ()
  | some f =>
    let express ← closeMedia f d.eg.express
    let preempt ← closeMedia f d.eg.preempt
    let tribTx ← closeMedia f d.eg.tribTx
    modify fun d => { d with eg.express := express, eg.preempt := preempt, eg.tribTx := tribTx }
    puntEnds f.id (if fault.isSome then none else some (f.data.take (f.data.length - 4)))
    if f.mirrorWait then
      setFrame { f with mirrorWait := false }
      mirrorIngress { f with mirrorWait := false }
    frameDone f.id

/-! ### Residue expiry and flushes -/

/-- FLUSH_QUEUE (R305). -/
def flushQueue (q : Nat) : M Unit := do
  let n ← emptyQueue q 0xF
  raiseEv 320 0x4009 1 q n 0

/-- Strand or flush the bounded FIFO of a port or tributary, all but a frame in transmission (R304, R305): each counts at `sub`
of 4031h. Answers how many. -/
def emptyBounded (p : Nat) (trib : Option Nat) (sub : Nat) : M Nat := do
  let d ← get
  let now ← devNow
  let l := match trib with | some e => d.fifoT e | none => d.fifoB p
  let tx := match trib with | some e => oget d.eg.tribTx e | none => oget d.eg.express p
  let busy : Copy → Bool := fun c => match tx with
    | some t => t.copy.bounded && t.copy.frame == c.frame && t.copy.idx == c.idx
    | none => false
  let keep := l.filter busy
  let gone := l.filter (fun c => !busy c)
  set (match trib with | some e => d.setFifoT e keep | none => d.setFifoB p keep)
  for c in gone do incO 0x4031 sub (c.port * 8 + c.tc)
  dropCopies gone { outcome := 10, at0 := now }
  return gone.length

/-- FLUSH_BOUNDED (R305). -/
def flushBounded (p : Nat) : M Unit := do
  let n ← emptyBounded p none 0x10
  let d ← get
  let now ← devNow
  let fin := match oget d.eg.express p with
    | some t => if t.copy.bounded then (let c := d.currentCopy t.copy; c.start + d.wOf p (c.plen + 20)) else now
    | none => now
  setO 0x4030 1 p fin
  raiseEv 320 0x4009 1 (0x80000000 + p) n 0

/-- A retired cell whose last copy has ended is mapped to a spare, or stays retired (R455). -/
def cellRemap (cell : Nat) : M Unit := do
  let d ← get
  if d.yard.retired.contains cell then
    let spares := d.o 0x7020 1
    if 0 < spares then
      let d := (d.setO 0x7020 1 0 (spares - 1)).setO 0x4000 0xA 0 (d.o 0x4000 0xA - 1)
      set { d with yard.retired := d.yard.retired.filter (· != cell) }
      incO 0x7020 2
      repairRecord 1 0 cell
      raiseEv 578 0x7004 1 1 0xFF cell
    else if !d.yard.noSpare then
      set { d with yard.noSpare := true }
      raiseEv 578 0x7005 2 1 0xFF cell

/-! ### Meanings -/

/-- FRAME_ADMIT (R287). -/
def execFrameAdmit (id : Nat) (s : State) := run (.frameAdmit id) (frameAdmit id) s

/-- RESIDUE_EXPIRY (R309). The entry behind is retried when a cell next leaves the queue. -/
def execResidueExpiry (q : Nat) (s : State) := run (.residueExpiry q) (expireHead q) s

/-- CELL_REMAP (R455). -/
def execCellRemap (cell : Nat) (s : State) := run (.cellRemap cell) (cellRemap cell) s

end Sys2Proof.Machine
end

