-- ==== Sys2Proof/Machine/Export.lean ====
section
/-! DEFINITION. Bandwidth windows (R383), monitors (R385) and flow export (R394 to R396). -/

namespace Sys2Proof.Machine

/-! ### Bandwidth windows -/

/-- The window of a port and direction ends: `x` is p × 2 + d. -/
def bwEnd (x : Nat) : M Unit := do
  let d ← get
  let len := mget (dK 1000) d.mon.bwLen x
  let rate := 8 * nget d.mon.bwBytes x / len
  set (d.setO 0x6020 2 x rate |>.setO 0x6020 4 x (nget d.mon.bwFrames x))
  peakO 0x6020 3 x rate
  let old := (List.range 63).map (fun h => d.o 0x6021 1 (x * 64 + h))
  let hist := if d.o 0x6020 1 = len then rate :: old else List.replicate 64 0
  modify fun d =>
    let d := (hist.zipIdx).foldl (fun d e => d.setO 0x6021 1 (x * 64 + e.2) e.1) d
    { d with
      mon.bwBytes := nset d.mon.bwBytes x 0
      mon.bwFrames := nset d.mon.bwFrames x 0
      mon.bwLen := mset (dK 1000) d.mon.bwLen x (d.o 0x6020 1) }

/-! ### Monitors -/

/-- The bin of a sample: how many edges are at or below it. -/
def Dev.monBin (d : Dev) (m v : Nat) : Nat :=
  ((List.range 15).filter (fun k => d.o 0x6031 1 (m * 15 + k) ≤ v)).length

/-- A sample enters the current interval of its monitor (R385). -/
def monEnter (m v : Nat) : M Unit := do
  let d ← get
  incO 0x6032 1 m
  addO 0x6032 4 m v
  minO 0x6032 2 m v
  peakO 0x6032 3 m v
  incO 0x6032 (5 + d.monBin m v) m

/-- Where the interval of monitor `m` that holds time `now` begins (R385). -/
def Dev.monStart (d : Dev) (m now : Nat) : Nat :=
  let period := d.o 0x6030 3 m * uMs
  now / period * period

/-- A sample of date `date` reaches its monitor: it enters the interval of its date, and waits while the one before has not closed. -/
def monArrive (m date v : Nat) : M Unit := do
  let d ← get
  let start := d.monStart m (d.instantNow (← read))
  if nget d.mon.ended m ≠ start ∧ start ≤ date then set { d with mon.next := d.mon.next ++ [(m, v)] }
  else monEnter m v

/-- What a quantity that is sampled every 1 µs stands at: free shared cells, a message pool, the FIFO of a bay (R384). -/
def Dev.monGauge (d : Dev) (q scope : Nat) : Option Nat :=
  match q with
  | 4 => some d.sharedFree
  | 7 => some (d.o 0x4302 1 scope)
  | 8 => some (mget (dK []) d.yard.fifos scope).length
  | _ => none

/-- MON_SAMPLE: a sample reaches monitor `m`: what its quantity stands at, or sample `v` of those on their way to it (R384, R385). -/
def monSample (m v : Nat) : M Unit := do
  let d ← get
  match d.monGauge (d.o 0x6030 1 m) (d.o 0x6030 2 m) with
  | some x => monArrive m (d.instantNow (← read)) x
  | none =>
    let l := d.mon.feed.filter (fun x => x.1 == m)
    match l[v % l.length]? with
    | some x =>
      set { d with mon.feed := d.mon.feed.erase x }
      monArrive m x.2.1 x.2.2
    | none => return ()

/-- The current values of a monitor are reset. -/
def monReset (m : Nat) : M Unit :=
  modify fun d => (List.range 20).foldl (fun d k => d.setO 0x6032 (k + 1) m (if k = 1 then 0xFFFFFFFF else 0)) d

/-- The current interval of a monitor begins anew, empty; samples of the former quantity or scope are void (R384). -/
def monRestart (m : Nat) : M Unit := do
  let k ← read
  modify fun d => { d with
    mon.feed := d.mon.feed.filter (fun x => x.1 != m)
    mon.next := d.mon.next.filter (fun x => x.1 != m)
    mon.ended := nset d.mon.ended m (d.monStart m (d.instantNow k)) }
  monReset m

/-- An interval's values become the previous values (R385). -/
def monEnd (m : Nat) : M Unit := do
  let d ← get
  let c ← read
  let valid := d.oB 0x1800 3
  let start := d.monStart m (d.instantNow c)
  let d := (List.range 20).foldl (fun d k => d.setO 0x6033 (k + 1) m (d.o 0x6032 (k + 1) m)) d
  let d := d.setO 0x6033 0x15 m (toT80 start)
  let d := d.setO 0x6033 0x16 m (if valid && d.mon.monGood.contains m then 0 else 1)
  set { d with
    mon.monGood := if valid then m :: d.mon.monGood.filter (· != m) else d.mon.monGood.filter (· != m)
    mon.ended := nset d.mon.ended m start
    mon.next := d.mon.next.filter (fun x => x.1 != m) }
  monReset m
  for x in d.mon.next.filter (fun x => x.1 == m) do monEnter m x.2

/-! ### Export -/

/-- Records an export buffer holds. -/
def expSize : Nat := 8388608

/-- Records that Sill `k`'s export buffer holds. -/
def Dev.expBuf (d : Dev) (k : Nat) : List (Nat × Bool × Bytes) := mget (dK []) d.mon.exp k

/-- Replace the export buffer of a Sill, and its count. -/
def Dev.setExp (d : Dev) (k : Nat) (l : List (Nat × Bool × Bytes)) : Dev :=
  { (d.setO 0x6071 4 k l.length) with mon.exp := mset (dK []) d.mon.exp k l }

/-- The length of an IP header and its UDP header: IPv4 or IPv6 (6070h.06). -/
def Dev.expHead (d : Dev) : Nat := if d.o 0x6070 6 = 0 then 28 else 48

/-- Whether a message of `body` octets of sets fits 6070h.08. -/
def Dev.expFits (d : Dev) (body : Nat) : Bool := decide (d.expHead + 16 + body ≤ d.o 0x6070 8)

/-- The octets of the data sets of some records. -/
def setsLen (l : List (Nat × Bool × Bytes)) : Nat :=
  let n := (l.filter (fun r => !r.2.1)).length
  let w := (l.filter (fun r => r.2.1)).length
  (if n = 0 then 0 else 4 + 52 * n) + (if w = 0 then 0 else 4 + 100 * w)

/-- How many records from the front fit one message. -/
def Dev.expTake (d : Dev) (l : List (Nat × Bool × Bytes)) : Nat → Nat
  | 0 => 0
  | n + 1 => if d.expFits (setsLen (l.take (n + 1))) then n + 1 else d.expTake l n

/-- One data set, or nothing. -/
def dataSet (id : Nat) (l : List Bytes) : Bytes :=
  let b := l.flatten
  if b.isEmpty then [] else toBytes 2 id ++ toBytes 2 (b.length + 4) ++ b

/-- Information elements and lengths of template 256 or 257 (R396). -/
def templateFields (wide : Bool) : List (Nat × Nat) :=
  let a := if wide then 16 else 4
  [(if wide then 27 else 8, a), (if wide then 28 else 12, a), (7, 2), (11, 2), (4, 1), (6, 2), (86, 8), (85, 8), (150, 4), (151, 4),
   (if wide then 281 else 225, a), (if wide then 282 else 226, a), (227, 2), (228, 2), (136, 1)]

/-- A template set (RFC 7011). -/
def templateSet (wide : Bool) : Bytes :=
  let f := templateFields wide
  toBytes 2 2 ++ toBytes 2 (8 + 4 * f.length) ++ toBytes 2 (if wide then 257 else 256) ++ toBytes 2 f.length ++
    f.flatMap (fun e => toBytes 2 e.1 ++ toBytes 2 e.2)

/-- The frame of an IPFIX message: header octets with lengths and checksums filled (R395), message header, sets, FCS. -/
def Dev.expFrame (d : Dev) (k seq time : Nat) (sets : Bytes) : Bytes :=
  let msg := toBytes 2 10 ++ toBytes 2 (16 + sets.length) ++ toBytes 4 time ++ toBytes 4 seq ++ toBytes 4 (d.o 0x6070 7 + k) ++ sets
  let hl := d.o 0x6070 5
  let h := (toBytes 64 (d.o 0x6070 4)).take hl
  let udpLen := 8 + msg.length
  let udp := hl - 8
  let h := overlay (overlay h (udp + 4) (toBytes 2 udpLen)) (udp + 6) [0#8, 0#8]
  let h :=
    if d.o 0x6070 6 = 0 then
      let ip := hl - 28
      let h := overlay (overlay h (ip + 2) (toBytes 2 (20 + udpLen))) (ip + 10) [0#8, 0#8]
      overlay h (ip + 10) (toBytes 2 (inetChecksum (slice h ip 20)))
    else
      let ip := hl - 48
      let h := overlay h (ip + 4) (toBytes 2 udpLen)
      let pseudo := slice h (ip + 8) 32 ++ toBytes 4 udpLen ++ toBytes 4 17
      let ck := inetChecksum (pseudo ++ slice h udp 8 ++ msg)
      overlay h (udp + 6) (toBytes 2 (if ck = 0 then 0xFFFF else ck))
  let b := h ++ msg
  b ++ fcsBytes b

/-- Send a message of Sill `k`, if its message rate allows. -/
def expSend (k : Nat) (sets : Bytes) (records : Nat) : M Bool := do
  let d ← get
  let c ← read
  let sec := c.run / uS
  let (s, n) := mget (dK (0, 0)) d.mon.expRate k
  let n := if s = sec then n else 0
  if d.o 0x6070 0xC ≤ n then return false
  else
    let seq := nget d.mon.expSeq k
    let time := ((c.secs : Int) + d.oS 64 0x6070 0xA) % 2 ^ 32
    set { d with
      mon.expRate := mset (dK (0, 0)) d.mon.expRate k (sec, n + 1)
      mon.expSeq := nset d.mon.expSeq k ((seq + records) % 2 ^ 32) }
    let _ ← deviceFrame (d.expFrame k seq time.toNat sets) 0 (d.o 0x6070 2 % 256) (d.o 0x6070 3) 0
    addO 0x6071 1 k records
    incO 0x6071 2 k
    return true

/-- Send one message of the oldest `n` records. -/
def expMessage (k n : Nat) : M Unit := do
  let d ← get
  let l := d.expBuf k
  let now := l.take n
  if !now.isEmpty then
    let sets := dataSet 256 ((now.filter (fun r => !r.2.1)).map (·.2.2)) ++ dataSet 257 ((now.filter (fun r => r.2.1)).map (·.2.2))
    let ok ← expSend k sets now.length
    if ok then modify (·.setExp k (l.drop n))

/-- A record of Sill `k` is lost: cause 0 buffer full, 1 disabled, 2 DRAM loss. -/
def expLost (k cause : Nat) : M Unit := do
  incO 0x6071 3 k
  raiseLim (637 + k) 0x6006 2 k k cause 0 3

/-- The oldest `n` records are read from DRAM for a message; one whose bursts fail is lost (R351, R355). -/
def expRead (k n : Nat) : M Unit := do
  for r in ((← get).expBuf k).take n do
    if !(← dramTake k (1280 + r.1 % expSize / 65536) (r.1 % 65536 * 2) 2 true) then
      modify fun d => d.setExp k ((d.expBuf k).erase r)
      expLost k 2

/-- A message of the oldest `n` records, those that are good. -/
def expRun (k n : Nat) : M Unit := do
  let was := ((← get).expBuf k).length
  expRead k n
  let lost := was - ((← get).expBuf k).length
  expMessage k (n - lost)

/-- A record reaches the exporter (R394): it goes into the buffer; a message that is full is sent (R395). -/
def exportRecord (k : Nat) (wide : Bool) (data : Bytes) : M Unit := do
  let d ← get
  if !d.oB 0x6070 1 then expLost k 1
  else if expSize ≤ (d.expBuf k).length then expLost k 0
  else
    let n := nget d.mon.expIn k
    let l := d.expBuf k ++ [(n, wide, data)]
    set { d.setExp k l with mon.expIn := nset d.mon.expIn k (n + 1) }
    dramAskSeg k (1280 + n % expSize / 65536) (n % 65536 * 2) 2 true true
    let fit := d.expTake l l.length
    if fit < l.length ∨ !d.expFits (setsLen (l ++ [(n, wide, data)])) then expRun k fit

/-- Records whose buffer segment is lost (R355, R394). -/
def exportSegmentLost (k seg : Nat) : M Unit := do
  let d ← get
  let gone := fun (r : Nat × Bool × Bytes) => r.1 % expSize / 65536 == seg
  let l := d.expBuf k
  set (d.setExp k (l.filter (fun r => !gone r)))
  for _ in l.filter gone do expLost k 2

/-! ### Meanings -/

/-- BW_WINDOW_END (R383). -/
def execBwWindowEnd (p : Nat) (tx : Bool) (s : State) := run (.bwWindowEnd p tx) (bwEnd (p * 2 + tx.toNat)) s

/-- MON_SAMPLE (R385). -/
def execMonSample (m v : Nat) (s : State) := run (.monSample m v) (monSample m v) s

/-- MON_INTERVAL_END (R385). -/
def execMonIntervalEnd (m : Nat) (s : State) := run (.monIntervalEnd m) (monEnd m) s

/-- EXPORT_FLUSH_EXPIRY (R395): one message of the oldest records. -/
def execExportFlushExpiry (k : Nat) (s : State) :=
  run (.exportFlushExpiry k) (do
    let d ← get
    let l := d.expBuf k
    expRun k (d.expTake l (min l.length 200))) s

/-- EXPORT_TEMPLATE_SEND (R395): both template sets, from each Sill. -/
def execExportTemplateSend (s : State) :=
  run .exportTemplateSend (do
    if (← getB 0x6070 1) then
      for k in [0, 1] do
        let _ ← expSend k (templateSet false ++ templateSet true) 0) s

end Sys2Proof.Machine
end

