-- ==== Sys2Proof/Machine/Forward.lean ====
section
/-! DEFINITION. Forwarding tables (08): the manager's writes and the bays that apply them (R184), the trie (R186 to R191), the
exact-match tables (R192 to R197), direct tables (R198), learning, moves and aging (R199 to R205), ECMP and link aggregation
(R206 to R209), and the Prism (R178 to R182). -/

namespace Sys2Proof.Machine

/-! ### Master copies and bays -/

/-- The manager writes a table entry (`none`: the address is emptied); every bay has yet to apply it (R184). -/
def Dev.mgrTbl (d : Dev) (key : Nat) (v : Option Nat) : Dev :=
  { d with tbls := oset d.tbls key v, bays.log := d.bays.log ++ [⟨true, key, oget d.tbls key⟩] }

/-- The manager writes an object that is replicated in the bays. -/
def Dev.mgrObj (d : Dev) (key v : Nat) : Dev :=
  { d with objs := mset objDflt d.objs key v, bays.log := d.bays.log ++ [⟨false, key, some (mget objDflt d.objs key)⟩] }

/-- The writes that bay `b` has not applied. -/
def Dev.unapplied (d : Dev) (b : Nat) : List BayWrite := d.bays.log.drop (nget d.bays.pos b - d.bays.base)

/-- A table entry as bay `b` holds it. -/
def Dev.bayTbl (d : Dev) (b key : Nat) : Option Nat :=
  match (d.unapplied b).find? (fun w => w.tbl && w.key == key) with
  | some w => w.old
  | none => oget d.tbls key

/-- A replicated object as bay `b` holds it. -/
def Dev.bayObj (d : Dev) (b ix sub : Nat) (i : Nat := 0) : Nat :=
  let key := okey ix sub i
  match (d.unapplied b).find? (fun w => !w.tbl && w.key == key) with
  | some w => w.old.getD 0
  | none => mget objDflt d.objs key

/-- The table that a table key belongs to, as index × 256 + sub-index. -/
def tkeyTable (k : Nat) : Nat := k >>> 32

/-- The occupied addresses of a table with their entries, in ascending order. -/
def Dev.entries (d : Dev) (ix sub : Nat) : List (Nat × Nat) :=
  d.tbls.filterMap fun e => if tkeyTable e.1 = ix * 256 + sub then e.2.map (fun v => (e.1 % 2 ^ 32, v)) else none

/-- The same as bay `b` holds them, in no particular order. -/
def Dev.bayEntries (d : Dev) (b ix sub : Nat) : List (Nat × Nat) :=
  let w := (d.unapplied b).filter (fun w => w.tbl && tkeyTable w.key == ix * 256 + sub)
  let changed := nub (w.map (fun x => x.key % 2 ^ 32))
  (d.entries ix sub).filter (fun e => !changed.contains e.1) ++
    changed.filterMap (fun a => (d.bayTbl b (tkey ix sub a)).map (fun v => (a, v)))

/-- A bay applies its next write between two lookups (R184); writes that every bay has applied are forgotten. -/
def bayApply (b : Nat) : M Unit := do
  let d ← get
  let p := max d.bays.base (nget d.bays.pos b)
  if p < d.bays.base + d.bays.log.length then
    let pos := nset d.bays.pos b (p + 1)
    let low := (List.range 64).foldl (fun a x => min a (max d.bays.base (nget pos x))) (p + 1)
    -- a Prism entry that is written is no longer disabled in this bay (R181)
    let off := match d.bays.log[p - d.bays.base]? with
      | some w => if w.tbl ∧ tkeyTable w.key = 0x320001 then d.bays.prismOff.filter (· ≠ b * 16384 + w.key % 2 ^ 32) else d.bays.prismOff
      | none => d.bays.prismOff
    set { d with bays.pos := pos, bays.base := low, bays.log := d.bays.log.drop (low - d.bays.base), bays.prismOff := off }

/-! ### The Prism -/

/-- The rows of a Prism entry: 1, 2 or 4 (R178). -/
def prismRows (e : Bytes) : Nat := match byteAt e 0 / 16 % 4 with | 0 => 1 | 1 => 2 | _ => 4

/-- An entry matches a key of `w` rows in a partition (R179). -/
def prismMatch (part w key : Nat) (v : Nat) : Bool :=
  let e := toBytes 180 v
  let n := 20 * w
  bitOf (byteAt e 0) 7 && byteAt e 0 % 4 == part && prismRows e == w && ((key ^^^ beAt e 4 n) &&& beAt e 84 n) == 0

/-- The first match of bay `b`: the lowest address that is not disabled there and whose row matches. The rows in use at the addresses `hits`
are damaged so that the key matches them, those at `miss` so that it does not (R181, R182). -/
def Dev.prismFind (d : Dev) (b part w key : Nat) (hits miss : List Nat := []) : Option (Nat × Nat) :=
  let l := (d.bayEntries b 0x3200 1).filter (fun e => (hits.contains e.1 || prismMatch part w key e.2 && !miss.contains e.1) &&
    !d.bays.prismOff.contains (b * 16384 + e.1))
  l.foldl (fun (a : Option (Nat × Nat)) e => match a with
    | some x => if e.1 < x.1 then some e else a
    | none => some e) none

/-- An entry is taken out of service in a bay, and counted (R181). -/
def prismOut (b a : Nat) : M Unit := do
  modify fun d => { d with
    bays.prismOff := if d.bays.prismOff.contains (b * 16384 + a) then d.bays.prismOff else d.bays.prismOff ++ [b * 16384 + a] }
  incO 0x3210 1 b
  setO 0x3210 3 b a

/-- An entry is disabled in a bay (R181, R182); `cause` 0 lookup, 1 scrub. -/
def prismDisable (b a cause part : Nat) : M Unit := do
  prismOut b a
  raiseEv (256 + b) 0x3004 2 a cause part

/-- The entry of bay `b` that row `a` belongs to: the row itself, or one of the three before it (R178, R182). -/
def Dev.prismAt (d : Dev) (b a : Nat) : Option (Nat × Nat) :=
  (List.range 4).findSome? fun k =>
    if a < k then none
    else match d.bayTbl b (tkey 0x3200 1 (a - k)) with
      | some v => if k < prismRows (toBytes 180 v) then some (a - k, v) else none
      | none => none

/-- What a Prism lookup gives: result and hit, and the FLAGS bits it sets (8 reissued, 4 forced miss, in FLAGS [11:10] × 4). -/
structure PrismOut where
  result : Nat
  hit : Bool
  reissued : Bool
  forced : Bool
  deriving DecidableEq, Repr

/-- A lookup of bay `b` (R179, R181), with damaged rows as in `prismFind`. The key is compared with the check copy of the entry matched, which is
the entry as it was written: a mismatch disables the entry, and the lookup is reissued once. -/
def prismLookup (b part w key : Nat) (hits miss : List Nat) : M PrismOut := do
  match (← get).prismFind b part w key hits miss with
  | none => return ⟨0, false, false, false⟩
  | some (a, v) =>
    if prismMatch part w key v then
      incO 0x3201 1 a
      return ⟨v % 2 ^ 128, true, false, false⟩
    else
      prismDisable b a 0 part
      match (← get).prismFind b part w key hits miss with
      | none => return ⟨0, false, true, false⟩
      | some (a2, v2) =>
        if prismMatch part w key v2 then
          incO 0x3201 1 a2
          return ⟨v2 % 2 ^ 128, true, true, false⟩
        else
          prismOut b a2
          raiseEv (256 + b) 0x3005 2 a2 a 0
          return ⟨0, false, true, true⟩

/-- The number of entries disabled in bay `b` (3210h.02). -/
def Dev.prismOffCount (d : Dev) (b : Nat) : Nat := (d.bays.prismOff.filter (fun x => x / 16384 == b)).length

/-! ### The trie -/

/-- The prefix of a trie entry: family, length, VRF, address bits in the top of `8 × n` octets. -/
structure Prefix where
  v6 : Bool
  len : Nat
  vrf : Nat
  addr : Nat
  result : Nat
  deriving DecidableEq, Repr

/-- The fields of a trie entry (R186). -/
def prefixOf (v : Nat) : Prefix :=
  let e := toBytes 36 v
  let v6 := bitOf (byteAt e 0) 6
  { v6 := v6, len := byteAt e 1, vrf := beAt e 2 2 % 4096, addr := beAt e 4 (if v6 then 16 else 4), result := v % 2 ^ 128 }

/-- The width of an address of a family. -/
def Prefix.width (p : Prefix) : Nat := if p.v6 then 128 else 32

/-- Units of a prefix (R187). -/
def Prefix.units (p : Prefix) : Nat := if !p.v6 then 1 else if p.len ≤ 64 then 2 else 4

/-- A prefix covers an address. -/
def Prefix.covers (p : Prefix) (v6 : Bool) (vrf addr : Nat) : Bool :=
  p.v6 == v6 && p.vrf == vrf && decide (p.len ≤ p.width) && p.addr >>> (p.width - p.len) == addr >>> (p.width - p.len)

/-- The longest prefix of bay `b` that matches (R188). -/
def Dev.trieFind (d : Dev) (b : Nat) (v6 : Bool) (vrf addr : Nat) : Option Nat :=
  let l := ((d.bayEntries b 0x3440 1).map (fun e => prefixOf e.2)).filter (fun p => p.covers v6 vrf addr)
  (l.foldl (fun (a : Option Prefix) p => match a with
    | some x => if x.len < p.len then some p else a
    | none => some p) none).map Prefix.result

/-- What serves stage 5 of bay `b` (3441h.04, R190, R191). -/
def Dev.lpmState (d : Dev) (b : Nat) : Nat :=
  let re := (oget d.bays.rebuild b).isSome
  match d.o 0x3441 1 with
  | 1 => 2
  | 2 => if !d.oB 0x3441 2 then 1 else if re then 3 else 0
  | _ => if re then 4 else 0

/-- An uncorrectable node in bay `b`: its rebuild starts (R191). -/
def trieError (b : Nat) : M Unit := do
  let d ← get
  let now ← runNow
  if oget d.bays.rebuild b = none then
    set { d with bays.rebuild := oset d.bays.rebuild b (some now) }
  incO 0x3441 5 b
  let node ← fresh
  raiseEv (256 + b) 0x3405 2 b node (d.o 0x3441 1)

/-- A bay returns to the trie (R191). -/
def trieRebuilt (b : Nat) : M Unit := do
  let d ← get
  match oget d.bays.rebuild b with
  | none => return ()
  | some t =>
    let now ← runNow
    set { d with bays.rebuild := oset d.bays.rebuild b none }
    raiseEv (256 + b) 0x3406 1 b ((now - t) / uMs) 0

/-! ### Exact-match tables -/

/-- Keys of table `t` are 320 bits wide. -/
def Dev.emWide (d : Dev) (t : Nat) : Bool := d.o 0x3401 2 t == 1

/-- The octets of a key of table `t`. -/
def Dev.emKeyLen (d : Dev) (t : Nat) : Nat := if d.emWide t then 40 else 20

/-- The key of an entry of 60 octets. -/
def Dev.emKey (d : Dev) (t v : Nat) : Nat := beAt (toBytes 60 v) 4 (d.emKeyLen t)

/-- The first address of the candidate bucket of a key in half `x` (R193). -/
def Dev.emBucket (d : Dev) (t key x : Nat) : Nat :=
  let b := d.o 0x3401 1 t
  let s := toBytes 1 t ++ toBytes (d.emKeyLen t) key
  let h := if x = 0 then crc32c s else crc32 s
  x * 4 * b + h % b * 4

/-- The ways of a bucket of table `t` (R192). -/
def Dev.emWays (d : Dev) (t : Nat) : List Nat := if d.emWide t then [0, 2] else [0, 1, 2, 3]

/-- The slots of the bucket of a key in half `x`, ascending; none while the table is unused. -/
def Dev.emSlots (d : Dev) (t key x : Nat) : List Nat :=
  if d.o 0x3401 1 t = 0 then [] else (d.emWays t).map (fun w => d.emBucket t key x + w)

/-- The slot that holds a key, half 0 first (R195), where `get` reads a slot. -/
def Dev.emFind (d : Dev) (t key : Nat) (read : Nat → Option Nat) : Option (Nat × Nat) :=
  (d.emSlots t key 0 ++ d.emSlots t key 1).findSome? fun a =>
    match read a with
    | some v => if d.emKey t v = key then some (a, v) else none
    | none => none

/-- A slot of the master copy. -/
def Dev.emMaster (d : Dev) (t a : Nat) : Option Nat := oget d.tbls (tkey 0x3400 (t + 1) a)

/-- The device with the geometry of table `t` as bay `b` holds it: it changes in the bay after the earlier writes (R184). -/
def Dev.inBay (d : Dev) (b t : Nat) : Dev := (d.setO 0x3401 1 t (d.bayObj b 0x3401 1 t)).setO 0x3401 2 t (d.bayObj b 0x3401 2 t)

/-- A slot as bay `b` holds it. -/
def Dev.emBay (d : Dev) (b t a : Nat) : Option Nat := d.bayTbl b (tkey 0x3400 (t + 1) a)

/-- The half of an address. -/
def Dev.emHalf (d : Dev) (t a : Nat) : Nat := if a < 4 * d.o 0x3401 1 t then 0 else 1

/-- Breadth-first search for a chain of moves (R196): paths of occupied slots, each to be moved to its other half. Answers the path
and the free slot its last entry moves into. `fuel` bounds the length. -/
def Dev.emChain (d : Dev) (t : Nat) : Nat → List (List Nat) → List Nat → Option (List Nat × Nat)
  | 0, _, _ => none
  | fuel + 1, paths, seen =>
    let other := fun (a : Nat) => match d.emMaster t a with
      | some v => d.emSlots t (d.emKey t v) (1 - d.emHalf t a)
      | none => []
    let done := paths.findSome? fun p => match p.getLast? with
      | some a => ((other a).find? (fun s => (d.emMaster t s).isNone)).map (fun s => (p, s))
      | none => none
    match done with
    | some r => some r
    | none =>
      let step := paths.foldl (fun (acc : List (List Nat) × List Nat) p => match p.getLast? with
        | some a =>
          let new := (other a).filter (fun s => !acc.2.contains s)
          (acc.1 ++ new.map (fun s => p ++ [s]), acc.2 ++ new)
        | none => acc) ([], seen)
      d.emChain t fuel step.1 step.2

/-- Make the moves of a chain, the move into the free slot first (R196, R197): each is a copy, then an invalidation. -/
def emMoves (t : Nat) : List Nat → Nat → M Unit
  | [], _ => return ()
  | a :: rest, dst => do
    let d ← get
    let key := fun (x : Nat) => tkey 0x3400 (t + 1) x
    set ((d.mgrTbl (key dst) (d.emMaster t a)).mgrTbl (key a) none)
    incO 0x3401 5 t
    emMoves t rest a

/-- Insertion into exact-match table `t` (R196): status and address. -/
def emInsert (t v : Nat) : M (Nat × Nat) := do
  let d ← get
  let key := d.emKey t v
  match d.emFind t key (d.emMaster t) with
  | some (a, _) => return (0x502, a)
  | none =>
    let slots := d.emSlots t key 0 ++ d.emSlots t key 1
    match slots.find? (fun a => (d.emMaster t a).isNone) with
    | some a =>
      set (d.mgrTbl (tkey 0x3400 (t + 1) a) (some v))
      return (0, a)
    | none =>
      match d.emChain t 8 (slots.map (fun a => [a])) slots with
      | none =>
        incO 0x3401 4 t
        return (0x501, 0)
      | some (path, free) =>
        emMoves t path.reverse free
        peakO 0x3401 6 t path.length
        let a := path.headD 0
        modify fun d => d.mgrTbl (tkey 0x3400 (t + 1) a) (some v)
        return (0, a)

/-- A table insertion failed (R187, R196, R202): table (FFh the trie), 0 host or management, 1 learning. -/
def insertFailed (t who : Nat) : M Unit := raiseLim 636 0x3401 2 t t who 0 3

/-- Lookup `k` of bay `b` in exact-match table `t` (R195); `err`: a word read is uncorrectable, so it misses (R185). -/
def emLookup (b t key : Nat) (err : Bool) : M (Option Nat) := do
  let d ← get
  match (if err then none else (d.inBay b t).emFind t key (d.emBay b t)) with
  | some (_, v) =>
    incO 0x3401 7 t
    return some (v % 2 ^ 128)
  | none =>
    incO 0x3401 8 t
    return none

/-! ### Direct-indexed tables (R198) -/

/-- The object and size of direct table `d`. -/
def dirTable (i : Nat) : Nat × Nat := (0x3451 + i, if i < 2 then 16384 else 4096)

/-- The stage-7 result in bay `b`; `bad i`: table `i` read an uncorrectable word. -/
def Dev.dirLookup (d : Dev) (b : Nat) (fields : PMap Nat) (tenon presence : Nat) (bad : Nat → Bool) : Nat :=
  (List.range 4).foldl (fun a i =>
    let sel := d.o 0x3450 1 i
    let (ix, size) := dirTable i
    let word := keyWord fields tenon presence sel
    let v := if sel = 0xFF ∨ bad i then 0 else d.bayObj b ix 1 ((word >>> d.o 0x3450 2 i) % size)
    a <<< 32 + v) 0

/-! ### ECMP and link aggregation (R206 to R209) -/

/-- Rotate a 32-bit value left. -/
def rotl32 (x n : Nat) : Nat := let n := n % 32; (x <<< n ||| x >>> (32 - n)) % 2 ^ 32

/-- A port counts as live (R209). -/
def Dev.portLive (d : Dev) (p : Nat) : Bool := d.portUp p && !d.slotted p

/-- live(lag, a, j) in bay `b`: a live member port. -/
def Dev.lagLive (d : Dev) (b a j : Nat) : Option Nat :=
  (List.range 256).findSome? fun n =>
    let k := d.bayObj b 0x3472 1 (a * 256 + (j + n) % 256)
    let p := d.bayObj b 0x3471 1 (a * 16 + k)
    if p < 256 ∧ d.portLive p then some p else none

/-- A link-aggregation group has a live member in one of its slots (R209). -/
def Dev.lagAny (d : Dev) (b a : Nat) : Bool := (List.range 16).any fun k =>
  let p := d.bayObj b 0x3471 1 (a * 16 + k)
  decide (p < 256) && d.portLive p

/-- An ECMP member is live (R209). -/
def Dev.memberLive (d : Dev) (b m : Nat) : Bool :=
  let id := fld m 40 20
  match m >>> 60 with
  | 1 => decide (id < 256) && d.portLive id
  | 3 => decide (id < 256) && d.lagAny b id
  | _ => false

/-- The size of an ECMP group, 0 for an unused one. -/
def Dev.ecmpSize (d : Dev) (b g : Nat) : Nat :=
  let n := fld (d.bayObj b 0x3460 1 g) 18 4
  if n = 0 then 0 else 2 ^ n

/-- live(ecmp, g, i) in bay `b`: a live member. -/
def Dev.ecmpLive (d : Dev) (b g i : Nat) : Option Nat :=
  let size := d.ecmpSize b g
  let base := d.bayObj b 0x3460 1 g % 2 ^ 18
  (List.range size).findSome? fun n =>
    let m := d.bayObj b 0x3462 1 (d.bayObj b 0x3461 1 (base + (i + n) % size))
    if d.memberLive b m then some m else none

/-- Groups whose liveness a change may touch: (kind, group) that are configured. -/
def Dev.groupsUsed (d : Dev) : List (Nat × Nat) :=
  let ec := (d.objs.filter (fun e => keyIndex e.1 == 0x3460 && keySub e.1 == 1 && fld e.2 18 4 != 0)).map (fun e => (2, keyInst e.1))
  let la := nub ((d.objs.filter (fun e => keyIndex e.1 == 0x3471)).map (fun e => keyInst e.1 / 16))
  ec ++ la.map (fun a => (3, a))

/-- A group has a live member, in the master copy. -/
def Dev.groupLive (d : Dev) (g : Nat × Nat) : Bool :=
  let d := { d with bays.log := [] }
  if g.1 = 2 then (d.ecmpLive 0 g.2 0).isSome else d.lagAny 0 g.2

/-- Record groups whose last live member has gone, or whose first has returned, since `before` (R209). -/
def livenessChange (before : Dev) : M Unit := do
  let d ← get
  for g in (before.groupsUsed ++ d.groupsUsed).eraseDups do
    let was := before.groupLive g
    let now := d.groupLive g
    if was ≠ now then raiseEv 636 0x3407 2 g.1 g.2 (if now then 0 else 1)

/-- The link-aggregation group of a port (3470h.02), FFFFh for none. -/
def Dev.portLag (d : Dev) (p : Nat) : Nat :=
  match d.objs.find? (fun e => keyIndex e.1 == 0x3471 && e.2 == p) with
  | some e => keyInst e.1 / 16
  | none => 0xFFFF

/-- What destination resolution gives (R206). -/
inductive Resolved where
  | drop
  | dest (f : Frame)

/-- Resolve the destination of a frame with VERDICT 0; `ecmpErr`, `lagErr`: the bay reads an uncorrectable word, so the lookup
misses (R185). -/
def resolveDest (f : Frame) (ecmpErr lagErr : Bool) : M Resolved := do
  let d ← get
  let b := f.bay
  let hash := f.tf 294 32
  let kind := f.tf 450 4
  let id := f.tf 430 20
  if kind = 0 ∨ kind = 1 ∧ 255 < id ∨ 4 < kind then
    incO 0x3020 8 f.port
    return .drop
  else
    let step : Option Frame ←
      if kind = 2 then
        if 4095 < id then do
          incO 0x3463 2
          pure none
        else
          let size := d.ecmpSize b id
          let i := rotl32 hash (d.bayObj b 0x3460 2 id) % (max 1 size)
          match (if ecmpErr then none else d.ecmpLive b id i) with
          | none => do
            incO 0x3463 1 id
            pure none
          | some m => pure (some (((f.setT 200 24 (m % 2 ^ 24)).setT 450 4 (m >>> 60)).setT 430 20 (fld m 40 20)))
      else pure (some f)
    match step with
    | none => return .drop
    | some f =>
      if f.tf 450 4 = 3 then
        let a := f.tf 430 20
        if 255 < a then
          incO 0x3463 2
          return .drop
        else
          let j := rotl32 hash (d.bayObj b 0x3470 1 a) % 256
          match (if lagErr then none else d.lagLive b a j) with
          | none =>
            incO 0x3473 1 a
            return .drop
          | some p => return .dest ((f.setT 450 4 1).setT 430 20 p)
      else return .dest f

/-! ### Learning (R199 to R205) -/

/-- The learning table. -/
def Dev.learnTable (d : Dev) : Nat := d.o 0x3430 1

/-- RESULT [127:104] of an entry: its location. -/
def locOf (v : Nat) : Nat := fld v 104 24

/-- The location of a frame's source (R199). -/
def Dev.locationOf (d : Dev) (p : Nat) : Nat :=
  let a := d.portLag p
  if a = 0xFFFF then 1 <<< 20 + p else 3 <<< 20 + a

/-- CTRL bits of an exact-match entry. -/
def emCtrl (v : Nat) : Nat := v >>> 472

/-- An entry with its CTRL octet replaced. -/
def emWithCtrl (v c : Nat) : Nat := putFld v 472 8 c

/-- Dynamic entries of the learning table located at port `p` (3433h.02). -/
def Dev.learnedNow (d : Dev) (p : Nat) : Nat :=
  ((d.entries 0x3400 (d.learnTable + 1)).filter (fun e => !bitOf (emCtrl e.2) 6 && locOf e.2 == 1 <<< 20 + p)).length

/-- The learning probe of a frame in stage 6 (R199, R200): the frame, with its request or its verdict. `err`: it reads an
uncorrectable word and misses (R185). -/
def learnProbe (f : Frame) (key : Nat) (err : Bool) : M Frame := do
  let d ← get
  let p := f.port
  let t := d.learnTable
  let loc := d.locationOf p
  match (if err then none else (d.inBay f.bay t).emFind t key (d.emBay f.bay t)) with
  | none => return { f with learn := 1, learnEntry := key <<< 24 + loc }
  | some (a, v) =>
    let c := emCtrl v
    if locOf v = loc then
      if !bitOf c 6 then
        set { d with bays.marks := if d.bays.marks.contains key then d.bays.marks else d.bays.marks ++ [key] }
      return f
    else if bitOf c 6 then
      incO 0x3432 7
      raiseLim 636 0x3402 1 p p a 0 3
      match d.o 0x3430 5 with
      | 1 => return f.setT 480 3 (max 2 (f.tf 480 3))
      | 2 => return if f.tf 480 3 ≤ 1 then (f.setT 480 3 1).setT 394 16 0x10 else f
      | _ => return f
    else if bitOf c 3 then
      incO 0x3432 6
      return f
    else return { f with learn := 2, learnEntry := key <<< 24 + loc }

/-- A learn or move request is dropped: queue (0) or rate (1). One limit serves both causes (R202). -/
def learnDrop (why : Nat) : M Unit := do
  incO 0x3432 (3 + why)
  let now ← devNow
  modify fun d => { d with bays.learnDrops := (why, now) :: d.bays.learnDrops.filter (fun x => now < x.2 + uS) }
  let d ← get
  raiseLim 636 0x3404 1 0 why (d.bays.learnDrops.filter (fun x => x.1 == why)).length 0 3

/-- A frame has ended with a good FCS (fault 4, a length found inconsistent at the end, is no FCS error): its request is sent, past the
repeat filter and the manager's queue (R200, R202); a frame stomped on a medium sends none. -/
def sendLearn (f : Frame) : M Unit := do
  if f.learn ≠ 0 ∧ (f.fault = none ∨ f.fault = some 4) ∧ !f.stomped then
    let d ← get
    let now ← devNow
    let key := f.learnEntry >>> 24
    let seen := mget (dK []) d.bays.seen f.bay
    if !seen.any (fun x => x.1 == key && decide (now < x.2 + 20 * uUs)) then
      set { d with bays.seen := mset (dK []) d.bays.seen f.bay (((key, now) :: seen.filter (fun x => x.1 != key)).take 64) }
      let d ← get
      if 4096 ≤ d.bays.learnQ.length then learnDrop 0
      else
        set { d with bays.learnQ := d.bays.learnQ ++ [LearnReq.mk (f.learn == 2) f.port key (f.learnEntry % 2 ^ 24)] }

/-- The rate limit of requests (R202). -/
def learnRate : M Bool := do
  let d ← get
  let now ← runNow
  let rate := d.o 0x3430 6
  let (ok, b) := bucketTake rate (rate / 10) now d.bays.learnRate
  set { d with bays.learnRate := b }
  return ok

/-- The manager writes an entry of the learning table. -/
def Dev.learnWrite (d : Dev) (a v : Nat) : Dev := d.mgrTbl (tkey 0x3400 (d.learnTable + 1) a) (some v)

/-- The port limit forbids another dynamic entry at the location of a request (R202): counted and recorded. -/
def learnLimited (r : LearnReq) : M Bool := do
  let d ← get
  let limit := d.o 0x3433 1 r.port
  if r.loc >>> 20 = 1 ∧ limit ≠ 0 ∧ limit ≤ d.learnedNow r.port then
    incO 0x3432 9
    raiseLim 636 0x3409 1 r.port r.port limit 0 3
    return true
  else return false

/-- A key that the learning table does not hold is entered as dynamic, where the table takes it (R201, R202). -/
def learnNew (r : LearnReq) : M Unit := do
  let d ← get
  let t := d.learnTable
  let n := d.emKeyLen t
  let v := ofBytes ([0x80#8, 0#8, 0#8, 0#8] ++ toBytes n r.key ++ List.replicate (40 - n) 0#8 ++ toBytes 3 r.loc ++ [0#8] ++
    toBytes 12 (d.o 0x3430 4))
  let (st, _) ← emInsert t v
  if st = 0 then incO 0x3432 1
  else if st = 0x501 then
    incO 0x3432 2
    insertFailed t 1

/-- A learn request is executed (R201, R202): the rate, the port limit, then the table. -/
def learnExec (r : LearnReq) : M Unit := do
  let ok ← learnRate
  if !ok then learnDrop 1
  else if !(← learnLimited r) then
    let d ← get
    if (d.emFind d.learnTable r.key (d.emMaster d.learnTable)).isNone then learnNew r

/-- A move request is executed (R201, R202): the entry's location is rewritten. An entry that has been deleted since is created again
as dynamic (R205). -/
def moveExec (r : LearnReq) : M Unit := do
  let ok ← learnRate
  if !ok then learnDrop 1
  else
    let d ← get
    let t := d.learnTable
    match d.emFind t r.key (d.emMaster t) with
    | none => if !(← learnLimited r) then learnNew r
    | some (a, v) =>
      let c := emCtrl v
      if bitOf c 6 ∨ locOf v = r.loc then return ()
      else if bitOf c 3 then incO 0x3432 6
      else if !(← learnLimited r) then
        let d ← get
        let v := putFld (emWithCtrl v 0x80) 104 24 r.loc
        let d := d.learnWrite a v
        set { d with bays.moves := nset d.bays.moves r.key (nget d.bays.moves r.key + 1) }
        incO 0x3432 5

/-- The request at the front of the manager's queue is executed. -/
def learnNext : M Unit := do
  let d ← get
  match d.bays.learnQ with
  | [] => return ()
  | r :: rest =>
    set { d with bays.learnQ := rest }
    if r.move then moveExec r else learnExec r

/-- Requests that reached the manager earlier are executed before another change of the learning table (R184, R205). -/
def drainLearn : M Unit := do
  for _ in (← get).bays.learnQ do learnNext

/-- The end of a device-time second: entries that moved too often are frozen (R201). -/
def moveSecondEnd : M Unit := do
  drainLearn
  let d ← get
  let t := d.learnTable
  for e in d.bays.moves do
    if d.o 0x3430 7 < e.2 then
      let d ← get
      match d.emFind t e.1 (d.emMaster t) with
      | some (a, v) =>
        set (d.learnWrite a (emWithCtrl v (emCtrl v ||| 8)))
        raiseEv 636 0x3403 1 a (locOf v % 2 ^ 20) e.2
      | none => pure ()
  modify fun d => { d with bays.moves := [] }

/-- A freeze ends (R201). -/
def freezeEnd (a : Nat) : M Unit := do
  drainLearn
  let d ← get
  match d.emMaster d.learnTable a with
  | some v => if bitOf (emCtrl v) 3 then set (d.learnWrite a (emWithCtrl v (clearBits (emCtrl v) 8)))
  | none => return ()

/-- A pass of aging over the learning table (R204). -/
def agingPass : M Unit := do
  drainLearn
  let d ← get
  if d.o 0x3430 9 ≠ 0 then
    let t := d.learnTable
    for e in d.entries 0x3400 (t + 1) do
      let c := emCtrl e.2
      let key := d.emKey t e.2
      if !bitOf c 6 then
        if d.bays.marks.contains key then
          if fld c 4 2 ≠ 0 then modify fun d => d.learnWrite e.1 (emWithCtrl e.2 (putFld c 4 2 0))
        else if fld c 4 2 + 1 = 3 then
          modify fun d => d.mgrTbl (tkey 0x3400 (t + 1) e.1) none
          incO 0x3432 8
        else modify fun d => d.learnWrite e.1 (emWithCtrl e.2 (putFld c 4 2 (fld c 4 2 + 1)))
    modify fun d => { d with bays.marks := [] }

/-- Objects of these chapters whose value is computed. -/
def Dev.forwardObj (d : Dev) (ix sub i : Nat) : Option Nat :=
  match ix, sub with
  | 0x3210, 2 => some (d.prismOffCount i)
  | 0x3401, 3 => some (d.entries 0x3400 (i + 1)).length
  | 0x3433, 2 => some (d.learnedNow i)
  | 0x3440, 2 => some ((d.entries 0x3440 1).foldl (fun a e => a + (prefixOf e.2).units) 0)
  | 0x3440, 4 => some (d.entries 0x3440 1).length
  | 0x3441, 4 => some (d.lpmState i)
  | 0x3470, 2 => some (d.portLag i)
  | _, _ => none

/-! ### Meanings -/

/-- BAY_TABLE_APPLY (R184). -/
def execBayTableApply (b : Nat) (s : State) := run (.bayTableApply b) (bayApply b) s

/-- BAY_COPY_REPAIR (R185): kinds 0 to 7 the exact-match tables, 8 direct, 9 ECMP, 10 link aggregation. -/
def execBayCopyRepair (b kind addr : Nat) (s : State) :=
  run (.bayCopyRepair b kind addr) (do
    if kind < 8 then incO 0x3401 9 kind
    raiseEv (256 + b) 0x3408 2 kind addr 0) s

/-- TRIE_REBUILD_DONE (R191). -/
def execTrieRebuildDone (b : Nat) (s : State) := run (.trieRebuildDone b) (trieRebuilt b) s

/-- LEARN_REQUEST (R202): the request at the front of the manager's queue. -/
def execLearnRequest (s : State) :=
  run .learnRequest (do
    match (← get).bays.learnQ with
    | r :: _ => if !r.move then learnNext
    | [] => return ()) s

/-- MOVE_REQUEST (R201). -/
def execMoveRequest (s : State) :=
  run .moveRequest (do
    match (← get).bays.learnQ with
    | r :: _ => if r.move then learnNext
    | [] => return ()) s

/-- MOVE_SECOND_END (R201). -/
def execMoveSecondEnd (s : State) := run .moveSecondEnd moveSecondEnd s

/-- FREEZE_EXPIRY (R201). -/
def execFreezeExpiry (addr : Nat) (s : State) := run (.freezeExpiry addr) (freezeEnd addr) s

/-- LEARN_AGING_PASS (R204). -/
def execLearnAgingPass (s : State) := run .learnAgingPass agingPass s

/-- PRISM_SCRUB_PASS (R182): the rows at the addresses `bad` differ from their check copy. -/
def execPrismScrubPass (b : Nat) (bad : List Nat) (s : State) :=
  run (.prismScrubPass b bad) (do
    for a in bad do
      let d ← get
      match d.prismAt b a with
      | some (e, v) => if !d.bays.prismOff.contains (b * 16384 + e) then prismDisable b e 1 (byteAt (toBytes 180 v) 0 % 4)
      | none => pure ()
    incO 0x3210 4 b) s

end Sys2Proof.Machine
end

