-- ==== Sys2Proof/Machine/Stages.lean ====
section
/-! DEFINITION. The twelve match-action stages (07): keys, external lookups (R170, R171), Tenon tables (R175), primitives (R173,
R174), what a frame does at the end of stage 3 (R169) and of stage 12. -/

namespace Sys2Proof.Machine

/-! ### Actions -/

/-- A primitive is one that an entry may hold (R173). -/
def primOk (b : Bytes) : Bool :=
  let op := byteAt b 0
  let c := byteAt b 1
  let w := c % 64
  let dst := beAt b 2 2
  let v := beAt b 4 4
  let writes := decide (1 ≤ op ∧ op ≤ 5)
  let clash := fun lo hi => decide (dst ≤ hi ∧ lo < dst + w)
  (op ≤ 5 || (8 ≤ op && op ≤ 0xD)) && c / 64 != 3 &&
    (!writes || (1 ≤ w && w ≤ 32 && dst + w ≤ 512 && !clash 504 511 && !clash 488 503 && !clash 286 293)) &&
    (op != 2 || v >>> 30 != 3)

/-- An action's eight primitives are ones that an entry may hold. -/
def actionOk (b : Bytes) : Bool := (List.range 8).all (fun k => primOk (slice b (8 * k) 8))

/-- Write Tenon bits for a primitive; VERDICT is written only when that raises it (R174). -/
def primWrite (f : Frame) (dst w v : Nat) : Frame :=
  let g := f.setT dst w v
  if g.tf 480 3 < f.tf 480 3 then g.setT 480 3 (f.tf 480 3) else g

/-- Execute one primitive with the stage's external result (R173). -/
def primRun (res : Nat) (hit : Bool) (f : Frame) (b : Bytes) : Frame :=
  let op := byteAt b 0
  let c := byteAt b 1
  let w := c % 64
  let dst := beAt b 2 2
  let v := beAt b 4 4
  let runs := f.tf 480 3 < 2 && (match c / 64 with | 0 => true | 1 => hit | 2 => !hit | _ => false)
  if !runs then f
  else match op with
    | 1 => primWrite f dst w v
    | 2 =>
      let src := match v >>> 30 with
        | 0 => nget f.fields (v % 128)
        | 1 => f.tenon >>> (v % 512)
        | _ => res >>> (v % 128)
      primWrite f dst w src
    | 3 => primWrite f dst w (f.tf dst w + v)
    | 4 => primWrite f dst w (f.tf dst w ||| v)
    | 5 => primWrite f dst w (f.tf dst w &&& v)
    | 8 => f.setT 480 3 2
    | 9 => (f.setT 480 3 1).setT 394 16 (v % 65536)
    | 0xA => f.setT 378 8 (v % 256)
    | 0xB => f.setT 393 1 1
    | 0xC => (((f.setT 376 2 (fld v 18 2)).setT 368 8 (fld v 10 8)).setT 360 8 (fld v 2 8)).setT 358 2 (v % 4)
    | 0xD => f.setT 326 32 (nget f.fields (v % 128))
    | _ => f

/-- Execute an action of 64 octets. -/
def actionRun (res : Nat) (hit : Bool) (f : Frame) (b : Bytes) : Frame :=
  (List.range 8).foldl (fun f k => primRun res hit f (slice b (8 * k) 8)) f

/-! ### Tenon tables -/

/-- The entries of a staged table for a frame that entered under bank `k` (R177). -/
def Dev.entriesB (d : Dev) (k ix sub : Nat) : List (Nat × Nat) :=
  if k < d.dict.bank12 then
    let old := d.dict.oldTbl.filterMap (fun e => if tkeyTable e.1 = ix * 256 + sub then some (e.1 % 2 ^ 32) else none)
    (nub ((d.entries ix sub).map Prod.fst ++ old)).filterMap (fun a => (d.tblB k ix sub a).map (fun v => (a, v)))
  else d.entries ix sub

/-- The entry that wins a Tenon lookup: highest priority, then lowest address (R175). -/
def tenonBest (key : Nat) (l : List (Nat × Nat)) : Option (Nat × Bytes) :=
  let m := l.filterMap fun e =>
    let b := toBytes 148 e.2
    if bitOf (byteAt b 0) 7 && ((key ^^^ beAt b 4 40) &&& beAt b 44 40) == 0 then some (e.1, b) else none
  m.foldl (fun (a : Option (Nat × Bytes)) e => match a with
    | some x => if beAt x.2 2 2 < beAt e.2 2 2 || (beAt x.2 2 2 == beAt e.2 2 2 && e.1 < x.1) then some e else a
    | none => some e) none

/-- The key of a stage's Tenon table: selectors 0 to 4 in the first 160 bits, or 0 to 9 (R171). -/
def Dev.tenonKey (d : Dev) (f : Frame) (s : Nat) : Nat :=
  let sel := toBytes 10 (d.ob f.bank 0x3110 1 (s - 1))
  if d.ob f.bank 0x3110 2 (s - 1) = 0 then keyOf f.fields f.tenon f.presence (sel.take 5) <<< 160
  else keyOf f.fields f.tenon f.presence sel

/-! ### External lookups -/

/-- The selectors of a stage's external key. -/
def Dev.extSel (d : Dev) (f : Frame) (s : Nat) : Bytes := toBytes 20 (d.ob f.bank 0x3110 4 (s - 1))

/-- The rows a Prism key takes: the fewest that hold every selected word (R171). -/
def prismWidth (sel : Bytes) : Nat :=
  let n := (List.range 20).foldl (fun a i => if byteAt sel i ≠ 0xFF then i + 1 else a) 0
  if n ≤ 5 then 1 else if n ≤ 10 then 2 else 4

/-- The addresses of Prism entries whose rows `bad` names as damaged for a lookup of stage `s`: kind 4 a false match, 5 a false miss. -/
def damagedRows (s kind : Nat) (bad : List Nat) : List Nat :=
  bad.filterMap fun x => if 65536 ≤ x ∧ x % 65536 = s * 8 + kind then some (x / 65536 - 1) else none

/-- A Prism lookup of a frame, with its FLAGS. -/
def prismFor (f : Frame) (s part w key : Nat) (bad : List Nat) : M (Frame × Nat × Bool) := do
  let r ← prismLookup f.bay part w key (damagedRows s 4 bad) (damagedRows s 5 bad)
  let f := if r.reissued then { f.setT 289 1 1 with reissued := true } else f
  let f := if r.forced then f.setT 288 1 1 else f
  return (f, r.result, r.hit)

/-- Stage 5 (R188 to R191). -/
def lpmFor (f : Frame) (bad : List Nat) : M (Frame × Nat × Bool) := do
  let d ← get
  let b := f.bay
  let sel := d.extSel f 5
  let v6 : Bool := f.tf (d.o 0x3441 3 % 512) 1 == 1
  let vrf := f.tf 468 12
  let word := fun i => keyWord f.fields f.tenon f.presence (byteAt sel i)
  let addr := if v6 then keyOf f.fields f.tenon f.presence (sel.take 4) else word 0
  let viaPrism : M (Frame × Nat × Bool) := do
    incO 0x3441 6 b
    let a := if v6 then addr else addr <<< 96
    prismFor f 5 2 1 (a <<< 32 + v6.toNat <<< 31 + vrf) bad
  let st := d.lpmState b
  if st = 2 ∨ st = 1 ∨ st = 3 then viaPrism
  else if bad.contains (5 * 8) then
    trieError b
    if d.o 0x3441 1 = 2 then
      let r ← viaPrism
      return ({ r.1 with reissued := true }, r.2)
    else return (f, 0, false)
  else
    match d.trieFind b v6 vrf addr with
    | some r => return (f, r, true)
    | none => return (f, 0, false)

/-- The external lookup of stage `s`: the frame, its result and whether it hit (R170). `bad` names what the bay reads wrong:
s × 8 + kind, kind 0 an uncorrectable word, 1 to 3 the words of D1 to D3, 6 a word of the learning probe; and 65536 × (1 + address) + s × 8 + kind
for a damaged row of a Prism entry, kind 4 where it matches falsely, 5 where it misses (R181). -/
def extLookup (f : Frame) (s : Nat) (bad : List Nat) : M (Frame × Nat × Bool) := do
  let d ← get
  if f.tf 480 3 ≥ 2 ∨ d.ob f.bank 0x3110 5 (s - 1) = 0 then return (f, 0, false)
  let sel := d.extSel f s
  let em := fun (k : Nat) => do
    let t := d.o 0x3402 1 k
    let key := keyOf f.fields f.tenon f.presence (sel.take (if (d.inBay f.bay t).emWide t then 10 else 5))
    match ← emLookup f.bay t key (bad.contains (s * 8)) with
    | some r => pure (f, r, true)
    | none => pure (f, 0, false)
  let prism := fun (part : Nat) =>
    let w := prismWidth sel
    prismFor f s part w (keyOf f.fields f.tenon f.presence (sel.take (5 * w))) bad
  match s with
  | 2 => prism 0
  | 4 => em 0
  | 5 => lpmFor f bad
  | 6 => em 1
  | 7 =>
    return (f, d.dirLookup f.bay f.fields f.tenon f.presence (fun i => bad.contains (56 + i)), true)
  | 9 =>
    match f.reply with
    | some r => return (f, r.res, r.flow == 1 || r.flow == 2)
    | none => return (f, 0, false)
  | 11 => prism 1
  | _ => return (f, 0, false)

/-- Run stage `s` (R170, R175). -/
def stageRun (s : Nat) (bad : List Nat) (f0 : Frame) : M Frame := do
  let d ← get
  let key := d.tenonKey f0 s
  let (f, res, hit) ← extLookup f0 s bad
  -- the learning probe runs beside lookup 1 (R199)
  let f ←
    if s = 6 ∧ d.oB 0x3430 2 f0.port ∧ f0.trib = 0xFFFF ∧ f0.tf 480 3 ≠ 2 then
      let n := if (d.inBay f0.bay d.learnTable).emWide d.learnTable then 10 else 5
      learnProbe f (keyOf f0.fields f0.tenon f0.presence ((toBytes 10 (d.o 0x3430 3)).take n)) (bad.contains (s * 8 + 6))
    else pure f
  let f := if hit then { f with hits := f.hits ||| 2 ^ (s - 1) } else f
  if 2 ≤ f.tf 480 3 then return f
  else
    match tenonBest key (d.entriesB f0.bank 0x3100 s) with
    | some (a, b) =>
      incO 0x3120 1 ((s - 1) * 4096 + a)
      return actionRun res hit f (slice b 84 64)
    | none =>
      incO 0x3120 2 (s - 1)
      let f := { f with defaults := f.defaults ||| 2 ^ (s - 1) }
      return actionRun res hit f (toBytes 64 (d.ob f0.bank 0x3110 3 (s - 1)))

/-- Run stages in order. -/
def stagesRun (bad : List Nat) : List Nat → Frame → M Frame
  | [], f => return f
  | s :: r, f => do
    let f ← stageRun s bad f
    stagesRun bad r f

/-- The end of stage 3: HASH, DIR and the flow request (R169, R211). -/
def stage3End (f : Frame) : M Frame := do
  let d ← get
  let h := f.tf 274 4
  let x := d.hash f.bank h f.fields (f.tf 224 32)
  let f := (f.setT 294 32 x.hash).setT 290 1 x.dir
  let key := (((((x.aAddr <<< 16 + x.aPort) <<< 128 + x.bAddr) <<< 16 + x.bPort) <<< 8 + x.proto) <<< 32) + f.tf 224 32
  if d.ob f.bank 0x3050 7 h = 1 ∧ f.tf 480 3 < 2 then
    return { f with
      asked := true
      key := key
      kdir := if d.o 0x3802 1 h = 1 then x.dir else 0
      desc := f.tf 410 16
      sill := x.hash / 2 ^ 31 }
  else return f

/-- What a frame receives at stage 9 is written into its Tenon (R217, R222, R224). -/
def applyReply (f : Frame) : Frame :=
  match f.reply with
  | none => f
  | some r =>
    let f := f.setT 286 2 r.flow
    let f :=
      if r.flow = 1 ∨ r.flow = 2 then
        let f := f.setT 410 16 (r.res >>> 112)
        let side := fld r.res 96 2
        if side ≠ 0 then { f.setT 56 128 r.nat with natSide := side, natPort := fld r.res 56 16 } else f
      else f
    match r.act with
    | 0 => f
    | 1 => if f.tf 480 3 < 2 then f.setT 480 3 2 else f
    | n => if f.tf 480 3 < 1 then (f.setT 480 3 1).setT 394 16 n else if f.tf 480 3 = 1 then f.setT 394 16 n else f

/-- A frame leaves stage 12: its verdict, or its destination (R174, R206). -/
def stage12End (f : Frame) (bad : List Nat) : M Unit := do
  let now ← devNow
  let f := { f with tStage12 := some now }
  setFrame f
  match f.tf 480 3 with
  | 0 =>
    match ← resolveDest f (bad.contains 104) (bad.contains 105) with
    | .drop => endFrame f.id { outcome := 5, at0 := now }
    | .dest g => setFrame { g with phase := 2 }
  | 1 =>
    mirrorAtAdmission f.id
    match (← get).frame f.id with
    | none => return ()
    | some f =>
      puntFrame f (f.tf 394 16)
      endFrame f.id { outcome := 4, cause := f.tf 394 16, at0 := now }
  | _ =>
    incO 0x3020 7 f.port
    mirrorAtAdmission f.id
    endFrame f.id { outcome := 3, at0 := now }

/-- Stages 9 to 12. -/
def finishStages (f0 : Frame) (bad : List Nat) : M Unit := do
  match f0.parkedAt with
  | some t => monFeed 5 f0.sill (((← devNow) - t) / uNs)
  | none => pure ()
  let f := applyReply { f0 with parkedAt := none }
  let f ← stagesRun bad [9, 10, 11, 12] f
  stage12End f bad

/-! ### Waiting at stage 9 (R221, R222) -/

/-- The miss-overflow action of a frame: what it receives, counted; cause 0 timeout, 1 full (R222). -/
def overflowReply (f : Frame) (cause : Nat) : M Reply := do
  let h := f.tf 274 4
  incO 0x3831 (1 + cause) h
  raiseLim (637 + f.sill) 0x3801 1 f.sill f.sill cause 0 3
  return ⟨0, 3, (match (← get).o 0x3802 3 h with | 1 => 1 | 2 => 0x20 | _ => 0), 0⟩

/-- A frame reaches the entry to stage 9 (R221). -/
def stage9Entry (f0 : Frame) (bad : List Nat) : M Unit := do
  let d ← get
  let now ← devNow
  let f := { f0 with tStage9 := some now, bad := bad }
  if !f.asked then finishStages f bad
  else
    let l := d.parks f.sill
    let mine := fun (x : ParkDesc) => x.bay == f.bay && x.key == f.key && x.kdir == f.kdir
    if l.any mine then
      setFrame { f with parkedAt := some now, parked := true }
      modify (·.setParks f.sill (l.map fun x => if mine x then { x with frames := x.frames ++ [f.id] } else x))
    else if f.reply.isSome then finishStages f bad
    else if l.length < 65536 then
      setFrame { f with parkedAt := some now, parked := true }
      modify (·.setParks f.sill (l ++ [⟨f.bay, f.key, f.kdir, [f.id]⟩]))
      peakO 0x3830 0xE f.sill (l.length + 1)
    else
      let r ← overflowReply f 1
      finishStages { f with reply := some r } bad

/-- A waiting frame goes on with what it receives. -/
def resumeFrame (id : Nat) (r : Reply) : M Unit := do
  match (← get).frame id with
  | none => return ()
  | some f => finishStages { f with reply := some r } f.bad

/-- The frames of a key that wait: those parked, then those that have not yet reached stage 9; bay by bay, oldest first. -/
def Dev.keyFrames (d : Dev) (k key kdir : Nat) : List Nat × List Nat :=
  ((d.parks k).flatMap (fun x => if x.key = key ∧ x.kdir = kdir then x.frames else []),
   d.yard.frames.filterMap fun e => match e.2 with
     | some f =>
       if f.phase = 1 ∧ f.asked ∧ f.looked ∧ f.parkedAt = none ∧ f.reply = none ∧ f.sill = k ∧ f.key = key ∧ f.kdir = kdir
       then some f.id else none
     | none => none)

/-- Give the waiting frames of a key what they receive: `g` answers for the first frame (true) and for the others. -/
def resumeKey (k key kdir : Nat) (g : Bool → Frame → M Reply) : M Unit := do
  let (parked, coming) := (← get).keyFrames k key kdir
  modify fun d => d.setParks k ((d.parks k).filter (fun x => !(x.key == key && x.kdir == kdir)))
  let mut first := true
  for id in parked do
    match (← get).frame id with
    | none => pure ()
    | some f =>
      let r ← g first f
      match (← get).frame id with
      | none => pure ()
      | some f => finishStages { f with reply := some r } f.bad
    first := false
  for id in coming do
    match (← get).frame id with
    | none => pure ()
    | some f =>
      let r ← g first f
      match (← get).frame id with
      | none => pure ()
      | some f => setFrame { f with reply := some r }
    first := false

end Sys2Proof.Machine
end

