-- ==== Sys2Proof/Machine/Flow.lean ====
section
/-! DEFINITION. Flow state (09): records and their DRAM slots (R213, R214), the flow cache (R215, R216, R233), lookups and results
(R217, R218), fetches (R223), insertion, translation and relocation (R226 to R231), commits, meters, TCP state, samples (R234 to
R237), deletion and aging (R238), table operations on 3800h.01 (R239). -/

namespace Sys2Proof.Machine

/-! ### Records -/

/-- Octets `[o, o + n)` of a record (R213). -/
def rf (r o n : Nat) : Nat := fld r (8 * (120 - o - n)) (8 * n)

/-- A record with octets replaced. -/
def setRf (r o n v : Nat) : Nat := putFld r (8 * (120 - o - n)) (8 * n) v

/-- The 41 canonical octets of a record's key. -/
def recKey (r : Nat) : Nat := rf r 0 41

/-- KCTRL bits. -/
def recKdir (r : Nat) : Nat := rf r 41 1 / 64 % 2
def recStatic (r : Nat) : Bool := bitOf (rf r 41 1) 5
def recInit (r : Nat) : Nat := rf r 41 1 / 16 % 2
def recTwin (r : Nat) : Bool := bitOf (rf r 41 1) 3
def recSide (r : Nat) : Nat := rf r 43 1 / 64

/-- An address held as ::FFFF:a.b.c.d. -/
def isV4 (a : Nat) : Bool := a >>> 32 == 0xFFFF

/-- A record is narrow (R215). -/
def recNarrow (r : Nat) : Bool := isV4 (rf r 0 16) && isV4 (rf r 18 16) && (recSide r == 0 || isV4 (rf r 44 16))

/-- HASH and HASH2 of a key (R169, R212). -/
def keyHash (key : Nat) : Nat := crc32c (toBytes 41 key)
def keyHash2 (key kdir : Nat) : Nat := crc32 (toBytes 41 key ++ [BitVec.ofNat 8 kdir])

/-- The home Sill of a key. -/
def homeOf (key : Nat) : Nat := keyHash key / 2 ^ 31

/-- The eight DRAM slots of a key in probe order (R212, R214). -/
def probeOrder (key kdir : Nat) : List Nat :=
  let h := keyHash key
  let g := keyHash2 key kdir
  let half := fun (x b w : Nat) => (List.range 4).map fun i => x * 33554432 + b * 4 + (w + i) % 4
  half 0 (h % 2 ^ 23) (fld h 23 2) ++ half 1 (g % 2 ^ 23) (fld g 23 2)

/-- The time base of flow records: network time, or device time while that is not valid (R213). -/
def flowNow : M Nat := do
  let d ← get
  let c ← read
  return if d.oB 0x1800 3 then c.net else c.dev

/-- LAST_TIME of a time, and the time of a LAST_TIME (its seconds taken as the latest not after `now`). -/
def toLast (t : Nat) : Nat := (t / uS % 2 ^ 32) * 65536 + t % uS * 65536 / uS
def ofLast (now v : Nat) : Nat :=
  let sec := now / uS
  let s := sec / 2 ^ 32 * 2 ^ 32 + v / 65536
  (if sec < s then s - 2 ^ 32 else s) * uS + v % 65536 * uS / 65536

/-! ### DRAM slots -/

/-- The table address of a slot. -/
def tblAddr (s slot : Nat) : Nat := s * 67108864 + slot

/-- The Sill of a table address. -/
def addrSill (a : Nat) : Nat := a / 67108864

/-- The record at a table address; a segment being filled reads empty (R354). -/
def Dev.slotAt (d : Dev) (a : Nat) : Option FlowRec :=
  if d.filling (addrSill a) (a % 67108864) then none else oget d.flow.slots a

/-- Write or empty a slot, keeping the count of valid records. -/
def Dev.setSlot (d : Dev) (a : Nat) (r : Option FlowRec) : Dev :=
  let was := (oget d.flow.slots a).isSome
  let k := addrSill a
  let n := d.o 0x3800 2 k
  let n := if was = r.isSome then n else if was then n - 1 else n + 1
  { (d.setO 0x3800 2 k n) with flow.slots := oset d.flow.slots a r }

/-- The address of a key's record; of two valid copies the higher version (R232). -/
def Dev.findSlot (d : Dev) (s key kdir : Nat) : Option Nat :=
  let l := (probeOrder key kdir).filter fun x => match d.slotAt (tblAddr s x) with
    | some r => recKey r.data == key && recKdir r.data == kdir
    | none => false
  match l with
  | [] => none
  | a :: rest => some <| tblAddr s <| rest.foldl (fun a b =>
      let v := fun x => ((d.slotAt (tblAddr s x)).map (fun r => rf r.data 42 1)).getD 0
      let diff := (v b + 256 - v a) % 256
      if 1 ≤ diff ∧ diff ≤ 127 then b else a) a

/-! ### The flow cache -/

/-- The first cache place of a key's bucket in half `x`. -/
def cacheBase (s key kdir x : Nat) : Nat :=
  s * 2 ^ 21 + x * 2 ^ 20 + fld (if x = 0 then keyHash key else keyHash2 key kdir) 13 18 * 4

/-- A cached entry. -/
def Dev.cacheAt (d : Dev) (i : Nat) : Option CacheEnt := oget d.flow.cache i

/-- Write or empty a cache place, keeping the count of entries. -/
def Dev.setCache (d : Dev) (i : Nat) (e : Option CacheEnt) : Dev :=
  let size := fun (x : Option CacheEnt) => match x with | some e => if e.wide then 2 else 1 | none => 0
  let k := i / 2 ^ 21
  let n := d.o 0x3830 0x15 k + size e - size (d.cacheAt i)
  { (d.setO 0x3830 0x15 k n) with
    flow.cache := oset d.flow.cache i e
    flow.words := mfilter (fun w => w / 8 != i) d.flow.words }

/-- The place of a key's entry, half 0 first (R233). -/
def Dev.cacheFind (d : Dev) (s key kdir : Nat) : Option Nat :=
  let l := (List.range 2).flatMap fun x => (List.range 4).map fun w => cacheBase s key kdir x + w
  l.find? fun i => match d.cacheAt i with
    | some e => recKey e.data == key && recKdir e.data == kdir
    | none => false

/-- A way is taken, by an entry of its own or by a wide one. -/
def Dev.wayUsed (d : Dev) (i : Nat) : Bool :=
  (d.cacheAt i).isSome || (i % 2 == 1 && (match d.cacheAt (i - 1) with | some e => e.wide | none => false))

/-- The places of a key for a size, half 0 first, lowest way first. -/
def cachePlaces (s key kdir : Nat) (wide : Bool) : List Nat :=
  (List.range 2).flatMap fun x => (if wide then [0, 2] else [0, 1, 2, 3]).map fun w => cacheBase s key kdir x + w

/-- A place is free. -/
def Dev.placeFree (d : Dev) (wide : Bool) (i : Nat) : Bool := !d.wayUsed i && (!wide || !d.wayUsed (i + 1))

/-- The entries that occupy a place: where, and what. -/
def Dev.occupants (d : Dev) (wide : Bool) (i : Nat) : List (Nat × CacheEnt) :=
  let own := fun j => match d.cacheAt j with | some e => [(j, e)] | none => []
  if wide then own i ++ own (i + 1)
  else match own i with
    | [] => if i % 2 = 1 then own (i - 1) else []
    | l => l

/-- A record with its cached values and deltas merged in (R216). -/
def mergeRec (slot : Nat) (e : CacheEnt) : Nat :=
  let c := clampI (-(2 ^ 31)) (2 ^ 31 - 1) (e.credit / polUnit)
  let r := [(60, 2), (62, 2), (64, 3), (67, 2), (73, 1), (74, 1), (75, 1)].foldl (fun r x => setRf r x.1 x.2 (rf e.data x.1 x.2)) slot
  let r := setRf (setRf r 76 4 (ofS 32 c)) 84 6 (toLast e.last)
  let r := setRf (setRf r 90 5 (rf r 90 5 + e.pk)) 95 6 (rf r 95 6 + e.oct)
  let r := setRf r 101 2 (min 0xFFFF (rf r 101 2 + e.err))
  (List.range 8).foldl (fun r i => setRf r (103 + 2 * i) 2 (min 0xFFFF (rf r (103 + 2 * i) 2 + e.hist.getD i 0))) r

/-- The record at an address merged with its cached entry (R239). -/
def Dev.merged (d : Dev) (a : Nat) : Option Nat :=
  (d.slotAt a).map fun r =>
    match d.cacheFind (addrSill a) (recKey r.data) (recKdir r.data) with
    | some i => match d.cacheAt i with | some e => mergeRec r.data e | none => r.data
    | none => r.data

/-- A burst of a record fails its check, whoever reads it: the slot is empty from now on (R216). -/
def recordFailed (k slot b : Nat) : M Unit := do
  if ((← get).slotAt (tblAddr k slot)).isSome then
    modify (·.setSlot (tblAddr k slot) none)
    incO 0x3830 0x13 k
    raiseEv (637 + k) 0x3805 2 k slot b

/-- Burst `b` of a slot is read on the spot: whether it is good (R216, R351). A segment that is being filled answers for itself (R354). -/
def burstRead (k slot b : Nat) (other : Bool) : M Bool := do
  if (← get).filling k slot then return true
  else
    let ok ← dramTake k (slot / 65536) (slot % 65536 * 2 + b) 1 other
    if !ok then recordFailed k slot b
    return ok

/-- Both bursts of a record are read on the spot. -/
def recordRead (k slot : Nat) (other : Bool) : M Unit := do
  let _ ← burstRead k slot 0 other
  let _ ← burstRead k slot 1 other

/-- The slots of a key are probed on the spot: burst 0 of each until the key's own, and burst 1 of that one (R223). -/
def probeRead (k key kdir : Nat) (other : Bool) : List Nat → M Unit
  | [] => return ()
  | x :: rest => do
    let _ ← burstRead k x 0 other
    match (← get).slotAt (tblAddr k x) with
    | some r =>
      if recKey r.data = key ∧ recKdir r.data = kdir then
        let _ ← burstRead k x 1 other
        return ()
      else probeRead k key kdir other rest
    | none => probeRead k key kdir other rest

/-- An entry without deltas. -/
def CacheEnt.clean (e : CacheEnt) : CacheEnt := { e with pk := 0, oct := 0, err := 0, hist := [], dirty := false }

/-- Write back the entry at a place (R216): its deltas are lost where its slot is empty, and on a Sill whose DRAM has failed (R355). -/
def writeBack (i : Nat) : M Unit := do
  let d ← get
  match d.cacheAt i with
  | none => return ()
  | some e =>
    let s := i / 2 ^ 21
    let slot := e.addr % 67108864
    if !d.sillFailed s then
      let _ ← burstRead s slot 1 false
      match oget (← get).flow.slots e.addr with
      | some r =>
        modify (·.setSlot e.addr (some { r with data := mergeRec r.data e }))
        incO 0x3830 0xC s
        dramAsk s slot 1 1 true
      | none => pure ()
    modify (·.setCache i (some e.clean))

/-- Evict the entry at a place, written back first if it is dirty (R233). -/
def evict (i : Nat) : M Unit := do
  let d ← get
  match d.cacheAt i with
  | none => return ()
  | some e =>
    if e.dirty ∧ !d.sillFailed (i / 2 ^ 21) then writeBack i
    incO 0x3830 0xB (i / 2 ^ 21)
    modify (·.setCache i none)

/-- The other places an entry may move to. -/
def otherPlaces (i : Nat) (e : CacheEnt) : List Nat :=
  let s := i / 2 ^ 21
  (cachePlaces s (recKey e.data) (recKdir e.data) e.wide).filter (fun j => j / 2 ^ 20 != i / 2 ^ 20)

/-- Breadth-first search for a chain of cache moves, each of one entry to a place of its other half (R233): the moves, last one into
a free place. -/
def Dev.cacheChain (d : Dev) : Nat → List (List (Nat × Nat)) → List (Nat × Bool) → List Nat → Option (List (Nat × Nat))
  | 0, _, _, _ => none
  | fuel + 1, paths, heads, seen =>
    -- `paths`: the moves so far; `heads`: the place each path has to free next, with its size
    let grown := (paths.zip heads).flatMap fun (p, i, wide) =>
      match d.occupants wide i with
      | [(j, e)] => (otherPlaces j e).map fun t => (p ++ [(j, t)], t, e.wide)
      | _ => []
    let grown := grown.filter (fun x => !seen.contains x.2.1)
    match grown.find? (fun x => d.placeFree x.2.2 x.2.1) with
    | some x => some x.1
    | none => d.cacheChain fuel (grown.map (·.1)) (grown.map (fun x => (x.2.1, x.2.2))) (seen ++ grown.map (·.2.1))

/-- The moves that free the places `l`, the move into a free place first. -/
def Dev.cachePath (d : Dev) (fuel : Nat) (l : List Nat) (wide : Bool) (seen : List Nat) : Option (List (Nat × Nat)) :=
  (d.cacheChain fuel (l.map fun _ => []) (l.map (·, wide)) seen).map List.reverse

/-- An entry stands in another place. -/
def Dev.moveEnt (d : Dev) (x : Nat × Nat) : Dev := (d.setCache x.1 none).setCache x.2 (d.cacheAt x.1)

/-- The moves that free the pair at `i` of its two narrow entries: the one chain, then the other, at most 8 moves in all (log entry
17). -/
def Dev.pairPath (d : Dev) (i : Nat) : Option (List (Nat × Nat)) :=
  match d.occupants true i with
  | [(j, _), (k, _)] =>
    (d.cachePath 7 [j] false [j, k]).bind fun p =>
      ((p.foldl Dev.moveEnt d).cachePath (8 - p.length) [k] false [j, k]).map (p ++ ·)
  | _ => none

/-- A chain of at most 8 moves that frees one of the places `l`, and that place. -/
def Dev.cacheFreeing (d : Dev) (l : List Nat) (wide : Bool) : Option (List (Nat × Nat) × Nat) :=
  match d.cachePath 8 l wide l with
  | some p =>
    -- the last move empties the place: a wide place is named by its first way, a narrow one may lie under a wide entry's second
    let last := (p.getLastD (0, 0)).1
    some (p, if wide then last / 2 * 2 else if l.contains last then last else (l.find? (· == last + 1)).getD last)
  | none => if wide then l.findSome? (fun i => (d.pairPath i).map (·, i)) else none

/-- Make the moves of a chain, in order. -/
def cacheMoves : List (Nat × Nat) → M Unit
  | [] => return ()
  | x :: r => do
    modify (·.moveEnt x)
    incO 0x3830 0xD (x.1 / 2 ^ 21)
    cacheMoves r

/-- The place that is evicted for a new entry: unpinned, its most recent lookup the oldest. -/
def Dev.victim (d : Dev) (wide : Bool) (l : List Nat) : Option Nat :=
  let c := l.filterMap fun i =>
    let o := d.occupants wide i
    if o.isEmpty ∨ o.any (fun x => x.2.pins != 0) then none else some (i, o.foldl (fun a x => max a x.2.last) 0)
  (c.foldl (fun (a : Option (Nat × Nat)) x => match a with
    | some y => if x.2 < y.2 then some x else a
    | none => some x) none).map Prod.fst

/-- An entry can take a cache place now. -/
def Dev.canPlace (d : Dev) (e : CacheEnt) : Bool :=
  let l := cachePlaces (addrSill e.addr) (recKey e.data) (recKdir e.data) e.wide
  l.any (d.placeFree e.wide) || (d.cacheFreeing l e.wide).isSome || (d.victim e.wide l).isSome

/-- An entry takes a cache place (R233): false when none can be had. -/
def installEnt (e : CacheEnt) : M Bool := do
  let d ← get
  let l := cachePlaces (addrSill e.addr) (recKey e.data) (recKdir e.data) e.wide
  match l.find? (d.placeFree e.wide) with
  | some i =>
    set (d.setCache i (some e))
    return true
  | none =>
    match d.cacheFreeing l e.wide with
    | some (moves, i) =>
      cacheMoves moves
      modify (·.setCache i (some e))
      return true
    | none =>
      match d.victim e.wide l with
      | none => return false
      | some i =>
        for o in d.occupants e.wide i do evict o.1
        modify (·.setCache i (some e))
        return true

/-- Install the record at an address (R233): false when no place can be had. -/
def install (a : Nat) : M Bool := do
  let d ← get
  let now ← flowNow
  match d.slotAt a with
  | none => return false
  | some r =>
    if (d.cacheFind (addrSill a) (recKey r.data) (recKdir r.data)).isSome then return true
    else
      installEnt
        { addr := a, wide := !recNarrow r.data, data := r.data, last := ofLast now (rf r.data 84 6)
          credit := toS 32 (rf r.data 76 4) * polUnit }

/-! ### Lookups -/

/-- The TCP flags of a frame under its profile (R236). -/
def Dev.tcpFlags (d : Dev) (f : Frame) : Nat :=
  let h := f.tf 274 4
  let w := d.o 0x3802 4 h
  if w = 0xFF then 0 else (nget f.fields w >>> d.o 0x3802 5 h) % 256

/-- A frame is out of state (R236). -/
def outOfState (st role flags : Nat) : Bool :=
  let syn := bitOf flags 1
  let ack := bitOf flags 4
  (syn && (st == 3 || st == 4 || st == 5)) || (role == 0 && st == 1 && !(syn && ack)) || (st == 6 && !bitOf flags 2)

/-- The stage-9 result of a record for a frame (R218). -/
def flowResult (r role oos meter new : Nat) : Nat :=
  (rf r 62 2) <<< 112 + (rf r 73 1) <<< 104 + role <<< 103 + oos <<< 102 + meter <<< 100 + new <<< 99 + (recTwin r).toNat <<< 98 +
    recSide r <<< 96 + (rf r 64 3) <<< 72 + (rf r 60 2) <<< 56

/-- A lookup finds the entry at place `i` for a frame: the meter refills, the entry is pinned, the result is formed (R217, R235,
R236). `new`: the record was created for this frame; `flow`: 1 a hit, 2 after parking. -/
def hitEntry (i : Nat) (f : Frame) (flow : Nat) (new oosNew : Bool) : M Reply := do
  let d ← get
  let now := (← flowNow) / (16 * uNs) * (16 * uNs)
  match d.cacheAt i with
  | none => return ⟨0, 3, 0, 0⟩
  | some e =>
    let m := rf e.data 67 2
    let cap : Int := d.o 0x3808 2 m * polUnit
    let credit := if m = 0 then e.credit else min cap (e.credit + (d.o 0x3808 1 m * (now - e.last) : Nat))
    let meter := if m = 0 then 0 else if 0 ≤ credit then 1 else 2
    let role := if f.tf 290 1 = recInit e.data then 1 else 0
    let oos := oosNew || outOfState (rf e.data 73 1) role (d.tcpFlags f)
    set (d.setCache i (some { e with credit := credit, last := now, pins := e.pins + 1 }))
    return ⟨flowResult e.data role oos.toNat meter new.toNat, flow, 0, rf e.data 44 16⟩

/-- Fetches and insertions in progress on a Sill. -/
def Dev.fetches (d : Dev) (k : Nat) : List Fetch := mget (dK []) d.flow.fetches k

/-- Replace them. -/
def Dev.setFetches (d : Dev) (k : Nat) (l : List Fetch) : Dev := { d with flow.fetches := mset (dK []) d.flow.fetches k l }

/-- A frame holds a record: it will commit. -/
def claimSlot (id : Nat) (r : Reply) (addr : Option Nat) : M Unit := do
  match (← get).frame id with
  | none => return ()
  | some f => setFrame { f with looked := true, reply := some r, slot := addr }

/-- The frames of a key go on unflowed, its Sill's DRAM having failed, and are counted (R355). -/
def resumeUnserved (k key kdir : Nat) : M Unit := do
  modify fun d => d.setFetches k ((d.fetches k).filter (fun x => !(x.key == key && x.kdir == kdir)))
  resumeKey k key kdir fun _ _ => do
    incO 0x5021 4 k
    return ⟨0, 3, 0, 0⟩

/-- A read of a fetch still waits at its channel. -/
def Dev.fetchWaits (d : Dev) (k : Nat) (x : Fetch) : Bool :=
  (probeOrder x.key x.kdir).any fun slot =>
    let (ch, pos) := d.segAt k (slot / 65536)
    (mget (dK []) d.dram.reqs ch).any fun r =>
      !r.write && !r.other && r.burst / 2 == pos * 65536 + slot % 65536

/-- A fetch's bursts are requested (R223, R241): burst 0 of the slots up to the key's own and burst 1 of that one, or burst 0 of all
eight. -/
def fetchAsk (k key kdir : Nat) : M Unit := do
  let l := probeOrder key kdir
  match (← get).findSlot k key kdir with
  | some a =>
    for x in l.take (l.idxOf (a % 67108864) + 1) do dramAsk k x 0 1 false
    dramAsk k (a % 67108864) 1 1 false
  | none => for x in l do dramAsk k x 0 1 false

/-- FLOW_LOOKUP (R217, R220); `bad`: the entry that would hit fails its check (R216). -/
def flowLookup (id : Nat) (bad : Bool) : M Unit := do
  let d ← get
  match d.frame id with
  | none => return ()
  | some f =>
    if f.phase = 1 ∧ f.asked ∧ !f.looked then
      let k := f.sill
      incO 0x3830 1 k
      if d.sillFailed k then
        incO 0x5021 4 k
        claimSlot id ⟨0, 3, 0, 0⟩ none
      else
        let hit ← match d.cacheFind k f.key f.kdir with
          | none => pure none
          | some i =>
            if bad then
              modify (·.setCache i none)
              incO 0x3830 0x13 k
              raiseLim (637 + k) 0x3806 1 k k 0 0 3
              pure none
            else pure (some i)
        match hit with
        | some i =>
          incO 0x3830 2 k
          let a := (d.cacheAt i).map CacheEnt.addr
          let r ← hitEntry i f 1 false false
          claimSlot id r a
        | none =>
          setFrame { f with looked := true }
          let d ← get
          let l := d.fetches k
          if l.any (fun x => x.key == f.key && x.kdir == f.kdir) then incO 0x3830 4 k
          else
            incO 0x3830 3 k
            modify (·.setFetches k (l ++ [{ key := f.key, kdir := f.kdir, prof := f.tf 274 4, desc := f.desc, dir := f.tf 290 1, tcp := d.tcpFlags f }]))
            fetchAsk k f.key f.kdir

/-- The frames of a key resume with its cached record (R221, R224). `created`: it was created for the first of them; `oos`: that one
is out of state. -/
def resumeHit (k key kdir : Nat) (created oos : Bool) : M Unit := do
  modify fun d => d.setFetches k ((d.fetches k).filter (fun x => !(x.key == key && x.kdir == kdir)))
  resumeKey k key kdir fun first f => do
    match (← get).cacheFind k key kdir with
    | none => return ⟨0, 3, 0, 0⟩
    | some i =>
      let a := ((← get).cacheAt i).map CacheEnt.addr
      let r ← hitEntry i f 2 (created && first) (oos && first)
      claimSlot f.id r a
      return r

/-- The frames of a key go on without a record: punted with a reason, or unflowed (R224). -/
def resumeMiss (k key kdir act : Nat) : M Unit := do
  modify fun d => d.setFetches k ((d.fetches k).filter (fun x => !(x.key == key && x.kdir == kdir)))
  resumeKey k key kdir fun _ _ => pure ⟨0, 3, act, 0⟩

/-! ### Tasks -/

/-- The tasks of a Sill's dispatcher. -/
def Dev.tasks (d : Dev) (k : Nat) : List Task := mget (dK []) d.joinery.tasks k

/-- Replace them. -/
def Dev.setTasks (d : Dev) (k : Nat) (l : List Task) : Dev := { d with joinery.tasks := mset (dK []) d.joinery.tasks k l }

/-- PRIO, class and order of a ROM kind, as CTRL, and its domain (R264). -/
def romTask (kind : Nat) : Nat × Nat :=
  let c := fun prio cls => prio * 32 + cls * 8
  match kind with
  | 1 => (c 5 0, 0) | 2 => (c 4 0 + 4, 4094) | 3 => (c 4 0 + 4, 4095) | 4 => (c 3 1, 0) | 5 => (c 2 1, 0)
  | 6 => (c 1 2 + 4, 4093) | _ => (c 6 0 + 4, 4092)

/-- The source of a ROM kind (R267): 0 fetch units, 1 aging, 2 host, 3 management, 4 Sill link, 5 export. -/
def kindSource : Nat → Nat
  | 1 => 0 | 5 => 1 | 2 => 2 | 3 => 3 | 7 => 4 | _ => 5

/-- A task of a ROM kind joins the tasks of a Sill. -/
def addTask (k kind : Nat) (work : Work) : M Unit := do
  let now ← runNow
  let (ctrl, domain) := romTask kind
  modify fun d => { d.setTasks k (d.tasks k ++ [{ seq := d.joinery.nextSeq, arr := now, kind, ctrl, domain, work }]) with
    joinery.nextSeq := d.joinery.nextSeq + 1 }

/-- An external source submits a task of a ROM kind, unless the dispatcher holds 61,440 or more (R267), or pool 5 holds back the export
hand-off (R311). -/
def submit (k kind : Nat) (work : Work) : M Bool := do
  let d ← get
  let now ← runNow
  let i := k * 8 + kindSource kind
  let l := d.tasks k
  if 61440 ≤ l.length ∨ (kind = 6 ∧ oget d.yard.poolStall (k * 8 + 5) ≠ none) then
    if oget d.joinery.stalled i = none then
      set { d with joinery.stalled := oset d.joinery.stalled i (some now) }
    return false
  else
    match oget d.joinery.stalled i with
    | some t => addO 0x3846 1 i ((now - t) / uNs)
    | none => pure ()
    modify fun d => { d with joinery.stalled := oset d.joinery.stalled i none }
    addTask k kind work
    return true

/-- A source submits its work, behind what it has waiting, or the work waits (R267). -/
def submitOrWait (k kind : Nat) (work : Work) : M Unit := do
  let ahead := (← get).joinery.waiting.any (fun e => e.1 == k && e.2.kind == kind)
  let ok ← if ahead then pure false else submit k kind work
  if !ok then modify fun d => { d with joinery.waiting := d.joinery.waiting ++ [(k, { kind := kind, work := work })] }

/-- A source that has given up its last waiting operation is no longer stalled: its stalled time is added (R267). -/
def sourceQuiet (k kind : Nat) : M Unit := do
  let d ← get
  let now ← runNow
  let i := k * 8 + kindSource kind
  if !d.joinery.waiting.any (fun e => e.1 == k && kindSource e.2.kind == kindSource kind) then
    match oget d.joinery.stalled i with
    | some t =>
      addO 0x3846 1 i ((now - t) / uNs)
      modify fun d => { d with joinery.stalled := oset d.joinery.stalled i none }
    | none => return ()

/-- A ROM routine spawns a task of its Sill, while a place is free (R264, R267). -/
def spawnRom (k kind : Nat) (work : Work) : M Bool := do
  if 65536 ≤ ((← get).tasks k).length then return false
  else
    addTask k kind work
    return true

/-! ### The Sill-to-Sill link (R227, R264, R267) -/

/-- Requests of Sill `s` take units of pool 6, oldest first, while it has room (R311, R313). -/
def linkTake (s : Nat) : List (Work × Bool) → M (List (Work × Bool))
  | [] => return []
  | (w, true) :: r => return (w, true) :: (← linkTake s r)
  | (w, false) :: r => do
    if ← poolTakeOrStall (s * 8 + 6) 1 then return (w, true) :: (← linkTake s r)
    else return (w, false) :: r

/-- Requests that pool 6 holds become tasks of the other Sill, oldest first, while its dispatcher takes them. -/
def linkSubmit (s : Nat) : List (Work × Bool) → M (List (Work × Bool))
  | (w, true) :: r => do
    if ← submit (1 - s) 7 w then
      poolGive (s * 8 + 6) 1
      linkSubmit s r
    else return (w, true) :: r
  | l => return l

/-- The link of Sill `s` carries what it can. -/
def linkDrive (s : Nat) : M Unit := do
  let l ← linkTake s (mget (dK []) (← get).joinery.link s)
  let l ← linkSubmit s l
  modify fun d => { d with joinery.link := mset (dK []) d.joinery.link s l }

/-- A request of Sill `s` for the other one. -/
def linkSend (s : Nat) (w : Work) : M Unit := do
  modify fun d => { d with joinery.link := mset (dK []) d.joinery.link s (mget (dK []) d.joinery.link s ++ [(w, false)]) }
  linkDrive s

/-! ### Fetches -/

/-- A fetch waited `wait` ns for its share: 3804h carries the longest wait since it was last recorded (R241). -/
def shareWait (k wait : Nat) : M Unit := do
  peakO 0x3830 0x14 k wait
  if 1000 < wait then
    let d ← get
    let now : Int ← devNow
    let longest := max wait (nget d.flow.shareWait k)
    let held : Bool := match findLimit d.ev.limits 0x3804 k with | some x => decide (now < x.last + uS) | none => false
    set { d with flow.shareWait := nset d.flow.shareWait k (if held then longest else 0) }
    raiseLim (637 + k) 0x3804 2 k k longest 0 3

/-- What a fetch brings is checked (R216, R241): the longest wait `wait` for the share in ns, and the bursts `bad` that fail their
check, as slot × 2 + burst. -/
def fetchScrub (k : Nat) (x : Fetch) (wait : Nat) (bad : List Nat) : M Unit := do
  shareWait k wait
  for slot in probeOrder x.key x.kdir do
    for b in [0, 1] do
      if bad.contains (slot * 2 + b) then
        let (ch, pos) := (← get).segAt k (slot / 65536)
        burstBad ch (pos * 131072 + slot % 65536 * 2 + b)
        recordFailed k slot b

/-- A fetch ends (R223, R224): its record is installed and the frames of its key resume; without a record the miss policy of the
profile applies. -/
def fetchEnd (k : Nat) (x : Fetch) : M Unit := do
  let d ← get
  match d.findSlot k x.key x.kdir with
  | some a =>
    let ok ← install a
    if ok then
      addO 0x3830 5 k ((probeOrder x.key x.kdir).idxOf (a % 67108864) + 2)
      resumeHit k x.key x.kdir false false
  | none =>
    match d.o 0x3802 2 x.prof with
    | 0 =>
      let ok ← submit k 1 (.insert x.key x.kdir x.prof x.desc x.dir x.tcp)
      if ok then
        incO 0x3830 6 k
        addO 0x3830 5 k 8
        modify fun d => d.setFetches k ((d.fetches k).map fun y => if y.key = x.key ∧ y.kdir = x.kdir then { y with task := true } else y)
    | n =>
      incO 0x3830 6 k
      addO 0x3830 5 k 8
      incO 0x3831 3 x.prof
      resumeMiss k x.key x.kdir (if n = 1 then 0 else 0x21)

/-- FLOW_FETCH_DONE: the oldest fetch of Sill `k` whose reads have all been served completes (R223, R224). -/
def fetchDone (k wait : Nat) (bad : List Nat) : M Unit := do
  let d ← get
  match (d.fetches k).find? (fun x => !x.task && !d.fetchWaits k x) with
  | none => return ()
  | some x =>
    fetchScrub k x wait bad
    fetchEnd k x

/-! ### Deletion (R238) -/

/-- The export record of a flow (R396); `reason`: 1 aged, 3 aged closed, 4 deleted, 5 replaced. -/
def exportBytes (ofs : Int) (r reason : Nat) : Bytes :=
  let wide := !recNarrow r
  let n := if wide then 16 else 4
  let fromA : Bool := recInit r == 0
  let side := recSide r
  let time := fun (t : Nat) => toBytes 4 (((t : Int) + ofs) % 2 ^ 32).toNat
  toBytes n (if fromA then rf r 0 16 else rf r 18 16) ++ toBytes n (if fromA then rf r 18 16 else rf r 0 16) ++
    toBytes 2 (if fromA then rf r 16 2 else rf r 34 2) ++ toBytes 2 (if fromA then rf r 34 2 else rf r 16 2) ++
    toBytes 1 (rf r 36 1) ++ toBytes 2 (rf r 74 1 ||| rf r 75 1) ++ toBytes 8 (rf r 90 5) ++ toBytes 8 (rf r 95 6) ++
    time (rf r 80 4) ++ time (rf r 84 4) ++
    toBytes n (if side = 1 then rf r 44 16 else 0) ++ toBytes n (if side = 2 then rf r 44 16 else 0) ++
    toBytes 2 (if side = 1 then rf r 60 2 else 0) ++ toBytes 2 (if side = 2 then rf r 60 2 else 0) ++ toBytes 1 reason

/-- The holders of pool `n`'s ports, one entry for each, are `l`; 3810h.04 counts the ports (R227). -/
def Dev.setPorts (d : Dev) (n ports : Nat) (l : List Nat) : Dev :=
  { d.setO 0x3810 4 n ports with flow.poolPorts := mset (dK []) d.flow.poolPorts n l }

/-- The holders of pool `n`'s ports. -/
def Dev.portsOf (d : Dev) (n : Nat) : List Nat := mget (dK []) d.flow.poolPorts n

/-- A record holds a port of a pool. -/
def portHold (n port : Nat) : M Unit := do
  let d ← get
  let l := d.portsOf n
  set (d.setPorts n (if l.contains port then d.o 0x3810 4 n else d.o 0x3810 4 n + 1) (port :: l))

/-- A record's hold of a port ends; the port is free when no record holds it. -/
def portFree (n port : Nat) : M Unit := do
  let d ← get
  let l := d.portsOf n
  if l.contains port then
    let l := l.erase port
    set (d.setPorts n (if l.contains port then d.o 0x3810 4 n else d.o 0x3810 4 n - 1) l)

/-- Sill `s` returns a port: to the map it keeps, or over the link (R227). -/
def portReturn (s n port : Nat) : M Unit :=
  if n % 2 = s then portFree n port else linkSend s (.port n (some port) 0)

/-- The pool and port that a record holds. -/
def pooledPort (r : Nat) : Option (Nat × Nat) := if bitOf (rf r 43 1) 5 then some (rf r 43 1 % 32, rf r 60 2) else none

/-- Delete one record: merge (a dirty entry is written back, R216), invalidate, return its port, hand it to export. -/
def deleteOne (a reason : Nat) : M Unit := do
  let d ← get
  match oget d.flow.slots a, d.merged a with
  | some r, some m =>
    let s := addrSill a
    match d.cacheFind s (recKey m) (recKdir m) with
    | some i =>
      if ((d.cacheAt i).map CacheEnt.dirty).getD false then writeBack i
      modify (·.setCache i none)
    | none => pure ()
    modify (·.setSlot a none)
    dramAsk s (a % 67108864) 0 1 true
    match pooledPort m with
    | some (n, p) => portReturn s n p
    | none => pure ()
    if r.exp then
      let reason := if reason = 1 ∧ (rf m 73 1 = 5 ∨ rf m 73 1 = 6) then 3 else reason
      submitOrWait s 6 (.handOff (!recNarrow m) (exportBytes (d.oS 64 0x6070 0xA) m reason))
  | _, _ => return ()

/-- Delete a record and its twin; a TWIN_ADDR that names an empty slot is ignored (R355). -/
def deleteRec (a reason : Nat) : M Unit := do
  let d ← get
  match d.slotAt a with
  | none => return ()
  | some r =>
    deleteOne a reason
    let t := rf r.data 69 4
    if bitOf t 31 ∧ t % 2 ^ 27 ≠ a then deleteOne (t % 2 ^ 27) reason

/-! ### Insertion (R226 to R231) -/

/-- Breadth-first search for a chain of DRAM moves: occupied slots, each to be moved to another slot of its key; the path and the
free slot (R229). -/
def Dev.dramChain (d : Dev) (s : Nat) : Nat → List (List Nat) → List Nat → Option (List Nat × Nat)
  | 0, _, _ => none
  | fuel + 1, paths, seen =>
    let other := fun (x : Nat) => match d.slotAt (tblAddr s x) with
      | some r => (probeOrder (recKey r.data) (recKdir r.data)).filter (· != x)
      | none => []
    let done := paths.findSome? fun p => match p.getLast? with
      | some x => ((other x).find? (fun y => (d.slotAt (tblAddr s y)).isNone)).map (fun y => (p, y))
      | none => none
    match done with
    | some r => some r
    | none =>
      let step := paths.foldl (fun (acc : List (List Nat) × List Nat) p => match p.getLast? with
        | some x =>
          let new := (other x).filter (fun y => !acc.2.contains y)
          (acc.1 ++ new.map (fun y => p ++ [y]), acc.2 ++ new)
        | none => acc) ([], seen)
      d.dramChain s fuel step.1 step.2

/-- Move a record from slot `x` to slot `y` (R231). -/
def dramMove (s x y : Nat) : M Unit := do
  let d ← get
  match d.slotAt (tblAddr s x) with
  | none => return ()
  | some r =>
    let v := (rf r.data 42 1 + 1) % 256
    let d := (d.setSlot (tblAddr s y) (some { r with data := setRf r.data 42 1 v })).setSlot (tblAddr s x) none
    let d := match d.cacheFind s (recKey r.data) (recKdir r.data) with
      | some i => match d.cacheAt i with
        | some e => if e.addr = tblAddr s x then d.setCache i (some { e with addr := tblAddr s y }) else d
        | none => d
      | none => d
    -- the twin goes on naming the record
    let t := rf r.data 69 4
    let d := if bitOf t 31 then
        match d.slotAt (t % 2 ^ 27) with
        | some w => if rf w.data 69 4 = 2 ^ 31 + tblAddr s x
            then d.setSlot (t % 2 ^ 27) (some { w with data := setRf w.data 69 4 (2 ^ 31 + tblAddr s y) }) else d
        | none => d
      else d
    set d
    incO 0x3830 9 s
    dramAsk s x 0 2 false
    dramAsk s y 0 2 true
    dramAsk s x 0 1 true

/-- The moves of a chain, the last first. -/
def dramMoves (s : Nat) : List Nat → Nat → M Unit
  | [], _ => return ()
  | x :: rest, y => do
    dramMove s x y
    dramMoves s rest x

/-- The slot that policy 1 of R230 frees for a key: the oldest record that is neither static nor a twin. -/
def Dev.replaceable (d : Dev) (s : Nat) (l : List Nat) (now : Nat) : Option Nat :=
  let c := l.filterMap fun x => match d.merged (tblAddr s x) with
    | some m => if recStatic m ∨ recTwin m then none else some (x, ofLast now (rf m 84 6))
    | none => none
  (c.foldl (fun (a : Option (Nat × Nat)) x => match a with
    | some y => if x.2 < y.2 then some x else a
    | none => some x) none).map Prod.fst

/-- An insertion on Sill `s` failed with cause `c` (R229). -/
def flowFail (s c : Nat) : M Unit := do
  incO 0x3830 8 s
  raiseLim (637 + s) 0x3802 2 s s c 0 3

/-- Find and free a slot for a key and write its record there: its address, or none when the table is full or the
Sill's DRAM has failed (R355). `full`: the full policy
of R230 applies, to an insertion of that Sill; its failure is counted before a record is replaced. -/
def placeRec (r : FlowRec) (full : Option Nat) : M (Option Nat) := do
  let d ← get
  let now ← flowNow
  let key := recKey r.data
  let s := homeOf key
  let l := probeOrder key (recKdir r.data)
  let slot : Option Nat ← if d.sillFailed s then pure none else
    match l.find? (fun x => (d.slotAt (tblAddr s x)).isNone) with
    | some x => pure (some x)
    | none =>
      match d.dramChain s 16 (l.map ([·])) l with
      | some (path, free) =>
        dramMoves s path.reverse free
        peakO 0x3830 0xA s path.length
        pure path.head?
      | none =>
        match (if full.isSome then d.replaceable s l now else none) with
        | some x =>
          match full with
          | some h => flowFail h 0
          | none => pure ()
          deleteRec (tblAddr s x) 5
          incO 0x3830 0x12 s
          pure (some x)
        | none => pure none
  match slot with
  | none => return none
  | some x =>
    modify (·.setSlot (tblAddr s x) (some r))
    dramAsk s x 0 2 true
    return some (tblAddr s x)

/-- The write of a key's record, or the last move of the chain that makes room for it, would fall into a segment that is being filled,
so it waits (R354). -/
def Dev.insertHeld (d : Dev) (key kdir : Nat) : Bool :=
  let s := homeOf key
  let l := probeOrder key kdir
  l.any (d.filling s) ||
    (l.all (fun x => (d.slotAt (tblAddr s x)).isSome) && (match d.dramChain s 16 (l.map ([·])) l with
      | some (_, y) => d.filling s y
      | none => false))

/-- The key whose record the full policy of a profile would replace for an insertion (R230). -/
def Dev.replacedKey (d : Dev) (key kdir prof now : Nat) : Option Nat :=
  let s := homeOf key
  let l := probeOrder key kdir
  if d.o 0x3802 7 prof ≠ 1 ∨ l.any (fun x => (d.slotAt (tblAddr s x)).isNone) ∨ (d.dramChain s 16 (l.map ([·])) l).isSome then none
  else (d.replaceable s l now).bind fun x => (d.slotAt (tblAddr s x)).map (recKey ·.data)

/-- The lowest free port at or above the cursor of pool `n`, cyclic in its range (R227). -/
def Dev.poolPort (d : Dev) (n : Nat) : Option Nat :=
  let lo := d.o 0x3810 2 n
  let hi := d.o 0x3810 3 n
  let used := d.portsOf n
  let cur := max lo (nget d.flow.poolCursor n)
  let span := hi + 1 - lo
  -- one more candidate than there are ports in use is enough
  (List.range (min span (used.length + 1))).findSome? fun i =>
    let p := if cur ≤ hi then lo + (cur - lo + i) % span else lo + i
    if used.contains p then none else some p

/-- Allocate a port of a pool. -/
def portTake (n : Nat) : M (Option Nat) := do
  let d ← get
  match d.poolPort n with
  | none =>
    incO 0x3810 5 n
    return none
  | some p =>
    set { d with flow.poolCursor := nset d.flow.poolCursor n (p + 1) }
    portHold n p
    return some p

/-- The backend an insertion takes (R226): none when no backend of the range is enabled. -/
def backendTake (a desc hash : Nat) : M (Option Nat) := do
  let d ← get
  let base := fld desc 15 17
  let count := desc % 2 ^ 15
  let i ← if fld desc 53 2 = 1 then pure (hash % max 1 count)
    else do
      let n := nget d.flow.lbNext a
      set { d with flow.lbNext := nset d.flow.lbNext a (n + 1) }
      pure (n % max 1 count)
  match (List.range count).find? (fun j => d.oB 0x3812 3 (base + (i + j) % count)) with
  | none => return none
  | some j =>
    let m := base + (i + j) % count
    incO 0x3812 4 m
    return some m

/-- The key of two endpoints (address × 65536 + port), the lower one first, and the DIR of a frame from the first. -/
def orderKey (x y proto ctx : Nat) : Nat × Nat :=
  let k := fun (a b : Nat) => ((a <<< 144 + b) <<< 8 + proto) <<< 32 + ctx
  if x ≤ y then (k x y, 0) else (k y x, 1)

/-- The twin of a translating record (R228), without its TWIN_ADDR. `p`: the primary with its translation set; `mode`: 3802h.01 of
the profile. -/
def twinOf (p mode : Nat) : Nat :=
  let a := rf p 0 16 <<< 16 + rf p 16 2
  let b := rf p 18 16 <<< 16 + rf p 34 2
  let nat := fun (orig : Nat) => rf p 44 16 <<< 16 + (if rf p 60 2 = 0 then orig % 65536 else rf p 60 2)
  -- the initiator's endpoint is A when INIT_DIR is 0
  let (src, dst) := if recInit p = 0 then (a, b) else (b, a)
  let side := recSide p
  let (orig, src', dst') := if side = 1 then (src, nat src, dst) else (dst, src, nat dst)
  -- a reply goes from dst' to src'
  let (key, dir) := orderKey dst' src' (rf p 36 1) (rf p 37 4)
  let r := setRf 0 0 41 key
  let r := setRf r 41 1 (128 + (if mode = 1 then dir * 64 else 0) + rf p 41 1 / 32 % 2 * 32 + (1 - dir) * 16 + 8)
  let r := setRf (setRf r 43 1 ((3 - side) * 64)) 44 16 (orig >>> 16)
  let r := setRf (setRf r 60 2 (orig % 65536)) 62 2 (rf p 62 2)
  setRf (setRf (setRf r 64 3 0xFFFFFF) 80 4 (rf p 80 4)) 84 6 (rf p 84 6)

/-- What an insertion gives: present already, created, or failed with a cause (R229). -/
inductive Inserted where
  | present
  | created
  /-- A write would fall into a segment that is being filled: nothing has happened (R354). -/
  | held
  | failed (cause : Nat)
  deriving DecidableEq, Repr

/-- A slot is empty again: an undone record costs one burst (R229, R241). -/
def undoRec (key kdir : Nat) : M Unit := do
  let s := homeOf key
  match (← get).findSlot s key kdir with
  | some a =>
    modify (·.setSlot a none)
    dramAsk s (a % 67108864) 0 1 true
  | none => return ()

/-- What an insertion makes before it writes: the record with the port that it took, or the cause for which it fails. -/
inductive Built where
  | ready (r : Nat) (port : Option Nat)
  | failed (cause : Nat)
  deriving DecidableEq, Repr

/-- The record of a new key under descriptor `a`, with its backend and translation (R226 to R229); `got`: the other Sill's answer,
where that Sill keeps the pool's map. -/
def insertBuild (key kdir a dir tcp : Nat) (got : PortAsk) : M Built := do
  let d ← get
  let now ← flowNow
  let s := homeOf key
  let desc := d.o 0x3803 1 a
  let pool := fld desc 57 5
  let proto := fld key 32 8
  let track := bitOf desc 56
  let syn : Bool := bitOf tcp 1 && !bitOf tcp 4
  let st := if !track then 0 else if proto ≠ 6 then 7 else if syn then 1 else 3
  let r := setRf (setRf 0 0 41 key) 41 1 (128 + kdir * 64 + (bitOf desc 52).toNat * 32 + dir * 16)
  let r := setRf (setRf (setRf r 62 2 a) 64 3 0xFFFFFF) 67 2 (fld desc 32 16 % 4096)
  let r := setRf (setRf (setRf r 73 1 st) 80 4 (now / uS % 2 ^ 32)) 84 6 (toLast now)
  let m := rf r 67 2
  let r := if m = 0 then r else setRf r 76 4 (d.o 0x3808 2 m)
  let back : Option (Option Nat) ←
    if fld desc 53 2 = 0 then pure (some none)
    else do
      match ← backendTake a desc (keyHash key) with
      | some b => pure (some (some b))
      | none => pure none
  match back with
  | none =>
    match got with
    | .got (some p) => portReturn s pool p
    | _ => pure ()
    return .failed 2
  | some b =>
    let d ← get
    let r := match b with | some n => setRf r 64 3 n | none => r
    let natMode := desc >>> 62
    if natMode = 1 then
      match ← (match got with | .got p => pure p | _ => portTake pool) with
      | some p => return .ready (setRf (setRf (setRf r 43 1 (64 + 32 + pool)) 44 16 (d.o 0x3810 1 pool)) 60 2 p) (some p)
      | none => return .failed 1
    else if natMode = 2 then
      let n := b.getD 0
      return .ready (setRf (setRf (setRf r 43 1 128) 44 16 (d.o 0x3812 1 n)) 60 2 (d.o 0x3812 2 n)) none
    else return .ready r none

/-- Insert a key under descriptor `a` (R229); `got` as in `insertBuild`. -/
def insertFlow (key kdir prof a dir tcp : Nat) (got : PortAsk) : M Inserted := do
  let s := homeOf key
  probeRead s key kdir false (probeOrder key kdir)
  let d ← get
  let desc := d.o 0x3803 1 a
  let pool := fld desc 57 5
  if (d.findSlot s key kdir).isSome then
    match got with
    | .got (some p) => portReturn s pool p
    | _ => pure ()
    return .present
  else
    match ← insertBuild key kdir a dir tcp got with
    | .failed c => return .failed c
    | .ready r port =>
      let exp := bitOf desc 55
      let giveBack : M Unit := match port with | some p => portReturn s pool p | none => pure ()
      let full : Option Nat := if d.o 0x3802 7 prof = 1 then some s else none
      if recSide r = 0 then
        match ← placeRec ⟨r, exp⟩ full with
        | some _ => return .created
        | none => return .failed 0
      else
        let t := twinOf r (d.o 0x3802 1 prof)
        if ((← get).findSlot (homeOf (recKey t)) (recKey t) (recKdir t)).isSome then
          giveBack
          return .failed 3
        else if (← get).insertHeld (recKey t) (recKdir t) then
          set d
          return .held
        else
          match ← placeRec ⟨t, exp⟩ full with
          | none =>
            giveBack
            return .failed 0
          | some _ =>
            if (← get).insertHeld key kdir then
              set d
              return .held
            else
              match ← placeRec ⟨r, exp⟩ full with
              | none =>
                undoRec (recKey t) (recKdir t)
                giveBack
                return .failed 0
              | some pa =>
                -- the chain may have moved the twin: name it where it lies
                match (← get).findSlot (homeOf (recKey t)) (recKey t) (recKdir t) with
                | none => return .created
                | some ta =>
                  modify fun d => (d.setSlot pa (some ⟨setRf r 69 4 (2 ^ 31 + ta), exp⟩)).setSlot ta
                    ((d.slotAt ta).map fun x => { x with data := setRf x.data 69 4 (2 ^ 31 + pa) })
                  return .created

/-- The key of the record that the full policy of a profile would replace for the twin of an insertion (R230). -/
def Dev.replacedForTwin (d : Dev) (c : Clock) (key kdir prof a dir tcp : Nat) (got : PortAsk) : Option Nat :=
  let now := if d.oB 0x1800 3 then c.net else c.dev
  match ((insertBuild key kdir a dir tcp got).run c).run d with
  | (.ready r _, e) =>
    if recSide r = 0 then none
    else
      let t := twinOf r (d.o 0x3802 1 prof)
      if (e.findSlot (homeOf (recKey t)) (recKey t) (recKdir t)).isSome then none
      else e.replacedKey (recKey t) (recKdir t) prof now
  | (.failed _, _) => none

/-- Where an insertion task stands: it has to wait, it is done, or its record is written and waits for a cache place. -/
inductive InsEnd where
  | wait
  | done
  | placing (created oos : Bool)
  deriving DecidableEq, Repr

/-- The record of a key is installed and its frames resume (R229); while no cache place can be had they keep waiting (R233). -/
def insertPlace (key kdir : Nat) (created oos : Bool) : M InsEnd := do
  let s := homeOf key
  match (← get).findSlot s key kdir with
  | none =>
    resumeMiss s key kdir 0
    return .done
  | some a =>
    if ← install a then
      resumeHit s key kdir created oos
      return .done
    else return .placing created oos

/-- The pool of a descriptor whose map the other Sill keeps (R227). -/
def Dev.poolAway (d : Dev) (s a : Nat) : Option Nat :=
  let desc := d.o 0x3803 1 a
  if desc >>> 62 = 1 ∧ fld desc 57 5 % 2 ≠ s then some (fld desc 57 5) else none

/-- The insertion task of a key (R229): it waits for a fill (R354) or a pool scan (R451). `got` as in `insertFlow`. -/
def insertTask (key kdir prof a dir tcp : Nat) (got : PortAsk) : M InsEnd := do
  let d ← get
  let s := homeOf key
  let desc := d.o 0x3803 1 a
  if d.insertHeld key kdir ∨ (desc >>> 62 = 1 ∧ got = .no ∧ d.flow.scanning.contains (fld desc 57 5)) then return .wait
  else if d.sillFailed s then
    match got with
    | .got (some p) => portReturn s (fld desc 57 5) p
    | _ => pure ()
    resumeUnserved s key kdir
    return .done
  else
    match ← insertFlow key kdir prof a dir tcp got with
    | .held => return .wait
    | .failed c =>
      flowFail s c
      resumeMiss s key kdir 0
      return .done
    | .present => insertPlace key kdir false false
    | .created =>
      incO 0x3830 7 s
      insertPlace key kdir true (fld key 32 8 == 6 && bitOf desc 56 && !(bitOf tcp 1 && !bitOf tcp 4))

/-! ### Commits and samples (R234 to R237) -/

/-- FSTATE after a good commit (R236). -/
def tcpStep (st role flags initF respF : Nat) : Nat :=
  let syn := bitOf flags 1
  let ack := bitOf flags 4
  if 1 ≤ st ∧ st ≤ 5 ∧ bitOf flags 2 then 6
  else match st with
    | 1 => if role = 0 ∧ syn ∧ ack then 2 else 1
    | 2 => if role = 1 ∧ ack ∧ !syn then 3 else 2
    | 3 => if bitOf flags 0 then 4 else 3
    | 4 => if bitOf initF 0 ∧ bitOf respF 0 then 5 else 4
    | x => x

/-- FLOW_COMMIT (R234). -/
def flowCommit (id : Nat) : M Unit := do
  let d ← get
  match d.frame id with
  | none => return ()
  | some f =>
    if f.whole ∧ f.slot.isSome ∧ !f.committed then
      let k := f.sill
      let len := f.data.length
      let good : Bool := match f.fault with | some x => decide (4 < x) | none => true
      match d.cacheFind k f.key f.kdir with
      | none => incO 0x3830 0xF k
      | some i =>
        match d.cacheAt i with
        | none => return ()
        | some e =>
          let overs : Bool := if good then decide (0xFFFFFF < e.pk + 1 ∨ 0xFFFFFFFF - 16383 < e.oct + len) else decide (0xFF < e.err + 1)
          if overs then writeBack i
          let d ← get
          match d.cacheAt i with
          | none => return ()
          | some e =>
            let green : Bool := match f.reply with | some r => fld r.res 100 2 == 1 | none => false
            let e := if green then { e with credit := max (-(2 ^ 31) * polUnit) (e.credit - (len : Int) * polUnit) } else e
            let e := { e with dirty := true, pins := e.pins - 1 }
            let e :=
              if good then
                let flags := d.tcpFlags f
                let role := if f.tf 290 1 = recInit e.data then 1 else 0
                let o := if role = 1 then 74 else 75
                let r := setRf e.data o 1 (rf e.data o 1 ||| flags)
                let r := setRf r 73 1 (tcpStep (rf r 73 1) role flags (rf r 74 1) (rf r 75 1))
                { e with data := r, pk := e.pk + 1, oct := e.oct + len }
              else { e with err := e.err + 1 }
            set (d.setCache i (some e))
      match (← get).frame id with
      | none => return ()
      | some f =>
        setFrame { f with committed := true }
        frameDone id

/-- FLOW_SAMPLE: the oldest sample of a frame reaches the home Sill (R237). -/
def flowSample (id : Nat) : M Unit := do
  let d ← get
  match d.flow.samples.find? (fun x => x.frame == id) with
  | none => return ()
  | some x =>
    set { d with flow.samples := d.flow.samples.erase x }
    match d.cacheFind x.sill x.key x.kdir with
    | none => incO 0x3830 0x10 x.sill
    | some i =>
      let bin := ((List.range 7).filter (fun j => d.o 0x3807 (j + 1) ≤ x.lat)).length
      match d.cacheAt i with
      | none => return ()
      | some e =>
        if 0xFF < e.hist.getD bin 0 + 1 then writeBack i
        let d ← get
        match d.cacheAt i with
        | none => return ()
        | some e =>
          let h := (List.range 8).map fun j => e.hist.getD j 0 + (if j = bin then 1 else 0)
          set (d.setCache i (some { e with hist := h, dirty := true }))

/-! ### Aging (R238) -/

/-- The timeout of an FSTATE in seconds. -/
def Dev.ageLimit (d : Dev) (st : Nat) : Nat :=
  d.o 0x3806 (match st with | 3 => 1 | 1 | 2 | 4 => 2 | 5 | 6 => 3 | _ => 4)

/-- The last lookup of a record, the later of it and its twin. -/
def Dev.lastSeen (d : Dev) (now m : Nat) : Nat :=
  let own := ofLast now (rf m 84 6)
  let t := rf m 69 4
  if bitOf t 31 then match d.merged (t % 2 ^ 27) with
    | some w => max own (ofLast now (rf w 84 6))
    | none => own
  else own

/-- A record has been idle for longer than the timeout of its class. -/
def Dev.aged (d : Dev) (now m : Nat) : Bool :=
  !recStatic m && !recTwin m && decide (d.ageLimit (rf m 73 1) * uS < now - d.lastSeen now m)

/-- The tasks that delete the aged records at `l`, each under its key's clamp (R238, R264): the record at which the walk waits, the
dispatcher being full. -/
def ageRecords (s now : Nat) : List Nat → M (Option Nat)
  | [] => return none
  | a :: r => do
    recordRead s (a % 67108864) true
    let d ← get
    let ok ← match d.merged a with
      | none => pure true
      | some m =>
        let work := Work.delete (recKey m) (recKdir m)
        if d.aged now m ∧ !(d.tasks s).any (fun t => t.work == work) then spawnRom s 4 work else pure true
    if ok then ageRecords s now r else return some a

/-- An aging segment of 65,536 slots of Sill `s`, from address `walk` on. -/
def ageSegment (s seg walk : Nat) : M (Option Nat) := do
  let d ← get
  ageRecords s (← flowNow) (d.flow.slots.filterMap fun e => if e.1 / 65536 = s * 1024 + seg ∧ walk ≤ e.1 then some e.1 else none)

/-- The deletion of a record that is still aged. -/
def deleteAged (s key kdir : Nat) : M Unit := do
  let d ← get
  let now ← flowNow
  match d.findSlot s key kdir with
  | none => return ()
  | some a =>
    match d.merged a with
    | none => return ()
    | some m =>
      if d.aged now m then
        deleteRec a 1
        incO 0x3830 0x11 s

/-! ### Table operations on 3800h.01 (R239) -/

/-- An entry's key and KDIR. -/
def flowEntryKey (e : Nat) : Nat × Nat := (recKey e, recKdir e)

/-- The cached copy of a record that a TBL_UPDATE changes to `x`: its place and the entry afterwards. -/
def Dev.updatedEnt (d : Dev) (s x : Nat) : Option (Nat × CacheEnt × CacheEnt) :=
  (d.cacheFind s (recKey x) (recKdir x)).bind fun i => (d.cacheAt i).map fun e =>
    (i, e, { e with
      data := x, wide := !recNarrow x, credit := if rf e.data 67 2 = rf x 67 2 then e.credit else toS 32 (rf x 76 4) * polUnit })

/-- A record with the fields that TBL_UPDATE replaces (R239). -/
def updatedRec (r entry : Nat) : Nat :=
  let x := [(43, 1), (44, 16), (60, 2), (62, 2), (64, 3), (67, 2)].foldl (fun x y => setRf x y.1 y.2 (rf entry y.1 y.2)) r
  let x := setRf x 41 1 (clearBits (rf x 41 1) 32 + (recStatic entry).toNat * 32)
  setRf x 42 1 ((rf x 42 1 + 1) % 256)

/-- A TBL_UPDATE waits for a cache place of the record's new width (R233). -/
def Dev.updateHeld (d : Dev) (addr entry : Nat) : Bool :=
  match d.slotAt addr with
  | none => false
  | some r => match d.updatedEnt (addrSill addr) (updatedRec r.data entry) with
    | some (i, e, e') => e.wide != e'.wide && !(d.setCache i none).canPlace e'
    | none => false

/-- The first record of a list of addresses that reads well (R216). -/
def nextRecord : List Nat → M (Option Nat)
  | [] => return none
  | a :: r => do
    recordRead (addrSill a) (a % 67108864) true
    if ((← get).slotAt a).isSome then return some a else nextRecord r

/-- A table operation: 1 find, 2 insert, 3 delete, 4 next, 5 update; answers status, address and entry. -/
def flowTable (op addr entry : Nat) : M (Nat × Nat × Nat) := do
  let d ← get
  let now ← flowNow
  let (key, kdir) := flowEntryKey entry
  let s := homeOf key
  let absent : Nat × Nat × Nat := (0x103, 0xFFFFFFFF, 0)
  if 1 ≤ op ∧ op ≤ 3 then probeRead s key kdir true (probeOrder key kdir)
  else if op = 5 ∧ (d.slotAt addr).isSome then recordRead (addrSill addr) (addr % 67108864) true
  let d ← get
  match op with
  | 1 =>
    match d.findSlot s key kdir with
    | some a => return (0, a, (d.merged a).getD 0)
    | none => return absent
  | 2 =>
    match d.findSlot s key kdir with
    | some a => return (0x502, a, (d.merged a).getD 0)
    | none =>
      if recSide entry = 3 then return (0x302, 0, 0)
      -- no insertion runs on a Sill whose DRAM has failed (R355, log entry 141)
      else if d.sillFailed s then return (0x701, 0, 0)
      else
        let a := rf entry 62 2
        let desc := d.o 0x3803 1 a
        let st := if !bitOf desc 56 then 0 else if fld key 32 8 ≠ 6 then 7 else 3
        let r := setRf (setRf 0 0 41 key) 41 1 (128 + kdir * 64 + (recStatic entry).toNat * 32 + recInit entry * 16)
        let r := [(43, 1), (44, 16), (60, 2), (62, 2), (64, 3), (67, 2)].foldl (fun r x => setRf r x.1 x.2 (rf entry x.1 x.2)) r
        let r := setRf (setRf (setRf r 73 1 st) 80 4 (now / uS % 2 ^ 32)) 84 6 (toLast now)
        let m := rf r 67 2
        let r := if m = 0 then r else setRf r 76 4 (d.o 0x3808 2 (m % 4096))
        match ← placeRec ⟨r, bitOf desc 55⟩ none with
        | some ad =>
          match pooledPort r with
          | some (n, p) => portHold n p
          | none => pure ()
          return (0, ad, 0)
        | none => return (0x501, 0, 0)
  | 3 =>
    match d.findSlot s key kdir with
    | some a =>
      deleteRec a 4
      return (0, a, 0)
    | none => return absent
  | 4 =>
    match ← nextRecord (d.flow.slots.filterMap fun e => if addr ≤ e.1 ∧ (d.slotAt e.1).isSome then some e.1 else none) with
    | some a => return (0, a, ((← get).merged a).getD 0)
    | none => return absent
  | _ =>
    match d.slotAt addr with
    | none => return (0x103, addr, 0)
    | some r =>
      if recKey r.data ≠ key ∨ recKdir r.data ≠ kdir ∨ recSide entry = 3 then return (0x302, addr, 0)
      else
        match d.cacheFind s key kdir with
        | some i => if ((d.cacheAt i).map CacheEnt.dirty).getD false ∧ !d.sillFailed s then writeBack i
        | none => pure ()
        let d ← get
        match d.slotAt addr with
        | none => return (0x103, addr, 0)
        | some r =>
          let x := updatedRec r.data entry
          set (d.setSlot addr (some { r with data := x }))
          if pooledPort x ≠ pooledPort r.data then
            match pooledPort x with
            | some (n, p) => portHold n p
            | none => pure ()
            match pooledPort r.data with
            | some (n, p) => portReturn s n p
            | none => pure ()
          -- the cached copy takes the new fields; a copy whose width changes takes another place, with its pins
          let d ← get
          match d.updatedEnt s x with
          | none => return (0, addr, 0)
          | some (i, e, e') =>
            if e.wide = e'.wide then set (d.setCache i (some e'))
            else
              set (d.setCache i none)
              let _ ← installEnt e'
            return (0, addr, 0)

/-! ### Meanings -/

/-- FLOW_LOOKUP (R217). -/
def execFlowLookup (id : Nat) (bad : Bool) (s : State) := run (.flowLookup id bad) (flowLookup id bad) s

/-- FLOW_COMMIT (R234). -/
def execFlowCommit (id : Nat) (s : State) := run (.flowCommit id) (flowCommit id) s

/-- FLOW_SAMPLE (R237). -/
def execFlowSample (id : Nat) (s : State) := run (.flowSample id) (flowSample id) s

/-- FLOW_AGING_PASS (R238, R264): the aging timer submits the segments of Sill `k`, those that still wait from the last pass once. -/
def execFlowAgingPass (k : Nat) (s : State) :=
  run (.flowAgingPass k) (do
    let d ← get
    if !d.sillFailed k then
      for seg in (List.range 1024).filter (fun seg => !d.joinery.waiting.any (fun e => e.1 == k && e.2.work == .aging seg)) do
        submitOrWait k 5 (.aging seg)) s

/-- POOL_SCAN_DONE (R451). -/
def execPoolScanDone (n : Nat) (s : State) :=
  run (.poolScanDone n) (do
    let d ← get
    if d.flow.scanning.contains n then
      let ports := d.flow.slots.filterMap fun e => match e.2 with
        | some r => if bitOf (rf r.data 43 1) 5 ∧ rf r.data 43 1 % 32 = n then some (rf r.data 60 2) else none
        | none => none
      set { d.setPorts n (nub ports).length ports with flow.scanning := d.flow.scanning.filter (· != n) }) s

end Sys2Proof.Machine
end

