-- ==== Sys2Proof/Machine/Joinery.lean ====
section
/-! DEFINITION. The Joinery (10): microwords and their fields (R246 to R251), waits (R252), the microcode store and patches (R253 to
R255), threads (R258), clamps (R259, R260), channels (R261), tasks, the dispatcher and the Dovetail (R262 to R267), checkpoints,
interrupts and preemption (R269 to R272), faults (R273), deadlock recovery (R274 to R276), the debugger (R277, R278), a stalled core
(R279). A thread is numbered n × 16 + t; a clamp by Sill × 4,096 + c, a channel by Sill × 256 + c. -/

namespace Sys2Proof.Machine

/-! ### Threads -/

/-- A thread. -/
def Dev.thr (d : Dev) (i : Nat) : Thread := mget (dK {}) d.joinery.threads i

/-- Replace a thread. -/
def Dev.setThr (d : Dev) (i : Nat) (x : Thread) : Dev := { d with joinery.threads := mset (dK {}) d.joinery.threads i x }

/-- The Sill of a thread. -/
def thrSill (i : Nat) : Nat := i / 256

/-- A thread holds a task. -/
def Thread.busy (x : Thread) : Bool := 1 ≤ x.st && x.st ≤ 7

/-- A thread waits in a microword. -/
def Thread.waits (x : Thread) : Bool := 2 ≤ x.st && x.st ≤ 6

/-- The free pool threads of a core, lowest number first (R244). -/
def Dev.freeThreads (d : Dev) (n : Nat) : List Nat :=
  ((List.range 15).map (fun t => n * 16 + t + 1)).filter (fun i => (d.thr i).st == 0)

/-- Threads waiting to FORK on a core, oldest first. -/
def Dev.forksOf (d : Dev) (n : Nat) : List Nat := mget (dK []) d.joinery.forks n

/-- Threads waiting to SPAWN on a Sill, oldest first. -/
def Dev.spawnsOf (d : Dev) (s : Nat) : List Nat := mget (dK []) d.joinery.spawns s

/-- The task of a number on a Sill. -/
def Dev.taskOf (d : Dev) (s seq : Nat) : Option Task := (d.tasks s).find? (fun x => x.seq == seq)

/-- Replace a task of a Sill. -/
def Dev.setTask (d : Dev) (s : Nat) (t : Task) : Dev :=
  d.setTasks s ((d.tasks s).map (fun x => if x.seq = t.seq then t else x))

/-- The threads of a task. -/
def Dev.taskThreads (d : Dev) (s seq : Nat) : List Nat :=
  d.joinery.threads.filterMap fun e => if thrSill e.1 = s ∧ e.2.busy ∧ e.2.task = seq then some e.1 else none

/-! ### Clamps (R259) -/

/-- A clamp, if it is held. -/
def Dev.clamp (d : Dev) (c : Nat) : Option Clamp := oget d.joinery.clamps c

/-- Replace a clamp. -/
def Dev.setClamp (d : Dev) (c : Nat) (x : Option Clamp) : Dev := { d with joinery.clamps := oset d.joinery.clamps c x }

/-- The clamps a thread holds, in ascending order. -/
def Dev.clampsOf (d : Dev) (i : Nat) : List Nat :=
  d.joinery.clamps.filterMap fun e => match e.2 with
    | some c => if c.owner = i then some e.1 else none
    | none => none

/-- A held clamp is freed: it goes to the head of its queue. -/
def Dev.clampFree (d : Dev) (c : Nat) : Dev :=
  match d.clamp c with
  | none => d
  | some x => match x.queue with
    | [] => d.setClamp c none
    | h :: q => (d.setClamp c (some { owner := h, holds := 1, queue := q })).setThr h { d.thr h with granted := true }

/-- One hold is released. -/
def Dev.clampRelease (d : Dev) (c : Nat) : Dev :=
  match d.clamp c with
  | none => d
  | some x => if 1 < x.holds then d.setClamp c (some { x with holds := x.holds - 1 }) else d.clampFree c

/-- One hold is taken of a clamp that is free or the thread's own. -/
def Dev.clampTake (d : Dev) (c i : Nat) : Dev :=
  match d.clamp c with
  | none => d.setClamp c (some { owner := i, holds := 1 })
  | some x => d.setClamp c (some { x with holds := x.holds + 1 })

/-- The clamp is another thread's. -/
def Dev.clampBusy (d : Dev) (c i : Nat) : Bool := match d.clamp c with | some x => x.owner != i | none => false

/-- A thread waits in a clamp's queue. -/
def Dev.clampQueue (d : Dev) (c i : Nat) : Dev :=
  match d.clamp c with
  | none => d
  | some x => if x.queue.contains i then d else d.setClamp c (some { x with queue := x.queue ++ [i] })

/-! ### Channels (R261) -/

/-- A channel. -/
def Dev.chan (d : Dev) (c : Nat) : Chan := mget (dK {}) d.joinery.chans c

/-- Replace a channel. -/
def Dev.setChan (d : Dev) (c : Nat) (x : Chan) : Dev := { d with joinery.chans := mset (dK {}) d.joinery.chans c x }

/-- The channels that hold a partial message of a thread, with its words. -/
def Dev.partials (d : Dev) (i : Nat) : List (Nat × Nat) :=
  d.joinery.chans.filterMap fun e => match e.2.part with
    | some (o, ws) => if o = i then some (e.1, ws.length) else none
    | none => none

/-- A partial message is discarded and its channel unlocked. -/
def Dev.dropPartial (d : Dev) (c : Nat) : Dev := d.setChan c { d.chan c with part := none }

/-- A thread can send its next word now: its own message goes on, or the channel is unlocked, has a place, and it is its turn. -/
def Dev.canSend (d : Dev) (c i : Nat) : Bool :=
  let x := d.chan c
  match x.part with
  | some (o, _) => o == i
  | none => decide (x.msgs.length < 16) && (x.senders == [] || x.senders.head? == some i)

/-! ### Fetch-unit commands (R250; log entry 18) -/

/-- A record's octets as 15 words, and back. -/
def recWords (r : Nat) : List Nat := (List.range 15).map fun j => rf r (8 * j) 8
def wordsRec (l : List Nat) : Nat := l.foldl (fun a w => a * 2 ^ 64 + w) 0

/-- A command is executed (R231). On a Sill whose DRAM has failed none reads, writes, moves or installs a record (R355). -/
def cmdRun (s : Nat) (c : FetchCmd) : M Unit := do
  let f := fun k => Config.fetchCommand k c.words c.addr
  let failed := (← get).sillFailed s
  let slot := f 1 % 67108864
  let a := tblAddr s slot
  let buf := f 3 % 64
  match f 0 % 5 with
  | 0 =>
    if !failed then recordRead s slot false
    let d ← get
    let ws := recWords (((if failed then none else d.slotAt a).map FlowRec.data).getD 0)
    modify fun d => ws.zipIdx.foldl (fun (d : Dev) e =>
      let x := d.thr c.thread
      d.setThr c.thread { x with scratch := nset x.scratch ((buf + e.2) % 64) e.1 }) d
  | 1 =>
    if !failed then
      let d ← get
      let r := wordsRec ((List.range 15).map fun j => c.words.getD ((buf + j) % 64) 0)
      set (d.setSlot a (if bitOf (rf r 41 1) 7 then some ⟨r, bitOf (d.o 0x3803 1 (rf r 62 2)) 55⟩ else none))
      dramAsk s slot 0 2 true
  | 2 => if !failed then dramMove s slot (f 2 % 67108864)
  | 3 =>
    modify (·.setSlot a none)
    dramAsk s slot 0 1 true
  | _ =>
    if !failed then
      let _ ← install a

/-- A command writes to a segment that is being filled, and waits (R354). -/
def Dev.cmdHeld (d : Dev) (s : Nat) (c : FetchCmd) : Bool :=
  let f := fun k => Config.fetchCommand k c.words c.addr
  match f 0 % 5 with
  | 1 | 3 => d.filling s (f 1 % 67108864)
  | 2 => d.filling s (f 1 % 67108864) || d.filling s (f 2 % 67108864)
  | _ => false

/-- The commands of a Sill that have not completed. -/
def Dev.cmdsOf (d : Dev) (s : Nat) : List FetchCmd := mget (dK []) d.joinery.cmds s

/-- The oldest `n` commands of a Sill complete, up to one that has to wait. -/
def cmdDone (s : Nat) : Nat → M Unit
  | 0 => return ()
  | n + 1 => do
    let d ← get
    match d.cmdsOf s with
    | [] => return ()
    | c :: r =>
      if !d.cmdHeld s c then
        set { d with joinery.cmds := mset (dK []) d.joinery.cmds s r }
        cmdRun s c
        cmdDone s n

/-- How many of a Sill's commands complete with the last one of thread `i`. -/
def Dev.cmdsOfThread (d : Dev) (i : Nat) : Nat :=
  ((d.cmdsOf (thrSill i)).zipIdx.filter (fun e => e.1.thread == i)).foldl (fun _ e => e.2 + 1) 0

/-- Commands complete in their own time: how many have by now is free (log entry 18). -/
def cmdDrain (s : Nat) : M Unit := do
  let n := ((← get).cmdsOf s).length
  if n ≠ 0 then cmdDone s ((← fresh) % (n + 1))

/-! ### The end of threads and tasks -/

/-- A thread leaves every queue it waits in. -/
def Dev.unqueue (d : Dev) (i : Nat) : Dev :=
  let d := (mkeys d.joinery.clamps).foldl (fun (d : Dev) c => match d.clamp c with
    | some x => d.setClamp c (some { x with queue := x.queue.filter (· != i) })
    | none => d) d
  let d := (mkeys d.joinery.chans).foldl (fun (d : Dev) c => d.setChan c { d.chan c with senders := (d.chan c).senders.filter (· != i) }) d
  { d with
    joinery.forks := mset (dK []) d.joinery.forks (i / 16) ((d.forksOf (i / 16)).filter (· != i))
    joinery.spawns := mset (dK []) d.joinery.spawns (thrSill i) ((d.spawnsOf (thrSill i)).filter (· != i)) }

/-- A thread ends: its commands complete (R272), its clamps are released (R260), its partial message is discarded (R261), it returns to
the pool (R258). -/
def threadEnd (i : Nat) (exit : Bool) (st : Nat := 0) : M Unit := do
  let n := i / 16
  let s := thrSill i
  cmdDone s ((← get).cmdsOfThread i)
  let d ← get
  let x := d.thr i
  let kind := ((d.taskOf s x.task).map Task.kind).getD 0
  let held := d.clampsOf i
  set (held.foldl Dev.clampFree (d.unqueue i))
  if held ≠ [] then
    incO 0x3844 4 s
    if exit then raiseEv (432 + n) 0x3841 1 i held.length kind
  for c in d.partials i do
    modify (·.dropPartial c.1)
    incO 0x3845 3 s
    if exit then raiseEv (432 + n) 0x3842 1 i (c.1 % 256) c.2
  modify fun d =>
    let p := d.thr x.parent
    let d := if x.root then d else d.setThr x.parent { p with children := p.children - 1 }
    d.setThr i { st, regs := x.regs, scratch := x.scratch }

/-- The address that a table operation of status `st` returns (R53): of the entry found, made, freed or updated, of the one that
exists already, FFFFFFFFh for an absent key; another failed operation returns none. -/
def resAddr (op st addr : Nat) : Option Nat :=
  if st = 0 ∨ st = 0x401 ∨ st = 0x502 then some addr else if st = 0x103 ∧ op = 1 then some 0xFFFFFFFF else none

/-- The address field of a result: a free value where the operation's result gives none (log entry 20). -/
def addrField : Option Nat → M Nat
  | some a => return a % 2 ^ 32
  | none => return (← fresh) % 2 ^ 32

/-- An operation of table window `k` completes (R55), or of the list `k` − 32. -/
def tblFinish (k op status addr : Nat) (entry : Bytes) : M Unit := do
  let good : Bool := status == 0 || status == 0x401
  let a ← addrField (resAddr op status addr)
  modify fun d => if 32 ≤ k then
    let v := toBytes 4 a ++ (if good ∧ (op = 1 ∨ op = 4) then entry else [])
    { d with lists := oset d.lists (k - 32) ((oget d.lists (k - 32)).map fun x => { x with res := some (status, v) }) }
  else
    let w := mget (dK {}) d.tblWins k
    let w : TblWin := { w with
      status, addr := a
      entry := if good ∧ (op = 1 ∨ op = 4) then overlay w.entry 0 entry else w.entry
      cursor := if good ∧ op = 4 then (addr + 1) % 2 ^ 32 else w.cursor }
    { d with tblWins := mset (dK {}) d.tblWins k w }

/-- A dependence counter, none while it is free (R265). -/
def Dev.dep (d : Dev) (s c : Nat) : Option Nat := if c < 16384 then oget d.joinery.deps (s * 16384 + c) else none

/-- Some task waits on a counter. -/
def Dev.depWaited (d : Dev) (s c : Nat) : Bool := (d.tasks s).any (fun t => t.waitCtr == c && t.st == 0)

/-- A counter has a value; one that reaches zero with no task waiting on it is free again. -/
def Dev.setDep (d : Dev) (s c v : Nat) : Dev :=
  { d with joinery.deps := oset d.joinery.deps (s * 16384 + c) (if v = 0 ∧ !d.depWaited s c then none else some v) }

/-- A decrement; at zero it leaves zero. -/
def Dev.depDec (d : Dev) (s c : Nat) : Dev :=
  match d.dep s c with
  | some v => if v = 0 then d else d.setDep s c (v - 1)
  | none => d

/-- Work that waited for the dispatcher of a Sill is submitted while it takes it, and the link of the other Sill goes on (R267). -/
def submitWaiting (s : Nat) : M Unit := do
  let l := (← get).joinery.waiting.filter (fun e => e.1 == s)
  for e in l do
    let ok ← submit s e.2.kind e.2.work
    if ok then modify fun d => { d with joinery.waiting := d.joinery.waiting.erase e }
  linkDrive (1 - s)

/-- The parts of a completion (R266). -/
def releaseTask (s : Nat) (t : Task) : M Unit := do
  modify fun d => (d.setTasks s ((d.tasks s).filter (fun x => x.seq != t.seq))).depDec s t.doneCtr
  match t.work with
  | .insert key kdir _ desc .. =>
    match t.port with
    | .got (some p) => portReturn s (fld ((← get).o 0x3803 1 desc) 57 5) p
    | _ => pure ()
    -- a routine that a patch replaced leaves the record or leaves none; a failed task none (R224)
    let d ← get
    if (d.fetches s).any (fun p => p.key == key && p.kdir == kdir) then
      match (if t.status = 0 then d.findSlot s key kdir else none) with
      | some a =>
        let _ ← install a
        resumeHit s key kdir false false
      | none => resumeMiss s key kdir 0
  | .table k op .. =>
    match t.res with
    | some (st, a, e) => tblFinish k op st a (toBytes 120 e)
    | none =>
      if t.status = 0 then
        let a ← fresh
        let e ← fresh
        tblFinish k op 0 (a % 2 ^ 27) (toBytes 120 e)
      else tblFinish k op 0x701 0 []
  | _ => pure ()
  submitWaiting s

/-- An ordered task waits for an earlier one of its domain (R266). -/
def Dev.domainHeld (d : Dev) (s : Nat) (t : Task) : Bool :=
  bitOf t.ctrl 2 && (d.tasks s).any (fun x => bitOf x.ctrl 2 && x.domain == t.domain && decide (x.seq < t.seq))

/-- A task is complete: the Dovetail releases the completion or holds it (R266). -/
def finishTask (s : Nat) (t : Task) : M Unit := do
  if (← get).domainHeld s t then modify (·.setTask s { t with st := 3 })
  else releaseTask s t

/-- Abort a task (R272): every thread of it ends, and it is queued again, its RETRY raised where `again`. -/
def abortTask (s seq : Nat) (again : Bool) : M Unit := do
  let d ← get
  match d.taskOf s seq with
  | none => return ()
  | some t =>
    for i in d.taskThreads s seq do threadEnd i false
    incO 0x3852 3 t.core
    let retry := if again then t.retry + 1 else t.retry
    if d.o 0x3843 2 < retry then
      incO 0x3852 4 t.core
      raiseEv (432 + t.core) 0x3845 2 t.core t.kind (if bitOf t.ctrl 2 then t.domain else 0xFFFF)
      finishTask s { t with status := 0xFF, res := none }
    else
      let now ← runNow
      modify (·.setTask s { t with
        retry, st := if retry = 0 then 0 else 2, readyAt := now + retry * uUs, token := none, asked := false, res := none })

/-- A thread fault (R273). -/
def threadFault (i cause addr : Nat) : M Unit := do
  let d ← get
  incO 0x3852 8 (i / 16)
  raiseEv (432 + i / 16) 0x3840 2 i cause addr
  abortTask (thrSill i) (d.thr i).task true

/-! ### Dispatch (R263) -/

/-- A task is ready: its WAIT_CTR is FFFFh or zero. -/
def Dev.ready (d : Dev) (s : Nat) (t : Task) : Bool := t.st == 0 && (t.waitCtr == 0xFFFF || (d.dep s t.waitCtr).getD 0 == 0)

/-- `a` comes before `b`: the higher level, then the preempted (the last first), then the order of arrival. -/
def taskBefore (a b : Task) : Bool :=
  let p : Task → Nat := fun t => t.ctrl / 32
  let q : Task → Nat := fun t => match t.token with | some k => k.place + 1 | none => 0
  decide (p b < p a) || (p a == p b && (decide (q b < q a) || (q a == q b && decide (a.seq < b.seq))))

/-- The first of a list of tasks. -/
def firstTask (l : List Task) : Option Task :=
  l.foldl (fun (a : Option Task) t => match a with
    | some x => if taskBefore t x then some t else a
    | none => some t) none

/-- Threads that the dispatcher may take on a core: the free ones but for those that waiting FORKs get (R258); none of a core whose clock
was absent at start-up (R16). -/
def Dev.openThreads (d : Dev) (n : Nat) : Nat :=
  if d.joinery.off.contains n || d.o 0x7010 1 (640 + n) == 4 then 0 else (d.freeThreads n).length - (d.forksOf n).length

/-- The core of Sill `s` with the most free threads, the lowest-numbered on a tie; none when no core has one. -/
def Dev.pickCore (d : Dev) (s : Nat) : Option Nat :=
  ((List.range 16).map (· + s * 16)).foldl (fun (a : Option Nat) n =>
    let m := match a with | some x => d.openThreads x | none => 0
    if m < d.openThreads n then some n else a) none

/-- The address at which a breakpoint of the core stops a thread (R277). -/
def Dev.breakAt (d : Dev) (n pc : Nat) : Bool := (List.range 4).any fun k =>
  let b := d.o 0x8401 1 (n * 4 + k)
  bitOf b 31 && b % 2 ^ 15 == pc

/-- A thread that has reached a breakpoint halts. -/
def Dev.atBreak (d : Dev) (i : Nat) : Dev :=
  let x := d.thr i
  if x.busy && x.st != 7 && d.breakAt (i / 16) x.pc then d.setThr i { x with was := x.st, st := 7 } else d

/-- A task starts on a thread: at its kind's entry with its six words, or from its resume token (R263, R271). -/
def startTask (s : Nat) (t : Task) (i : Nat) : M Unit := do
  let d ← get
  let now ← runNow
  let n := i / 16
  let x := d.thr i
  let regs := match t.token with
    | some k => (List.range 8).foldl (fun m r => nset m (24 + r) (k.regs.getD r 0)) ([] : PMap Nat)
    | none => (List.range 6).foldl (fun m r => nset m r (t.args.getD r 0)) x.regs
  let pc := match t.token with | some k => k.pc | none => d.o 0x3841 1 (s * 256 + t.kind)
  let d := d.setTask s { t with st := 1, core := n, token := none, asked := false }
  let d := match d.dep s t.waitCtr with | some 0 => d.setDep s t.waitCtr 0 | _ => d
  set ((d.setThr i { st := 1, task := t.seq, root := true, pc, regs, scratch := x.scratch }).atBreak i)
  incO 0x3852 1 n
  peakO 0x3852 6 n (min (2 ^ 32 - 1) ((now - t.arr) / uNs))

/-- A Sill's dispatcher has started: its core has been in service, its patch applied, or has failed (R426). -/
def Dev.dispatching (d : Dev) (s : Nat) : Bool := nget d.sec.started s == 1 || d.o 0x1460 1 s == 5

/-- TASK_DISPATCH (R263). -/
def taskDispatch (s : Nat) : M Unit := do
  let d ← get
  if (oget d.joinery.apply s).isNone ∧ d.dispatching s then
    match firstTask ((d.tasks s).filter (d.ready s)), d.pickCore s with
    | some t, some n =>
      match d.freeThreads n with
      | i :: _ => startTask s t i
      | [] => return ()
    | _, _ => return ()

/-! ### Patches (R254, R255, R422) -/

/-- WORDS of a payload, its words, match registers and entries. -/
def patchCount (p : Bytes) : Nat := beAt p 0 2
def patchWord (p : Bytes) (i : Nat) : Nat := beAt p (4 + 18 * i) 18
def patchMatch (p : Bytes) (m : Nat) : Nat := beAt p (4 + 18 * patchCount p + 4 * m) 4
def patchEntry (p : Bytes) (k : Nat) : Nat :=
  if p = [] then 0x7FFF else beAt p (260 + 18 * patchCount p + 2 * (k - 64)) 2

/-- The fields of a microword (R246). -/
def wNext (w : Nat) : Nat := fld w 129 15
def wBrc (w : Nat) : Nat := fld w 123 6
def wAlu0 (w : Nat) : Nat := fld w 103 20
def wAlu1 (w : Nat) : Nat := fld w 83 20
def wShf (w : Nat) : Nat := fld w 69 14
def wMem (w : Nat) : Nat := fld w 51 18
def wHsh (w : Nat) : Nat := fld w 43 8
def wClp (w : Nat) : Nat := fld w 33 10
def wChn (w : Nat) : Nat := fld w 23 10
def wTsk (w : Nat) : Nat := fld w 13 10
def wImm (w : Nat) : Nat := fld w 2 11
def wCkp (w : Nat) : Nat := fld w 0 2

/-- A word carries a refused code (R246 to R251). -/
def wRefused (w : Nat) : Bool :=
  wCkp w == 3 || wBrc w % 16 == 15 || decide (0x12 ≤ wAlu0 w / 2 ^ 15) || decide (0x12 ≤ wAlu1 w / 2 ^ 15) ||
    decide (6 ≤ wHsh w / 32) || wMem w / 2 ^ 15 == 7 || decide (6 ≤ wChn w / 128)

/-- A word that can wait (R252). -/
def wCanWait (w : Nat) : Bool :=
  wClp w / 256 == 1 || [1, 2, 3].contains (wChn w / 128) || [1, 2, 3, 4].contains (wTsk w / 128) || wMem w / 2 ^ 15 == 6

/-- The check of a patch payload: the cause of R254, in order, and the word address. -/
def patchCheck (p : Bytes) : Option (Nat × Nat) :=
  let n := patchCount p
  let word := fun (f : Nat → Bool) => (List.range n).find? (fun i => f (patchWord p i))
  match word wRefused with
  | some i => some (1, 16384 + i)
  | none => match word (fun w => decide (17407 < wNext w)) with
    | some i => some (2, 16384 + i)
    | none => match word (fun w => wCanWait w && wCkp w != 1) with
      | some i => some (3, 16384 + i)
      | none =>
        let on := (List.range 64).filter (fun m => bitOf (patchMatch p m) 31)
        let rom := on.map (fun m => fld (patchMatch p m) 16 14)
        match (List.range rom.length).find? (fun j => (rom.take j).contains (rom.getD j 0)) with
        | some j => some (4, rom.getD j 0)
        | none =>
          match (List.range 192).find? (fun k =>
              let e := patchEntry p (64 + k)
              e != 0x7FFF && !(decide (16384 ≤ e) && decide (e ≤ 17407))) with
          | some k => some (5, patchEntry p (64 + k))
          | none => none

/-- Step 4 of R255: the Sill's patch RAM, match registers and entry table hold the patch, and 3840h reports it. -/
def Dev.loadPatch (d : Dev) (s : Nat) (p : Patch) : Dev :=
  let b := p.payload
  let n := if b = [] then 0 else patchCount b
  let ram := (List.range n).foldl (fun m i => nset m (s * 1024 + i) (patchWord b i)) (mfilter (fun k => k / 1024 != s) d.joinery.patch)
  let d : Dev := { d with joinery.patch := ram }
  let d := (List.range 64).foldl (fun (d : Dev) m => d.setO 0x3840 5 (s * 64 + m) (if b = [] then 0 else patchMatch b m)) d
  let d := (List.range 192).foldl (fun (d : Dev) k => d.setO 0x3841 1 (s * 256 + 64 + k) (patchEntry b (64 + k))) d
  let digest := if b = [] then 0 else ofBytes (shake256 (b.drop 4) 32)
  (((d.setO 0x3840 2 s p.version).setO 0x3840 3 s digest).setO 0x3840 4 s (if b = [] then 0 else 1)).setO 0x3840 6 s n

/-- Every thread of the Sill that holds a task has parked: the patch is written and the threads resume (R255). -/
def patchMaybe (s : Nat) : M Unit := do
  let d ← get
  match oget d.joinery.apply s with
  | none => return ()
  | some p =>
    let l := d.joinery.threads.filter (fun e => thrSill e.1 == s && e.2.busy)
    if l.all (fun e => e.2.parked) then
      let d := d.loadPatch s p
      let d := l.foldl (fun (d : Dev) e => d.setThr e.1 { e.2 with parked := false }) d
      set { d with joinery.apply := oset d.joinery.apply s none }
      raiseEv (637 + s) 0x3847 1 s p.version p.aborted

/-! ### Interrupts (R270 to R272) -/

/-- A thread may be preempted here: no clamp, no child, no partial message (R270). -/
def Dev.preemptible (d : Dev) (i : Nat) : Bool :=
  d.clampsOf i == [] && (d.thr i).children == 0 && d.partials i == [] && (d.taskThreads (thrSill i) (d.thr i).task).length == 1

/-- The take of a preempt (R271): the token is kept, and the thread goes to the waiting task. -/
def preemptTake (i resume : Nat) : M Unit := do
  let d ← get
  let s := thrSill i
  let x := d.thr i
  match d.taskOf s x.task with
  | none => return ()
  | some t =>
    let k : Token := { pc := resume, regs := (List.range 8).map (fun r => nget x.regs (24 + r)), place := d.joinery.preempted }
    threadEnd i false
    modify fun d => { d.setTask s { t with st := 0, token := some k } with joinery.preempted := d.joinery.preempted + 1 }
    incO 0x3852 5 (i / 16)
    let d ← get
    match firstTask ((d.tasks s).filter (fun y => y.asked && d.ready s y)) with
    | some y => startTask s y i
    | none => return ()

/-- A pending interrupt is taken at a checkpoint whose resume address is `resume` (R270). -/
def takeInt (i resume : Nat) : M Unit := do
  let d ← get
  let now ← runNow
  let s := thrSill i
  let x := d.thr i
  let longest : M Unit := peakO 0x3852 7 (i / 16) (min (2 ^ 32 - 1) ((now - x.posted) / uNs))
  if x.abort then
    longest
    abortTask s x.task true
    patchMaybe s
  else if x.quiesce then
    longest
    if 16384 ≤ resume then
      match oget d.joinery.apply s with
      | some p => modify fun d => { d with joinery.apply := oset d.joinery.apply s (some { p with aborted := p.aborted + 1 }) }
      | none => pure ()
      abortTask s x.task false
    else set (d.setThr i { x with quiesce := false, parked := true, pc := resume })
    patchMaybe s
  else if x.preempt ∧ d.preemptible i ∧ (oget d.joinery.apply s).isNone then preemptTake i resume

/-- Post an interrupt: 0 abort, 1 quiesce, 2 preempt. A waiting word is a checkpoint, where it is taken at once. -/
def postInt (i kind : Nat) : M Unit := do
  let d ← get
  let now ← runNow
  let x := d.thr i
  if x.busy then
    let x := match kind with
      | 0 => { x with posted := if x.abort then x.posted else now, abort := true, quiesce := false, preempt := false }
      | 1 => { x with posted := if x.abort ∨ x.quiesce then x.posted else now, quiesce := !x.abort }
      | _ => { x with preempt := !x.abort }
    set (d.setThr i x)
    if x.waits then takeInt i x.pc

/-- Apply a patch to a Sill (R255). -/
def patchStart (s : Nat) (p : Patch) : M Unit := do
  modify fun d => { d.setO 0x3840 4 s 2 with joinery.apply := oset d.joinery.apply s (some p) }
  for e in (← get).joinery.threads do
    if thrSill e.1 = s ∧ ((← get).thr e.1).busy then postInt e.1 1
  patchMaybe s

/-- The trial begins: 1420h.09 counts down from 1420h.07 (R431). -/
def updTrial : M Unit := do
  let d ← get
  let now ← runNow
  set { d.setO 0x1420 6 0 6 with sec.trialEnd := now + d.o 0x1420 7 * uS }

/-- An activated patch goes on to SD1 once SD0 holds it; once both do, its trial begins (R430). -/
def patchDrive : M Unit := do
  let d ← get
  if (oget d.joinery.apply 0).isNone then
    match d.joinery.patchNext with
    | some p =>
      set { d with joinery.patchNext := none }
      patchStart 1 p
    | none => pure ()
  let d ← get
  if d.sec.patching ∧ (oget d.joinery.apply 0).isNone ∧ (oget d.joinery.apply 1).isNone ∧ d.joinery.patchNext.isNone then
    set { d with sec.patching := false }
    updTrial

/-- The running task that gives way to task `t`: at least two levels below it, of one thread that holds no clamp and no partial
message, is not halted and has no preempt posted; the lowest level first, then the youngest (R271). -/
def Dev.preemptVictim (d : Dev) (s : Nat) (t : Task) : Option Task :=
  let level := fun (x : Task) => x.ctrl / 32
  let l := (d.tasks s).filter fun x => x.st == 1 && decide (level x + 2 ≤ level t) &&
    (match d.taskThreads s x.seq with
      | [i] => d.clampsOf i == [] && d.partials i == [] && !(d.thr i).preempt && (d.thr i).st != 7
      | _ => false)
  l.foldl (fun (a : Option Task) x => match a with
    | some y => if level x < level y ∨ (level x = level y ∧ y.seq < x.seq) then some x else a
    | none => some x) none

/-- PREEMPT_POST (R271); a patch that is being applied stops it, as it stops dispatch (R255). -/
def preemptPost (s : Nat) : M Unit := do
  let d ← get
  if d.o 0x3843 1 ≠ 0 ∧ (d.pickCore s).isNone ∧ (oget d.joinery.apply s).isNone then
    match firstTask ((d.tasks s).filter (fun t => d.ready s t && !t.asked)) with
    | none => return ()
    | some t =>
      match d.preemptVictim s t with
      | none => return ()
      | some v =>
        set (d.setTask s { t with asked := true })
        match d.taskThreads s v.seq with
        | [i] => postInt i 2
        | _ => return ()

/-! ### Microwords (R245 to R253) -/

/-- The word a thread fetches (R253): patch RAM, or ROM unless an enabled match register names the address; with whether the word
comes from patch RAM. -/
def Dev.fetchWord (d : Dev) (s pc : Nat) : Nat × Bool :=
  let ram := fun (o : Nat) => (nget d.joinery.patch (s * 1024 + o), true)
  if 16384 ≤ pc then ram (pc - 16384)
  else
    match (List.range 64).find? (fun m =>
        let r := d.o 0x3840 5 (s * 64 + m)
        bitOf r 31 && fld r 16 14 == pc) with
    | some m => ram (d.o 0x3840 5 (s * 64 + m) % 1024)
    | none => (Config.rom pc % 2 ^ 144, false)

/-- An ALU operation on the two sources and IMM (R248): the result, the carry (none: the spec gives none), whether D is written. CMP,
which is unsigned, gives a result for its flags alone: zero when the sources are equal, negative when A is below B. -/
def alu (op a b imm : Nat) : Option (Nat × Option Bool × Bool) :=
  let m := 2 ^ 64
  let si := ofS 64 (toS 11 imm)
  let add := fun (x y : Nat) => some ((x + y) % m, some (decide (m ≤ x + y)), true)
  let sub := fun (x y : Nat) (w : Bool) => some ((x + m - y) % m, none, w)
  let res := fun (x : Nat) => some (x, none, true)
  match op with
  | 1 => add a b
  | 2 => sub a b true
  | 3 => res (a &&& b)
  | 4 => res (a ||| b)
  | 5 => res (a ^^^ b)
  | 6 => add a si
  | 7 => sub a si true
  | 8 => res (a &&& si)
  | 9 => res (a ||| si)
  | 0xA => res a
  | 0xB => some (if a = b then 0 else if a < b then 2 ^ 63 else 1, none, false)
  | 0xC => res (min a b)
  | 0xD => res (max a b)
  | 0xE => some (min (m - 1) (a + b), some (decide (m ≤ a + b)), true)
  | 0xF => res (clz 64 a)
  | 0x10 => res (popcount 64 a)
  | 0x11 => res imm
  | _ => none

/-- A shifter operation on D, AMT, IMM and r31 (R249). -/
def shifter (op d amt imm r31 : Nat) : Nat :=
  let w := imm % 64
  match op with
  | 1 => (d <<< amt) % 2 ^ 64
  | 2 => d >>> amt
  | 3 => ofS 64 (toS 64 d / 2 ^ amt)
  | 4 => rotl 64 d amt
  | 5 => (d >>> amt) % 2 ^ w
  | 6 => (putFld d amt w r31) % 2 ^ 64
  | 7 => ofBytes (toBytes 8 d).reverse
  | _ => d

/-- The octets a hash operation feeds (R249). -/
def hashFeed (op v : Nat) : Bytes :=
  match op with
  | 1 => toBytes 8 v
  | 2 => toBytes 4 v
  | 3 => toBytes 1 v
  | _ => []

/-- The fields of a cached entry, in the order of `CacheEnt`, with whether there is one. -/
def entFields : Option CacheEnt → List Int
  | none => []
  | some e => [(e.addr : Int), e.wide.toNat, e.data, e.pk, e.oct, e.err] ++ (List.range 8).map (fun j => (e.hist.getD j 0 : Int)) ++
      [(e.dirty.toNat : Int), e.last, e.credit, e.pins]

/-- The entry at place `i` after a store of `v` to its word `j` (log entry 18). -/
def cacheStored (i j v : Nat) (e : Option CacheEnt) : Option CacheEnt :=
  let g := Config.cacheStore (entFields e) j v
  if bitOf (g 18) 0 then
    some { addr := tblAddr (i / 2 ^ 21) (g 0 % 67108864), wide := bitOf (g 1) 0 && i % 2 == 0, data := g 2 % 2 ^ 960
           pk := g 3 % 2 ^ 24, oct := g 4 % 2 ^ 32, err := g 5 % 256, hist := (List.range 8).map (fun k => g (6 + k) % 256)
           dirty := bitOf (g 14) 0, last := g 15, credit := toS 64 (g 16 % 2 ^ 64), pins := g 17 }
  else none

/-- A memory word (R250). A word of the flow cache reads as microcode stored it, else as a free value that stays while the entry does;
the command port holds no words (log entry 18). -/
def memRead (i space a : Nat) : M Nat := do
  let d ← get
  match space with
  | 0 => return nget (d.thr i).scratch (a % 64)
  | 1 => return nget d.joinery.mem (thrSill i * 2 ^ 20 + a % 2 ^ 20)
  | 2 =>
    let w := thrSill i * 2 ^ 24 + a % 2 ^ 24
    match oget d.flow.words w with
    | some v => return v
    | none =>
      let v := (← fresh) % 2 ^ 64
      modify fun d => { d with flow.words := oset d.flow.words w (some v) }
      return v
  | _ => return (← fresh) % 2 ^ 64

/-- Write a memory word. -/
def memWrite (i space a v : Nat) : M Unit := modify fun d =>
  match space with
  | 0 => d.setThr i { d.thr i with scratch := nset (d.thr i).scratch (a % 64) v }
  | 1 => { d with joinery.mem := nset d.joinery.mem (thrSill i * 2 ^ 20 + a % 2 ^ 20) v }
  | 2 =>
    let w := thrSill i * 2 ^ 24 + a % 2 ^ 24
    { d.setCache (w / 8) (cacheStored (w / 8) (w % 8) v (d.cacheAt (w / 8))) with flow.words := oset d.flow.words w (some v) }
  | _ => d

/-- A task descriptor at a scratch address (R262), its octets most significant first. -/
def Dev.descAt (d : Dev) (i a : Nat) : Bytes :=
  (List.range 8).flatMap fun k => toBytes 8 (nget (d.thr i).scratch ((a + k) % 64))

/-- A descriptor broken as R262 or R264 state; `patch`: the word that spawns it is a patch word. -/
def descBroken (b : Bytes) (patch : Bool) : Bool :=
  let ctrl := byteAt b 1
  beAt b 8 8 != 0 || decide (4096 ≤ beAt b 2 2) || ctrl % 4 != 0 ||
    (patch && bitOf ctrl 2 && decide (4092 ≤ beAt b 2 2))

/-- SPAWN submits a task (R262, R264). -/
def spawnTask (n s : Nat) (b : Bytes) : M Unit := do
  let d ← get
  let now ← runNow
  let kind := byteAt b 0
  let (ctrl, domain) := if 1 ≤ kind ∧ kind ≤ 7 then romTask kind else (byteAt b 1, beAt b 2 2)
  if d.o 0x3841 1 (s * 256 + kind) = 0x7FFF then
    incO 0x3852 9 n
    raiseLim (637 + s) 0x384A 1 s s kind 0 3
    modify (·.depDec s (beAt b 6 2))
  else
    let t : Task := { seq := d.joinery.nextSeq, arr := now, kind, ctrl, domain, waitCtr := beAt b 4 2, doneCtr := beAt b 6 2
                      args := (List.range 6).map (fun k => beAt b (16 + 8 * k) 8) }
    set { d.setTasks s (d.tasks s ++ [t]) with joinery.nextSeq := d.joinery.nextSeq + 1 }

/-- The lowest free dependence counter. -/
def Dev.freeDep (d : Dev) (s : Nat) : Option Nat :=
  let used := d.joinery.deps.filterMap fun e => if e.1 / 16384 = s ∧ e.2.isSome then some (e.1 % 16384) else none
  (List.range (min 16384 (used.length + 1))).find? (fun c => !used.contains c)

/-- The state in which a word's task operation has to wait now (R252, R258). -/
def Dev.waitTsk (d : Dev) (i w : Nat) : Option Nat :=
  match wTsk w / 128 with
  | 1 =>
    let q := d.forksOf (i / 16)
    if d.freeThreads (i / 16) ≠ [] ∧ (q = [] ∨ q.head? = some i) then none else some 4
  | 2 | 3 => if (d.thr i).children = 0 then none else some 4
  | 4 =>
    let q := d.spawnsOf (thrSill i)
    if (d.tasks (thrSill i)).length < 65536 ∧ (q = [] ∨ q.head? = some i) then none else some 6
  | _ => none

/-- The state in which a word that waits for the thread's fetch-unit commands has to wait now (R250, R252). -/
def Dev.waitMem (d : Dev) (i w : Nat) : Option Nat :=
  if wMem w / 2 ^ 15 = 6 ∧ d.cmdsOfThread i ≠ 0 then some 2 else d.waitTsk i w

/-- Why a word of a thread has to wait now, as a thread state (R252); none: it can take effect. -/
def Dev.mustWait (d : Dev) (i w : Nat) : Option Nat :=
  let s := thrSill i
  let x := d.thr i
  let rg := fun r => nget x.regs r
  let clamp := s * 4096 + rg (wClp w / 8 % 32) % 4096
  let chan := s * 256 + wImm w % 256
  if wClp w / 256 = 1 ∧ d.clampBusy clamp i then some 3
  else match wChn w / 128 with
    | 1 | 2 => if d.canSend chan i then d.waitMem i w else some 5
    | 3 => if (d.chan chan).msgs = [] then some 5 else d.waitMem i w
    | _ => d.waitMem i w

/-- A task's thread exits (R258, R266): the root's exit completes the task. -/
def taskExit (i status : Nat) (res : Option (Nat × Nat × Nat)) : M Unit := do
  let d ← get
  let s := thrSill i
  let x := d.thr i
  threadEnd i true
  if x.root then
    match d.taskOf s x.task with
    | none => return ()
    | some t =>
      incO 0x3852 2 (i / 16)
      finishTask s { t with status, res }
  patchMaybe s

/-- A word takes effect (R245 to R251). `noPlace`: its SPAWN fails (R267); `err` 2: its memory word has an uncorrectable error. -/
def execWord (i w : Nat) (patch noPlace : Bool) (err : Nat) : M Unit := do
  let d ← get
  let now ← runNow
  let n := i / 16
  let s := thrSill i
  let x := d.thr i
  let pc := x.pc
  let rg := fun r => nget x.regs r
  let imm := wImm w
  let retry := ((d.taskOf s x.task).map Task.retry).getD 0
  -- arithmetic
  let a0 := wAlu0 w
  let a1 := wAlu1 w
  let r0 := alu (a0 / 2 ^ 15) (rg (a0 / 32 % 32)) (rg (a0 % 32)) imm
  let r1 := alu (a1 / 2 ^ 15) (rg (a1 / 32 % 32)) (rg (a1 % 32)) imm
  let sh := wShf w
  -- memory
  let m := wMem w
  let mop := m / 2 ^ 15
  let space := m / 2 ^ 13 % 4
  let md := m / 2 ^ 8 % 32
  let maddr := rg (m / 8 % 32) + m % 8
  let reads : Bool := mop == 1 || mop == 3 || mop == 4
  let got ← if reads then memRead i space maddr else pure 0
  let unc : Bool := err == 2 && reads
  let word := if unc then 0 else got
  -- clamp and channel
  let cop := wClp w / 256
  let clamp := s * 4096 + rg (wClp w / 8 % 32) % 4096
  let own : Bool := match d.clamp clamp with | some c => c.owner == i | none => false
  let refused : Bool := cop == 2 && d.clampBusy clamp i
  let kop := wChn w / 128
  let kr := wChn w / 4 % 32
  let cn := s * 256 + imm % 256
  let ch := d.chan cn
  let head := ch.msgs.headD []
  let last : Bool := kop == 3 && ch.taken + 1 == head.length
  let mine : List Nat := match ch.part with | some (o, ws) => if o = i then ws else [] | none => []
  let top := wTsk w / 128
  let tr := wTsk w / 4 % 32
  -- the condition
  let openBit : M Bool := do
    let v ← fresh
    return bitOf v 0
  let res : Option (Nat × Option Bool × Bool) → (Nat → Bool) → M Bool := fun r f => match r with
    | some (v, _, _) => pure (f v)
    | none => openBit
  let holds : Bool ← match wBrc w % 16 with
    | 0 => pure true
    | 1 => res r0 (· == 0)
    | 2 => res r0 (bitOf · 63)
    | 3 => match r0 with
      | some (_, some c, _) => pure c
      | _ => openBit
    | 4 => res r1 (· == 0)
    | 5 => res r1 (bitOf · 63)
    | 6 => pure (mop == 4 && word == rg md)
    | 7 => pure unc
    | 8 => pure refused
    | 9 => pure (kop == 4 && ch.msgs == [])
    | 10 => pure last
    | 11 => pure x.failed
    | 12 => pure (retry != 0)
    | 13 => pure (x.abort || x.quiesce || x.preempt)
    | 14 => pure (x.children == 0)
    | _ => pure false
  let seq := wBrc w / 16
  let cause : Option Nat :=
    if holds ∧ ((seq = 2 ∧ x.stack.length = 8) ∨ (seq = 3 ∧ x.stack = [])) then some 3
    else if (kop = 1 ∨ kop = 2) ∧ mine.length = 8 then some 5
    else if cop = 3 ∧ !own then some 7
    else if (cop = 1 ∨ cop = 2) ∧ own ∧ !x.granted ∧ ((d.clamp clamp).map Clamp.holds).getD 0 = 255 then some 7
    else if top = 4 ∧ !noPlace ∧ descBroken (d.descAt i (rg tr)) patch then some 2
    else none
  match cause with
  | some c => threadFault i c pc
  | none =>
    -- registers: HSH, CHN and TSK results, then MEM, ALU0, ALU1, SHF, each over the ones before
    let hsh := wHsh w
    let hop := hsh / 32
    let spare := d.freeDep s
    let extra : List (Nat × Nat) :=
      (if hop = 4 then [(hsh % 32, ((x.h1 ^^^ 0xFFFFFFFF) <<< 32) + (x.h0 ^^^ 0xFFFFFFFF))] else []) ++
        (if kop = 3 then [(kr, head.getD ch.taken 0)] else []) ++
        (if top = 7 then [(tr, spare.getD 0xFFFF)] else [])
    let mut regs := x.regs
    for e in extra do
      if 1 < (extra.filter (fun y => y.1 == e.1)).length then
        let v ← fresh
        regs := nset regs e.1 (v % 2 ^ 64)
      else regs := nset regs e.1 e.2
    if mop = 1 then regs := nset regs md word
    match r0 with
    | some (v, _, true) => regs := nset regs (a0 / 2 ^ 10 % 32) v
    | _ => pure ()
    match r1 with
    | some (v, _, true) => regs := nset regs (a1 / 2 ^ 10 % 32) v
    | _ => pure ()
    if sh / 2 ^ 11 ≠ 0 then
      let dr := sh / 64 % 32
      regs := nset regs dr (shifter (sh / 2 ^ 11) (rg dr) (sh % 64) imm (rg 31))
    -- sequencing
    let next := match seq with
      | 0 => pc + 1
      | 3 => if holds then x.stack.headD 0 else pc + 1
      | _ => if holds then wNext w else pc + 1
    let stack := if holds ∧ seq = 2 then (pc + 1) :: x.stack else if holds ∧ seq = 3 then x.stack.tail else x.stack
    let feed := hashFeed hop (rg (hsh % 32))
    let h := fun (poly acc : Nat) => if hop = 5 then 0xFFFFFFFF else crcRefl poly acc feed
    let failed := if top = 4 then noPlace else if top = 7 then spare.isNone else x.failed
    let ckp := wCkp w
    let y : Thread := { x with
      st := 1, pc := next, regs, stack, failed
      h0 := h 0x82F63B78 x.h0
      h1 := h 0xEDB88320 x.h1
      since := if ckp = 1 ∨ ckp = 2 then 0 else x.since
      clamp := none, granted := false }
    modify (·.setThr i y)
    -- memory
    if mop = 2 then memWrite i space maddr (rg md)
    if mop = 3 then memWrite i space maddr (if unc then 0 else (word + rg md) % 2 ^ 64)
    if mop = 5 then
      let cmd : FetchCmd := { thread := i, words := (List.range 64).map (nget x.scratch), addr := maddr }
      modify fun d => { d with joinery.cmds := mset (dK []) d.joinery.cmds s (d.cmdsOf s ++ [cmd]) }
    -- clamp
    if (cop = 1 ∧ !x.granted) ∨ (cop = 2 ∧ !refused) then modify (·.clampTake clamp i)
    if cop = 3 then modify (·.clampRelease clamp)
    -- channel
    let v := rg kr
    match kop with
    | 1 => modify (·.setChan cn { ch with part := some (i, mine ++ [v]) })
    | 2 => modify (·.setChan cn { ch with part := none, msgs := ch.msgs ++ [mine ++ [v]] })
    | 3 => modify (·.setChan cn (if last then { ch with msgs := ch.msgs.tail, taken := 0 } else { ch with taken := ch.taken + 1 }))
    | 5 => if ch.part.map Prod.fst = some i then modify (·.dropPartial cn)
    | _ => pure ()
    -- threads and tasks
    match top with
    | 1 =>
      match d.freeThreads n with
      | [] => pure ()
      | c :: _ =>
        let kid : Thread := { st := 1, task := x.task, parent := i, pc := rg tr, regs := x.regs.filter (fun e => e.1 < 16)
                              scratch := (d.thr c).scratch, quiesce := (oget d.joinery.apply s).isSome, posted := now }
        modify fun d => ((d.setThr c kid).atBreak c).setThr i { d.thr i with children := (d.thr i).children + 1 }
    | 4 => if !noPlace then spawnTask n s (d.descAt i (rg tr))
    | 5 => modify (·.depDec s (rg tr))
    | 6 =>
      match d.dep s (rg tr) with
      | some old => if old ≠ 0 ∨ rg 31 % 65536 ≠ 0 then modify (·.setDep s (rg tr) (rg 31 % 65536))
      | none => pure ()
    | 7 =>
      match spare with
      | some c => modify fun d => { d with joinery.deps := oset d.joinery.deps (s * 16384 + c) (some 0) }
      | none => pure ()
    | _ => pure ()
    if top = 2 then taskExit i (rg 1 % 256) none
    else
      if ckp = 1 then takeInt i pc
      else if ckp = 2 then takeInt i next
      modify fun d => if (d.thr i).task = x.task then d.atBreak i else d

/-- A thread's word begins to wait in state `st`, in the queue of what it waits for (R252, R258, R259, R261). -/
def enterWait (i w st : Nat) : M Unit := do
  let d ← get
  let now ← runNow
  let s := thrSill i
  let x := d.thr i
  if x.st ≠ st then
    let c := s * 4096 + nget x.regs (wClp w / 8 % 32) % 4096
    let cn := s * 256 + wImm w % 256
    let d := d.setThr i { x with st, since0 := now, clamp := if st = 3 then some c else none }
    let d := match st with
      | 3 => d.clampQueue c i
      | 4 => if wTsk w / 128 = 1 then
          { d with joinery.forks := mset (dK []) d.joinery.forks (i / 16) (d.forksOf (i / 16) ++ [i]) } else d
      | 5 => if wChn w / 128 = 3 then d else d.setChan cn { d.chan cn with senders := (d.chan cn).senders ++ [i] }
      | 6 => { d with joinery.spawns := mset (dK []) d.joinery.spawns s (d.spawnsOf s ++ [i]) }
      | _ => d
    set d
    if st = 3 then incO 0x3844 3 s
    takeInt i x.pc

/-- The clamps a ROM routine takes, in the order it takes them: its key's, and those of the records that the full policy replaces for
it and for its twin (R229, R230, R238). -/
def Dev.romClamps (d : Dev) (s : Nat) (k : Clock) (t : Task) : List Nat :=
  let clamp := fun key => s * 4096 + keyHash key % 4096
  let now := if d.oB 0x1800 3 then k.net else k.dev
  match t.work with
  | .insert key kdir prof desc dir tcp =>
    clamp key :: (if (d.findSlot s key kdir).isSome then [] else
      ((d.replacedKey key kdir prof now).map clamp).toList ++
        ((d.replacedForTwin k key kdir prof desc dir tcp t.port).map clamp).toList.filter (· != clamp key))
  | .table _ op _ _ e => if op = 4 then [] else [clamp (flowEntryKey e).1]
  | .delete key _ => [clamp key]
  | _ => []

/-- The insertion routine of a task (R229). A pool whose map the other Sill keeps is asked over the link first (R227). -/
def romInsert (s : Nat) (t : Task) (key kdir prof desc dir tcp : Nat) : M InsEnd := do
  match t.placing with
  | some (c, o) => insertPlace key kdir c o
  | none =>
    let d ← get
    match t.port, d.poolAway s desc with
    | .sent, _ => return .wait
    | .no, some n =>
      if (d.findSlot s key kdir).isSome ∨ d.sillFailed s then insertTask key kdir prof desc dir tcp .no
      else
        set (d.setTask s { t with port := .sent })
        linkSend s (.port n none t.seq)
        return .wait
    | got, _ => insertTask key kdir prof desc dir tcp got

/-- The work of a ROM task (R229, R238, R239, R394, R227): none while it has to wait, else the result of a table operation. -/
def romWork (s : Nat) (t : Task) : M (Option (Option (Nat × Nat × Nat))) := do
  let d ← get
  match t.work with
  | .insert key kdir prof desc dir tcp =>
    match ← romInsert s t key kdir prof desc dir tcp with
    | .wait => return none
    | .done =>
      match (← get).taskOf s t.seq with
      | some u => modify (·.setTask s { u with port := .no })
      | none => pure ()
      return some none
    | .placing c o =>
      modify (·.setTask s { t with port := .no, placing := some (c, o) })
      return none
  | .table _ op _ addr e =>
    let (key, kdir) := flowEntryKey e
    if (op = 2 ∧ d.insertHeld key kdir) ∨ (op = 5 ∧ d.updateHeld addr e) then return none
    else return some (some (← flowTable op addr e))
  | .aging seg =>
    match ← ageSegment s seg t.walk with
    | none => return some none
    | some a =>
      modify fun d => match d.taskOf s t.seq with | some u => d.setTask s { u with walk := a } | none => d
      return none
  | .delete key kdir =>
    deleteAged s key kdir
    return some none
  | .handOff wide data =>
    poolDrain (s * 8 + 5)
    if ← poolTakeOrStall (s * 8 + 5) 1 then
      poolKeep (s * 8 + 5) 1
      exportRecord s wide data
      return some none
    else return none
  | .port n (some p) _ =>
    portFree n p
    return some none
  | .port n none seq =>
    if d.flow.scanning.contains n then return none
    else
      let r ← portTake n
      match (← get).taskOf (1 - s) seq with
      | some u => modify (·.setTask (1 - s) { u with port := .got r })
      | none => match r with
        | some p => portFree n p
        | none => pure ()
      return some none
  | .none => return some none

/-- An aging routine SPAWNs only in its turn among the threads that wait for a place (R267). -/
def Dev.spawnTurn (d : Dev) (i : Nat) (w : Work) : Bool :=
  let q := d.spawnsOf (thrSill i)
  match w with | .aging _ => q == [] || q.head? == some i | _ => true

/-- A ROM routine waits: an aging one in its SPAWN, any other for what it has issued (R252, R267). -/
def romWait (i : Nat) (w : Work) (walk : Nat) : M Unit := do
  let d ← get
  let now ← runNow
  let s := thrSill i
  let x := d.thr i
  match w with
  | .aging _ =>
    let moved : Bool := match d.taskOf s x.task with | some t => t.walk != walk | none => false
    let q := d.spawnsOf s
    set { d.setThr i { x with st := 6, since0 := if x.st = 6 ∧ !moved then x.since0 else now, clamp := none, granted := false } with
      joinery.spawns := if q.contains i then d.joinery.spawns else mset (dK []) d.joinery.spawns s (q ++ [i]) }
  | _ => set (d.setThr i { x with st := 2, clamp := none, granted := false })

/-- The ROM routine of a task runs whole, or waits (log entry 19). -/
def romRun (i : Nat) (t : Task) : M Unit := do
  let d ← get
  let s := thrSill i
  let x := d.thr i
  let now ← runNow
  let l := d.romClamps s (← read) t
  let free := l.takeWhile (fun c => !d.clampBusy c i)
  for c in free do modify fun d => if (d.clampsOf i).contains c then d else d.clampTake c i
  match l.drop free.length with
  | c :: _ =>
    if x.st ≠ 3 ∨ x.clamp ≠ some c then
      modify fun d => (d.setThr i { x with st := 3, since0 := now, clamp := some c }).clampQueue c i
      incO 0x3844 3 s
  | [] =>
    match ← (if d.spawnTurn i t.work then romWork s t else pure none) with
    | none => romWait i t.work t.walk
    | some res =>
      let k ← fresh
      addO 0x3851 1 (i / 16 * 4 + t.ctrl / 8 % 4) k
      for c in (← get).clampsOf i do modify (·.clampFree c)
      taskExit i 0 res

/-- A thread's word issues, or its wait is looked at again. `err`: 1 an uncorrectable error in a register, in scratch or in a patch
word; 2 one in the memory word it reads. -/
def wordStep (i : Nat) (issue : Bool) (err : Nat) : M Unit := do
  let s := thrSill i
  cmdDrain s
  if !issue ∧ ((← get).thr i).st = 2 then cmdDone s ((← get).cmdsOfThread i)
  let d ← get
  let x := d.thr i
  match d.taskOf s x.task with
  | none => return ()
  | some t =>
    if 17408 ≤ x.pc then threadFault i 1 x.pc
    else
      let (w, patch) := d.fetchWord s x.pc
      if !patch ∧ x.root ∧ x.pc = d.o 0x3841 1 (s * 256 + t.kind) ∧ t.work ≠ .none then
        if err = 1 then threadFault i 6 x.pc
        else if x.abort ∨ x.quiesce ∨ (x.preempt ∧ d.preemptible i) then takeInt i x.pc
        else romRun i t
      else
        if issue then
          addO 0x3851 1 (i / 16 * 4 + t.ctrl / 8 % 4) 1
          modify fun d => d.setThr i { x with since := x.since + 1 }
        if issue ∧ 256 ≤ x.since then threadFault i 4 x.pc
        else if err = 1 then threadFault i 6 x.pc
        else if wRefused w then threadFault i 2 x.pc
        else match d.mustWait i w with
          | some st => enterWait i w st
          | none =>
            modify (·.unqueue i)
            execWord i w patch false err
    patchMaybe s
    patchDrive

/-- A thread stands in the ROM routine of this task. -/
def Dev.romTask (d : Dev) (i : Nat) : Option Task :=
  let s := thrSill i
  let x := d.thr i
  (d.taskOf s x.task).bind fun t =>
    if !(d.fetchWord s x.pc).2 ∧ x.root ∧ x.pc = d.o 0x3841 1 (s * 256 + t.kind) ∧ t.work ≠ .none then some t else none

/-- SPAWN_TIMEOUT (R267): an aging routine goes on behind the record whose SPAWN fails. -/
def spawnTimeout (i : Nat) : M Unit := do
  let d ← get
  let now ← runNow
  let s := thrSill i
  let x := d.thr i
  if x.st = 6 ∧ !x.parked then
    let kind := ((d.taskOf s x.task).map Task.kind).getD 0
    let (w, patch) := d.fetchWord s x.pc
    addO 0x3846 1 (s * 8 + 6) ((now - x.since0) / uNs)
    incO 0x3846 2 s
    raiseLim (432 + i / 16) 0x3846 1 (i / 16) i kind 0 3
    modify (·.unqueue i)
    match d.romTask i with
    | some t =>
      let t := { t with walk := t.walk + 1 }
      modify fun d => (d.setTask s t).setThr i { d.thr i with st := 1, failed := true }
      romRun i t
    | none => execWord i w patch true 0

/-! ### The issue of a core (R256, R257) -/

/-- The class of a thread: its task's (R256). -/
def Dev.thrClass (d : Dev) (i : Nat) : Nat := ((d.taskOf (thrSill i) (d.thr i).task).map (fun t => t.ctrl / 8 % 4)).getD 0

/-- A cycle of core `n` at entry `entry` of its slot table: a write of 3842h.01 is in force from the pass that begins with entry 0. A
pass is 64 cycles of 1.5 GHz. -/
def Dev.passCycle (d : Dev) (n entry now : Nat) : Dev :=
  let (e, t) := mget (dK (0, 0)) d.joinery.cycle n
  let again : Bool := (oget d.joinery.slotTab n).isNone || decide (entry ≤ e) || decide (t + 64 * uS / 1500000000 ≤ now)
  { d with
    joinery.cycle := mset (dK (0, 0)) d.joinery.cycle n (entry, now)
    joinery.slotTab := if again then oset d.joinery.slotTab n (some (d.o 0x3842 1 n)) else d.joinery.slotTab }

/-- The thread of a list that comes next after the one class `k` of core `n` issued last, in cyclic order. -/
def Dev.inTurn (d : Dev) (n k : Nat) (l : List Nat) : Option Nat :=
  let last := (oget d.joinery.turn (n * 8 + k)).getD 15
  ((List.range 16).map (fun j => (last + 1 + j) % 16)).find? (l.contains ·)

/-- An abort or quiesce is pending for a thread: it issues ahead of the slot table (R270). -/
def Thread.urgent (x : Thread) : Bool := x.abort || x.quiesce

/-- The thread that core `n` issues from in the cycle of an entry (R256); recovery on thread 0 is one command here (log entry 19). -/
def Dev.pickThread (d : Dev) (n entry : Nat) (late : List Nat) : Option Nat :=
  let ready := (List.range 16).filter fun t => let x := d.thr (n * 16 + t); x.st == 1 && !x.parked && !late.contains t
  match d.inTurn n 4 (ready.filter fun t => (d.thr (n * 16 + t)).urgent) with
  | some t => some t
  | none =>
    let cls := byteAt (toBytes 64 ((oget d.joinery.slotTab n).getD 0)) (entry % 64)
    (List.range 4).findSome? fun j =>
      let k := (cls + j) % 4
      d.inTurn n k (ready.filter fun t => d.thrClass (n * 16 + t) == k)

/-- Thread `t` of core `n` has had its turn. -/
def Dev.tookTurn (d : Dev) (n t : Nat) : Dev :=
  let k := if (d.thr (n * 16 + t)).urgent then 4 else d.thrClass (n * 16 + t)
  { d with joinery.turn := oset d.joinery.turn (n * 8 + k) (some t) }

/-- Of tasks that wait for their retry times, the one whose time ends first, the oldest of equals (R272). -/
def firstReady (l : List Task) : Option Task :=
  l.foldl (fun (a : Option Task) t => match a with
    | some x => if t.readyAt < x.readyAt then some t else a
    | none => some t) none

/-! ### Deadlock (R274 to R276) -/

/-- The owner of the clamp a thread waits for. -/
def Dev.waitsFor (d : Dev) (i : Nat) : Option Nat :=
  let x := d.thr i
  if x.st = 3 ∨ (x.st = 7 ∧ x.was = 3) then
    match x.clamp.bind d.clamp with
    | some c => if c.owner = i then none else some c.owner
    | none => none
  else none

/-- Follow clamp ownership from the last thread of a path until it meets the path again: the cycle (R276). -/
def Dev.clampCycle (d : Dev) : Nat → List Nat → Option (List Nat)
  | 0, _ => none
  | fuel + 1, path =>
    match path.getLast?.bind d.waitsFor with
    | none => none
    | some o => if path.contains o then some (path.dropWhile (· != o)) else d.clampCycle fuel (path ++ [o])

/-- The youngest thread of a cycle whose task has no halted thread. -/
def Dev.cycleVictim (d : Dev) (l : List Nat) : Option Nat :=
  let free := fun i => (d.taskThreads (thrSill i) (d.thr i).task).all (fun j => (d.thr j).st != 7)
  (l.filter free).foldl (fun (a : Option Nat) i => match a with
    | some j => if (d.thr j).task < (d.thr i).task then some i else a
    | none => some i) none

/-- Recovery on core `n` from the waiting threads `w`; `whole`: they are all of the core's (R276). -/
def recover (n : Nat) (w : List Nat) (whole : Bool) : M Unit := do
  let d ← get
  incO 0x3847 1 n
  let byAge := w.mergeSort (fun a b => decide ((d.thr a).task ≤ (d.thr b).task))
  let found := byAge.findSome? fun i => match d.clampCycle 256 [i] with
    | some c => (d.cycleVictim c).map (fun v => (v, c.length))
    | none => none
  match found with
  | some (v, len) =>
    incO 0x3847 2 n
    raiseEv (432 + n) 0x3843 2 n v len
    postInt v 0
  | none =>
    if whole then
      let prio := fun i => ((d.taskOf (thrSill i) (d.thr i).task).map (fun t => t.ctrl / 32)).getD 0
      let lp := w.foldl (fun a i => min a (prio i)) 7
      let l := w.filter (fun i => prio i == lp)
      let tasks := nub (l.map (fun i => (d.thr i).task))
      addO 0x3847 3 n tasks.length
      raiseEv (432 + n) 0x3844 2 n lp tasks.length
      for i in l do postInt i 0
    else
      let now ← runNow
      for i in w do modify fun d => d.setThr i { d.thr i with since0 := now }

/-- The threads of a core that hold a task. -/
def Dev.coreThreads (d : Dev) (n : Nat) : List Nat :=
  ((List.range 16).map (· + n * 16)).filter (fun i => (d.thr i).busy)

/-- A thread waits for a clamp or a channel that a halted thread holds (R274). -/
def Dev.waitsHalted (d : Dev) (i : Nat) : Bool :=
  let halted := fun (o : Option Nat) => match o with | some j => (d.thr j).st == 7 | none => false
  halted (d.waitsFor i) ||
    ((d.thr i).st == 5 && d.joinery.chans.any (fun e => e.2.senders.contains i && halted (e.2.part.map Prod.fst)))

/-- An external completion is pending for a thread (R274): a fetch-unit command, a Sill-to-Sill request or a SPAWN. -/
def Dev.completionPending (d : Dev) (i : Nat) : Bool :=
  let s := thrSill i
  d.cmdsOfThread i != 0 || (d.spawnsOf s).contains i || (match d.taskOf s (d.thr i).task with | some t => t.port == .sent | none => false)

/-- The detector of a core is paused (R274). -/
def Dev.detectorPaused (d : Dev) (n : Nat) : Bool :=
  (d.coreThreads n).any fun i => (d.thr i).st == 7 || d.waitsHalted i

/-- DEADLOCK_DETECT (R274). -/
def deadlockDetect (n : Nat) : M Unit := do
  let d ← get
  let l := d.coreThreads n
  if l ≠ [] ∧ l.all (fun i => [3, 4, 5].contains (d.thr i).st && !(d.thr i).granted && !d.completionPending i) ∧ !d.detectorPaused n then
    recover n l true

/-- CLAMP_WAIT_LIMIT (R275). -/
def clampWaitLimit (i : Nat) : M Unit := do
  let d ← get
  let n := i / 16
  match (if (d.thr i).st = 3 then d.waitsFor i else none) with
  | none => return ()
  | some o =>
    if (d.thr o).st ≠ 7 then
      incO 0x3847 5 n
      raiseEv (432 + n) 0x3849 1 n (i % 16) (((d.thr i).clamp.getD 0) % 4096)
      recover n [i] false

/-! ### The debugger (R277, R278) -/

/-- A write of 8400h.01. -/
def dbgHalt (i : Nat) (on : Bool) : M Unit := do
  let d ← get
  let x := d.thr i
  if on ∧ x.busy ∧ x.st ≠ 7 then set (d.setThr i { x with was := x.st, st := 7 })
  else if !on ∧ x.st = 7 then
    set (d.setThr i { x with st := x.was })
    if 2 ≤ x.was then takeInt i x.pc

/-- A write of 8400h.04: the status. -/
def dbgReg (i r v : Nat) : M Nat := do
  let d ← get
  let x := d.thr i
  if x.st ≠ 7 then return 0x701
  set (d.setThr i { x with regs := nset x.regs r v })
  return 0

/-- A write of 8400h.02: the status. -/
def dbgAbandon (i : Nat) : M Nat := do
  let d ← get
  if (d.thr i).st ≠ 7 then return 0x701
  for c in d.partials i do modify (·.dropPartial c.1)
  return 0

/-- A write of 8400h.03: the status. -/
def dbgAbort (i : Nat) : M Nat := do
  let d ← get
  if (d.thr i).st ≠ 7 then return 0x701
  abortTask (thrSill i) (d.thr i).task true
  patchMaybe (thrSill i)
  return 0

/-- The unlock ends: every halted thread resumes, breakpoints are disabled (R442). -/
def dbgRelease : M Unit := do
  for e in (← get).joinery.threads do dbgHalt e.1 false
  for k in List.range 128 do
    let b ← getO 0x8401 1 k
    setO 0x8401 1 k (b % 2 ^ 31)

/-! ### A stalled core (R279) -/

/-- A core's island is declared stalled. -/
def coreStall (n : Nat) : M Unit := do
  let d ← get
  let s := n / 16
  for i in d.coreThreads n do
    let seq := (d.thr i).task
    threadEnd i false
    match (← get).taskOf s seq with
    | some t => modify (·.setTask s { t with st := if t.st = 1 then 0 else t.st, token := none, asked := false })
    | none => pure ()
  modify fun d => { (List.range 16).foldl (fun (d : Dev) t => d.setThr (n * 16 + t) { d.thr (n * 16 + t) with st := 9 }) d with
    joinery.off := n :: d.joinery.off.filter (· != n) }
  patchMaybe s

/-- The core rejoins the dispatch: its island runs again and its threads are freed. -/
def coreRejoin (n : Nat) : M Unit :=
  modify fun d => { (List.range 16).foldl (fun (d : Dev) t =>
      if (d.thr (n * 16 + t)).st = 9 then d.setThr (n * 16 + t) { d.thr (n * 16 + t) with st := 0 } else d) d with
    joinery.off := d.joinery.off.filter (· != n) }

/-- Objects of this chapter whose value is computed (R280). -/
def Dev.joineryObj (d : Dev) (ix sub i : Nat) : Option Nat :=
  match ix, sub with
  | 0x3844, 1 => some ((d.joinery.clamps.filter (fun e => e.1 / 4096 == i && e.2.isSome)).length)
  | 0x3844, 2 => some (match d.clamp i with | some c => c.owner | none => 0xFFFF)
  | 0x3845, 1 => some (d.chan i).msgs.length
  | 0x3845, 2 => some (match (d.chan i).part with | some (o, _) => o | none => 0xFFFF)
  | 0x3847, 4 => some (ofBool (d.detectorPaused i))
  | 0x3850, 1 => some (d.thr i).st
  | 0x3850, 2 => some (if (d.thr i).busy then ((d.taskOf (thrSill i) (d.thr i).task).map Task.kind).getD 0 else 0)
  | 0x8400, 1 => some (ofBool ((d.thr i).st == 7))
  | 0x8400, 4 => some (nget (d.thr (i / 32)).regs (i % 32))
  | 0x8400, 5 => some (d.thr i).pc
  | _, _ => none

/-- A cycle of core `n` issues from thread `t`, if R256 picks it. -/
def issueCycle (n t err entry : Nat) (late : List Nat) : M Unit := do
  let now ← runNow
  modify (·.passCycle n entry now)
  let d ← get
  if d.pickThread n entry late = some t then
    set (d.tookTurn n t)
    wordStep (n * 16 + t) true err

/-- A thread's wait is looked at again (R252). -/
def waitEnd (i : Nat) : M Unit := do
  let x := (← get).thr i
  if x.waits ∧ !x.parked then wordStep i false 0

/-- The oldest held completion of a domain is released, once no earlier task of the domain is left (R266). -/
def dovetailRelease (k dom : Nat) : M Unit := do
  let v ← get
  match (v.tasks k).find? (fun t => t.st == 3 && bitOf t.ctrl 2 && t.domain == dom && !v.domainHeld k t) with
  | some t => releaseTask k t
  | none => return ()

/-! ### Meanings -/

/-- TASK_DISPATCH (R263); an activated patch goes on (R430). -/
def execTaskDispatch (k : Nat) (s : State) :=
  run (.taskDispatch k) (do
    patchDrive
    taskDispatch k) s

/-- PREEMPT_POST (R271). -/
def execPreemptPost (k : Nat) (s : State) := run (.preemptPost k) (preemptPost k) s

/-- TASK_RETRY_READY (R272): of the tasks of Sill `k` that wait for their retry times, the one whose time ends first. -/
def execTaskRetryReady (k : Nat) (s : State) :=
  run (.taskRetryReady k) (do
    let d ← get
    match firstReady ((d.tasks k).filter (fun t => t.st == 2)) with
    | some t => set (d.setTask k { t with st := 0 })
    | none => return ()) s

end Sys2Proof.Machine
end

