-- ==== Sys2Proof/Machine/Egress.lean ====
section
/-! DEFINITION. Egress scheduling (12): the order of service (R316), class and sub-queue schedulers (R320 to R323), shapers (R318,
R324), preemption (R325), the start and the end of a frame on a medium, gate changes (R329 to R332), pause (R335 to R338). -/

namespace Sys2Proof.Machine

/-! ### Deficit round robin (R322) -/

/-- A member of a round: its number, visited mark and deficit. -/
abbrev Member := Nat × Bool × Int

/-- drr_select over members in list order, skipping those not eligible; the list afterwards. `fuel` bounds the steps. -/
def drrSelect (elig : Nat → Bool) (quantum size : Nat → Nat) : Nat → List Member → Option (Nat × List Member)
  | 0, _ => none
  | fuel + 1, l =>
    match l.span (fun m => !elig m.1) with
    | (_, []) => none
    | (pre, m :: post) =>
      let df : Int := if m.2.1 then m.2.2 else m.2.2 + quantum m.1
      if (size m.1 : Int) ≤ df then some (m.1, pre ++ (m.1, true, df) :: post)
      else drrSelect elig quantum size fuel (pre ++ post ++ [(m.1, false, df)])

/-- Enough steps for any deficit and any quantum of at least 64. -/
def drrFuel : Nat := 20000

/-! ### Heads -/

/-- The head of a queue that can start: whole, or cut-through eligible (R284). -/
def Dev.headOf (d : Dev) (q : Nat) : Option (Copy × Frame) :=
  match d.queue q with
  | [] => none
  | c :: _ => match d.frame c.frame with
    | some f => if f.whole || c.eligible then some (c, f) else none
    | none => none

/-- The length used for the fit of a head (R317): 64 octets for every frame that can be preempted. -/
def Dev.fitLen (d : Dev) (c : Copy) (f : Frame) : Nat :=
  if !c.bounded && d.preempting c.port then 64
  else if f.whole then f.data.length
  else if c.bounded then d.o 0x4031 3 (c.port * 8 + c.tc)
  else d.o 0x2400 4 c.port

/-- What a class would send: sub-queue, head, and the members afterwards under deficit round robin. -/
structure Pick where
  sub : Nat
  copy : Copy
  frame : Frame
  order : List Member
  deriving DecidableEq, Repr

/-- subq_select for class `c` of port `p` (R321 to R323). -/
def Dev.subSelect (d : Dev) (p c : Nat) : Option Pick :=
  let pc := p * 8 + c
  let has := fun (s : Nat) => !(d.queue (queueId p c s)).isEmpty
  let pick := fun (s : Nat) (order : List Member) =>
    (d.headOf (queueId p c s)).map (fun h => Pick.mk s h.1 h.2 order)
  match d.o 0x4420 3 pc with
  | 0 =>
    match (List.range 16).reverse.find? has with
    | some s => pick s []
    | none => none
  | 2 =>
    let l := (List.range 16).filter has
    let best := l.foldl (fun (a : Option Nat) s => match a with
      | some b => if d.o 0x4421 4 (queueId p c s) < d.o 0x4421 4 (queueId p c b) then some s else a
      | none => some s) none
    match best with
    | some s => pick s []
    | none => none
  | _ =>
    let l : List Member := ((d.subList pc).filter has).map (fun s =>
      let q := queueId p c s
      (s, mget (dK false) d.eg.subVisited q, d.oS 32 0x4421 3 q))
    let size := fun (s : Nat) => match d.queue (queueId p c s) with
      | x :: _ => (match d.frame x.frame with | some f => d.fitLen x f | none => 0)
      | [] => 0
    match drrSelect (fun _ => true) (fun s => d.o 0x4421 1 (queueId p c s)) size drrFuel l with
    | some (s, order) => pick s order
    | none => none

/-! ### Shapers -/

/-- Port shaper tokens in byte units (R318). -/
def Dev.shaperTokens (d : Dev) (k : Clock) (p : Nat) : Int :=
  let cap : Int := (d.o 0x4400 2 p * byteUnit : Nat)
  match oget d.eg.shaper p with
  | none => cap
  | some l => l.at (d.o 0x4400 1 p) k.dev cap

/-- The port shaper permits (R318). -/
def Dev.shaperOk (d : Dev) (k : Clock) (p : Nat) : Bool := d.o 0x4400 1 p == 0 || decide (0 ≤ d.shaperTokens k p)

/-- What an eligible class of an Ethernet port would send (R320). -/
def Dev.classPick (d : Dev) (k : Clock) (p c : Nat) : Option Pick :=
  match d.subSelect p c with
  | none => none
  | some x =>
    if d.fits k p c k.dev (d.fitLen x.copy x.frame) && !d.paused p c &&
        (d.o 0x4420 4 (p * 8 + c) == 0 || decide (0 ≤ d.credit k p c)) && d.shaperOk k p
    then some x else none

/-- What a class of a packet-client tributary would send: its single queue's head (R319). -/
def Dev.tribPick (d : Dev) (p c s : Nat) : Option Pick := (d.headOf (queueId p c s)).map (fun h => Pick.mk s h.1 h.2 [])

/-- class_select over the groups, highest first (R316, R320): the class, its pick, and the class list afterwards. -/
def Dev.classSelect (d : Dev) (p x : Nat) (pick : Nat → Option Pick) : Option (Nat × Pick × List Member) :=
  let group := fun (c : Nat) => d.o 0x4420 1 (p * 8 + c)
  let all := d.clsList x
  (List.range 8).reverse.findSome? fun g =>
    let l : List Member := (all.filter (fun c => group c == g)).map (fun c =>
      (c, mget (dK false) d.eg.clsVisited (8 * x + c), mget (dK 0) d.eg.clsDeficit (8 * x + c)))
    let elig := fun (c : Nat) => (pick c).isSome
    let size := fun (c : Nat) => match pick c with | some y => d.fitLen y.copy y.frame | none => 0
    match drrSelect elig (fun c => d.o 0x4420 2 (p * 8 + c)) size drrFuel l with
    | some (c, order) => (pick c).map (fun y =>
        (c, y, (all.filter (fun z => group z != g)).map (fun z => (z, mget (dK false) d.eg.clsVisited (8 * x + z),
          mget (dK 0) d.eg.clsDeficit (8 * x + z))) ++ order))
    | none => none

/-- The schedulers' state after a class and its sub-queue have been chosen (R322, R323). -/
def Dev.commitPick (d : Dev) (p x c : Nat) (y : Pick) (order : List Member) : Dev :=
  let d : Dev := { d with
    eg.clsList := mset (dK []) d.eg.clsList x (order.map (·.1))
    eg.clsVisited := order.foldl (fun m z => mset (dK false) m (8 * x + z.1) z.2.1) d.eg.clsVisited
    eg.clsDeficit := order.foldl (fun m z => mset (dK 0) m (8 * x + z.1) z.2.2) d.eg.clsDeficit }
  let pc := p * 8 + c
  if 256 ≤ x then d
  else if d.o 0x4420 3 pc = 2 then
    { d with eg.vtime := nset d.eg.vtime pc (d.o 0x4421 4 (queueId p c y.sub)) }
  else if d.o 0x4420 3 pc = 0 then d
  else
    let d := y.order.foldl (fun (d : Dev) z => d.setO 0x4421 3 (queueId p c z.1) (ofS 32 z.2.2)) d
    { d with
      eg.subList := mset (dK []) d.eg.subList pc (y.order.map (·.1))
      eg.subVisited := y.order.foldl (fun m z => mset (dK false) m (queueId p c z.1) z.2.1) d.eg.subVisited }

/-! ### Starting a frame -/

/-- Add a frame to the bandwidth window of port `p`, direction `dir` (R383). -/
def bwAdd (p dir len : Nat) : M Unit :=
  modify fun d => { d with
    mon.bwBytes := nset d.mon.bwBytes (p * 2 + dir) (nget d.mon.bwBytes (p * 2 + dir) + len + 20)
    mon.bwFrames := nset d.mon.bwFrames (p * 2 + dir) (nget d.mon.bwFrames (p * 2 + dir) + 1) }

/-- A bounded frame departs: its margin, or its lateness (R296). -/
def boundedDeparts (c : Copy) (at0 : Nat) : M Unit := do
  let i := c.port * 8 + c.tc
  monFeed 2 i ((c.deadline - at0) / uNs)
  if c.deadline < at0 then
    minO 0x4031 0xE i 0
    incO 0x4031 0xF i
    raiseEv 321 0x4004 3 i ((at0 - c.deadline) / uNs) c.proj
  else minO 0x4031 0xE i (min (2 ^ 32 - 1) ((c.deadline - at0) / uNs))

/-- A copy's head leaves: the frame on the medium, with its octets once the whole frame is in the buffer. `stomp`: the octets
before a memory error that was met as it was read. -/
def beginTx (c : Copy) (f : Frame) (lead : Nat) (stomp : Option Nat) : M Tx := do
  let k ← read
  if c.bounded then boundedDeparts c (k.dev + lead)
  let d ← get
  let shift := d.tsShift c.port 2
  let t : Tx :=
    { copy := c, stamp := d.stamp f c.port (shiftTime (k.dev + lead) shift) (shiftTime (k.net + lead) shift), from0 := k.dev + lead
      stomp := stomp.map (fun _ => 6), stompAt := stomp.getD 0 }
  if f.whole then
    let b ← egressData (match c.nhop with | some n => f.setT 200 24 n | none => f) c t.stamp
    return { t with data := some b }
  else return t

/-! ### Memory errors (R306) -/

/-- An uncorrectable error in a cell: counted, recorded, and the cell retired at its second error within 24 hours. -/
def cellError (cell gran : Nat) : M Unit := do
  let d ← get
  let now ← runNow
  incO 0x4000 9
  let again : Bool := match oget d.yard.cellErr cell with
    | some t => decide (now < t + 86400 * uS)
    | none => false
  let retire : Bool := again && !d.yard.retired.contains cell
  modify fun d => { d with
    yard.cellErr := oset d.yard.cellErr cell (some now)
    yard.retired := if retire then d.yard.retired ++ [cell] else d.yard.retired }
  if retire then incO 0x4000 0xA
  raiseEv 324 0x4002 2 cell gran (if retire then 1 else 0)

/-! ### Leaving a queue -/

/-- A copy leaves its queue or FIFO; `sent` is the count that the schedulers are charged (R322 to R324), none for a copy that did
not depart. -/
def leaveQueue (c : Copy) (sent : Option Nat) : M Unit := do
  let d ← get
  let k ← read
  let other : Copy → Bool := fun x => !(x.frame == c.frame && x.idx == c.idx)
  if c.bounded then
    match c.trib with
    | some e => set (d.setFifoT e ((d.fifoT e).filter other))
    | none => set (d.setFifoB c.port ((d.fifoB c.port).filter other))
  else
    let q := c.q
    let x := c.list
    let pc := c.port * 8 + c.tc
    let d := d.setQueue q ((d.queue q).filter other)
    let d := match sent with
      | none => d
      | some n =>
        let d := if d.o 0x4420 3 pc = 2 ∧ x < 256 then
            d.setO 0x4421 4 q (d.o 0x4421 4 q + n * 65536 / max 1 (d.o 0x4421 2 q))
          else if d.o 0x4420 3 pc = 0 ∨ 256 ≤ x then d
          else d.setO 0x4421 3 q (ofS 32 (d.oS 32 0x4421 3 q - n))
        let d : Dev := { d with eg.clsDeficit := mset (dK 0) d.eg.clsDeficit (8 * x + c.tc) (mget (dK 0) d.eg.clsDeficit (8 * x + c.tc) - n) }
        if 256 ≤ x then d
        else
          let d : Dev := if d.o 0x4400 1 c.port = 0 then { d with eg.shaper := oset d.eg.shaper c.port none }
            else { d with eg.shaper := oset d.eg.shaper c.port (some ⟨d.shaperTokens k c.port - (n * byteUnit : Nat), k.dev, 1⟩) }
          if d.o 0x4420 4 pc = 0 then d
          else { d with eg.cbs := oset d.eg.cbs pc (some ⟨d.cbsBase k c.port c.tc - (d.cbsFall c.port c.tc n : Int), k.dev, 0⟩) }
    set (d.settleQueue q x)
    if c.trib = none then
      cbsTouch c.port c.tc
      wdTouch c.port c.tc

/-- A copy is finished with: it leaves its queue, its end is reported, its cells return and its queue's residue is retried (R309,
R310). -/
def finishCopy (c0 : Copy) (sent : Option Nat) (e : Ending) : M Unit := do
  let c := (← get).currentCopy c0
  leaveQueue c sent
  endCopy c e
  if !c.bounded then retryQueue c.q

/-- The fault that a head is discarded for, before it has left (R302): a bounded frame longer than its provisional length (R295), a
fault of its frame, or a memory error met in it (R306). -/
def headFault (c : Copy) (f : Frame) : Option Nat :=
  if f.whole ∧ c.bounded ∧ c.plen < f.data.length then some 5
  else if f.whole ∧ f.fault.isSome then f.fault
  else if f.memErr then some 6
  else none

/-- A copy at the head of its queue is discarded (R168, R302). -/
def discardHead (c : Copy) (f : Frame) (k : Nat) : M Unit := do
  let now ← devNow
  let d ← get
  if c.kind ≠ 0 then
    if k ≠ 4 then incO 0x4040 2 (c.port * 8 + k)
    finishCopy c none { outcome := 12, cause := k, at0 := now }
    reflectionLost c.session 2
  else if k = 4 ∧ d.o 0x3010 3 f.port = 1 then
    puntFrame f 2
    finishCopy c none { outcome := 4, cause := 2, at0 := now }
  else
    if k ≠ 4 then incO 0x4040 2 (c.port * 8 + k)
    finishCopy c none { outcome := 12, cause := k, at0 := now }

/-- Discard faulty heads of a list of copies, `fuel` of them at most. -/
def purgeList (get? : Dev → List Copy) : Nat → M Unit
  | 0 => return ()
  | fuel + 1 => do
    let d ← get
    match get? d with
    | [] => return ()
    | c :: _ =>
      if !d.onMedium c then
        match d.frame c.frame with
        | none => return ()
        | some f =>
          match headFault c f with
          | none => return ()
          | some k =>
            discardHead c f k
            purgeList get? fuel

/-- Discard the faulty heads of a port's queues and FIFO. -/
def purgePort (p : Nat) : M Unit := do
  let n := ((← get).fifoB p).length
  purgeList (fun d => d.fifoB p) n
  for e in (← get).yard.queues do
    if e.1 / 128 = p then purgeList (fun d => d.queue e.1) e.2.length

/-- A frame that reached 16,384 octets is discarded when its reception ends: every copy whose head has not left (R285). -/
def discardLong (id : Nat) : M Unit := do
  let d ← get
  let mine : List Copy → List Copy := fun l => l.filter (fun c => c.frame == id && !d.onMedium c)
  for c in (d.yard.queues ++ d.yard.bounded ++ d.yard.tribBounded).flatMap (fun e => mine e.2) do
    match (← get).frame id with
    | some f => discardHead c f 3
    | none => pure ()
  for e in d.yard.residues do
    for x in e.2 do
      if x.copy.frame = id then
        modify fun d => d.setResidue e.1 ((d.residue e.1).filter (fun y => !(y.copy.frame == id && y.copy.idx == x.copy.idx)))
        match (← get).frame id with
        | some f => discardHead x.copy f 3
        | none => pure ()

/-- Such a frame that is not yet admitted leaves the FIFO or its wait at stage 9 and goes no further (R285). -/
def discardEarly (id : Nat) : M Unit := do
  match (← get).frame id with
  | none => return ()
  | some f =>
    if f.phase < 3 then
      let now ← devNow
      modify fun d => ({ d with yard.fifos := mset (dK []) d.yard.fifos f.bay ((mget (dK []) d.yard.fifos f.bay).filter (· != id)) }).unpark f.sill id
      endFrame id { outcome := 12, cause := 3, at0 := now }

/-- The reception of a frame has ended, with the fault found at its end if any (R85, R285). -/
def endReception (f : Frame) (data : Bytes) (fault : Option Nat) : M Unit := do
  if data.length < 16384 then closeFrame f data fault
  else
    closeFrame f data (some 3)
    discardEarly f.id
    discardLong f.id

/-! ### TRANSMIT_OPPORTUNITY -/

/-- bounded_ready (R316). -/
def Dev.boundedReady (d : Dev) (k : Clock) (p : Nat) : Option (Copy × Frame) :=
  match d.fifoB p with
  | [] => none
  | c :: _ => match d.frame c.frame with
    | some f =>
      if (f.whole || c.eligible) && d.fits k p 8 k.dev (d.fitLen c f) then some (c, f) else none
    | none => none

/-- The copies of a frame on media are ended at octet `n`, or where they are past it (R306). -/
def Dev.stompAll (d : Dev) (id n now : Nat) : Dev :=
  let hit := fun (e : Nat × Option Tx) => (e.1, e.2.map (fun t =>
    if !t.control && t.copy.frame == id && t.stomp.isNone then { t with stomp := some 6, stompAt := max n (d.txSent t now) } else t))
  let any := (d.eg.express ++ d.eg.preempt ++ d.eg.tribTx).any (fun e => (hit e).2 != e.2)
  let d : Dev := { d with eg.express := d.eg.express.map hit, eg.preempt := d.eg.preempt.map hit, eg.tribTx := d.eg.tribTx.map hit }
  if any then d.markStomped id else d

/-- An error met when a copy is read (R306): `err` 1 uncorrectable before its head has left, 2 after, 3 corrected. The copy starts
unless it is discarded; true when it starts, with the octets before the error if it is to be stomped. Which of the frame's cells was
read is free; a granule is 32 octets. -/
def readCopy (c : Copy) (f : Frame) (err cell gran : Nat) : M (Bool × Option Nat) := do
  match err with
  | 1 =>
    cellError cell gran
    setFrame { f with memErr := true }
    let now ← devNow
    modify (·.stompAll f.id 0 now)
    discardHead c { f with memErr := true } 6
    return (false, none)
  | 2 =>
    cellError cell gran
    setFrame { f with memErr := true, stomped := true }
    let r ← fresh
    let now ← devNow
    let n := max 32 (r % 64 * 256 + gran * 32)
    modify (·.stompAll f.id n now)
    return (true, some n)
  | 3 =>
    incO 0x4000 8
    return (true, none)
  | _ => return (true, none)

/-- The octets of its present fragment that a frame has sent by `now`, and those that remain (none: not known). -/
def Dev.fragment (d : Dev) (t : Tx) (now : Nat) : Nat × Option Nat :=
  let s := d.txSent t now
  (s - t.done, t.data.map (fun b => b.length - s))

/-- A preemptable frame on the medium can be preempted at `now`: its present fragment and its last are at least 64 octets (R292,
R325). A frame still in reception has at least a cell in hand. -/
def Dev.canCut (d : Dev) (t : Tx) (now : Nat) : Bool :=
  let (sent, left) := d.fragment t now
  64 ≤ sent && (match left with | some n => 64 ≤ n | none => true)

/-- A preemptable frame is interrupted at device time `at0` (R325). -/
def cutTx (p : Nat) (t : Tx) (at0 : Nat) : M Unit := do
  if !t.cut then
    let d ← get
    set { d with eg.preempt := oset d.eg.preempt p (some { t with cut := true, frags := t.frags + 1, done := d.txSent t at0 }) }
    incO 0x4410 4 p
    if t.frags = 0 then incO 0x4410 6 p
    cbsTouch p t.copy.tc

/-- A preemptable frame is held at device time `at0` because its gate has closed (R317). -/
def holdTx (p : Nat) (t : Tx) (at0 : Nat) : M Unit := do
  cutTx p { t with holdAt := none } at0
  modify fun d => { d with
    eg.preempt := oset d.eg.preempt p ((oget d.eg.preempt p).map (fun x => { x with held := true, holdAt := none })) }
  incO 0x4432 7 p

/-- A hold whose point has come takes effect, unless the frame's end is now known to be too near for it (R317). -/
def holdSettle (p : Nat) : M Unit := do
  let now ← devNow
  match oget (← get).eg.preempt p with
  | some t =>
    match t.holdAt with
    | some x =>
      if x ≤ now ∧ !t.cut then
        if (← get).canCut t x then holdTx p t x
        else modify fun d => { d with eg.preempt := oset d.eg.preempt p (some { t with holdAt := none }) }
    | none => return ()
  | none => return ()

/-- Express traffic starts on a port: a preemptable frame in progress is preempted (R317, R325). -/
def startExpress (p : Nat) (t : Tx) : M Unit := do
  let now ← devNow
  modify fun d => { d with
    eg.express := oset d.eg.express p (some t)
    eg.lastControl := mset (dK false) d.eg.lastControl p t.control }
  match oget (← get).eg.preempt p with
  | some x => cutTx p x now
  | none => return ()

/-- The choice at a transmit opportunity of an Ethernet port: a control frame, the bounded FIFO, or a class (R316). -/
def transmitPick (p err cell gran : Nat) : M Unit := do
  let d ← get
  let k ← read
  let busy := oget d.eg.preempt p
  let waits : Bool := match busy with
    | some x => !x.cut && (!d.preempting p || !d.canCut x k.dev)
    | none => false
  if d.txStopped p ∨ (oget d.eg.express p).isSome ∨ waits then return ()
  let ready := d.boundedReady k p
  match oget d.eg.ctl p with
  | some bits =>
    if !(mget (dK false) d.eg.lastControl p && ready.isSome) then
      let (b, off, on) := d.pauseFrame p bits
      let t : Tx :=
        { data := some b, stamp := d.stamp {} p (k.dev + d.wOf p 8) (k.net + d.wOf p 8), from0 := k.dev + d.wOf p 8, control := true
          copy := { port := p } }
      set { d with eg.ctl := oset d.eg.ctl p none }
      startExpress p t
      if d.o 0x4450 1 p = 2 then
        for c in List.range 8 do
          if bitOf off c then incO 0x4452 1 (p * 8 + c)
          if bitOf on c then incO 0x4452 2 (p * 8 + c)
      else incO 0x4452 (if off ≠ 0 then 1 else 2) (p * 8)
      return ()
  | none => pure ()
  match ready with
  | some (c, f) =>
    let (go, stomp) ← readCopy c f err cell gran
    if go then
      let t ← beginTx c f (d.wOf p 8) stomp
      startExpress p t
  | none =>
    match busy with
    | some x =>
      if x.cut ∧ !x.held then
        set { d with eg.preempt := oset d.eg.preempt p (some { x with cut := false, from0 := k.dev + d.wOf p 8 }) }
        cbsTouch p x.copy.tc
    | none =>
      match d.classSelect p p (d.classPick k p) with
      | none => return ()
      | some (c, y, order) =>
        let (go, stomp) ← readCopy y.copy y.frame err cell gran
        if go then
          modify (·.commitPick p p c y order)
          let t ← beginTx y.copy y.frame (d.wOf p 8) stomp
          modify fun d => { d with
            eg.lastControl := mset (dK false) d.eg.lastControl p false
            eg.preempt := if d.preempting p then oset d.eg.preempt p (some t) else d.eg.preempt
            eg.express := if d.preempting p then d.eg.express else oset d.eg.express p (some t) }
          cbsTouch p c

/-- TRANSMIT_OPPORTUNITY on an Ethernet port (R316): faulty heads are discarded, then the choice is made. -/
def transmitEthernet (p err cell gran : Nat) : M Unit := do
  holdSettle p
  purgePort p
  transmitPick p err cell gran

/-- The blocks of tributary `e` that its mapper holds. -/
def Dev.mapHeld (d : Dev) (e : Nat) : Nat :=
  (mget (dK ({} : TxTrib)) d.plumb.txTribs e).blocks.length +
    ((mget (dK []) d.plumb.mapFrames e).map (fun b => tribBlocks b.length)).sum

/-- A frame begun on tributary `e` of port `p` ends before a swap at which the tributary stops (R126): its blocks, which the mapper takes at
the start of a Plumb frame behind those it holds, leave in frames before the swap (DESIGN CHOICE, log entry 142). A frame whose length is
not known yet counts at the limit of its port. -/
def Dev.endsInTime (d : Dev) (k : Clock) (p e : Nat) (f : Frame) : Bool :=
  let n := tribBlocks (if f.whole then f.data.length else f.limits.2)
  !d.tribStops p e || decide (k.dev + tribTime (d.tribSize e) (d.mapHeld e + 2 * n) + plumbTime 1 ≤ d.swapAt k p)

/-- TRANSMIT_OPPORTUNITY of packet-client tributary `e` of a slotted port (R319). -/
def transmitTrib (p e err cell gran : Nat) : M Unit := do
  let k ← read
  let d ← get
  if e / 160 ≠ p ∨ !d.clientOut e then return ()
  else
    let s ← getO 0x2810 4 e
    purgeList (fun d => d.fifoT e) ((← get).fifoT e).length
    for c in List.range 8 do
      let q := queueId p c s
      purgeList (fun d => d.queue q) ((← get).queue q).length
    let d ← get
    if d.txStopped p ∨ (oget d.eg.tribTx e).isSome then return ()
    let lead := tribTime (d.tribSize e) 1
    let first := match d.fifoT e with
      | c :: _ => match d.frame c.frame with
        | some f => if f.whole || c.eligible then some (c, f) else none
        | none => none
      | [] => none
    match first with
    | some (c, f) =>
      if !d.endsInTime k p e f then return ()
      let (go, stomp) ← readCopy c f err cell gran
      if go then
        let t ← beginTx c f lead stomp
        modify fun d => { d with eg.tribTx := oset d.eg.tribTx e (some t) }
    | none =>
      match d.classSelect p (256 + e) (fun c => d.tribPick p c s) with
      | none => return ()
      | some (c, y, order) =>
        if !d.endsInTime k p e y.frame then return ()
        let (go, stomp) ← readCopy y.copy y.frame err cell gran
        if go then
          modify (·.commitPick p (256 + e) c y order)
          let t ← beginTx y.copy y.frame lead stomp
          modify fun d => { d with eg.tribTx := oset d.eg.tribTx e (some t) }

/-! ### The end of a frame -/

/-- An egress time-stamp is captured as a Reflection of the port (R103, R104); 1805h names the sequence that is lost.
FLAGS [1] shows the state of the time base when the frame has left (DESIGN CHOICE, log entry 140). -/
def captureStamp (p tag net0 : Nat) (preempted : Bool) : M Unit := do
  let d ← get
  let seq := nget d.time.rseq p
  let store := mget (dK []) d.time.refl p
  let flags := (if d.o 0x1800 2 = 2 then 0 else 2) + (if preempted then 1 else 0)
  let b := toBytes 2 p ++ [1#8, BitVec.ofNat 8 flags] ++ toBytes 4 tag ++ toBytes 6 (net0 / uS) ++
    toBytes 4 (net0 / uNs % 1000000000) ++ toBytes 2 net0 ++ toBytes 4 seq
  set { d with time.rseq := nset d.time.rseq p ((seq + 1) % 2 ^ 32) }
  if 64 ≤ store.length then
    incO 0x1830 4 p
    raiseLim 530 0x1805 1 p p seq 0 3
  else modify fun d => { d with time.refl := mset (dK []) d.time.refl p (store ++ [b]) }

/-- A departed unicast frame of a looked-up flow: one in 2^(n−1) of its profile carries a latency sample, the first of each run of
that many (R237; log entry 126). -/
def flowLatency (f : Frame) (at0 : Nat) : M Unit := do
  let d ← get
  let h := f.tf 274 4
  let n := d.o 0x3802 6 h
  if n ≠ 0 ∧ f.slot.isSome ∧ f.tf 450 4 ≠ 4 then
    let r := nget d.flow.sampleCount h % 2 ^ (n - 1)
    modify fun d => { d with flow.sampleCount := nset d.flow.sampleCount h ((r + 1) % 2 ^ (n - 1)) }
    if r = 0 then
      modify fun d => { d with flow.samples := d.flow.samples ++
        [FlowSample.mk f.id f.sill f.kdir f.key h ((at0 - f.t0) / uNs)] }

/-- A frame's last octet has left: counts, reports, the schedulers' charge, its cells (R310, R318, R322). A capture is
refused to a frame that arrived on a tributary, on an Ethernet port too, and one refused under R92 counts without source 530 and 1806h,
which R102 raises for an insertion (DESIGN CHOICE, log entry 140). -/
def endTx (t : Tx) (e : Option Nat) : M Unit := do
  let d ← get
  let p := t.copy.port
  match d.frame t.copy.frame, t.data with
  | some f, some b =>
    let c := t.copy
    let body := match t.stomp with
      | some k => stompFcs (b.take (stompLen f t k))
      | none => b
    let len := body.length
    match e with
    | some key => modify fun d => { d with plumb.mapFrames := mset (dK []) d.plumb.mapFrames key (mget (dK []) d.plumb.mapFrames key ++ [body]) }
    | none => emit (.frame p body)
    bwAdd p 1 len
    monFeed 1 (p * 8 + c.tc) ((t.stamp.at0 - f.t0) / uNs)
    match e with
    | some key => monFeed 9 key ((t.stamp.at0 - f.t0) / uNs)
    | none => pure ()
    match t.stomp with
    | some k =>
      incO 0x4040 1 (p * 8 + k)
      raiseLim 323 0x4008 1 p p k 0 3
    | none =>
      match e with
      | some key =>
        incO 0x2832 8 key
        addO 0x2832 9 key len
      | none =>
        incO 0x2420 9 p
        addO 0x2420 0xA p len
      incO 0x4420 6 (p * 8 + c.tc)
      addO 0x4420 7 (p * 8 + c.tc) len
    if c.kind = 0 then
      let chosen ← mirrorChosen f 1
      if chosen then
        if t.stomp.isSome then reflectionLost (f.tf 378 8) 2 else mirrorHand f (f.tf 378 8) body
      if f.tf 376 2 = 3 then
        if t.stamp.slotted ∨ f.origin = 1 then incO 0x1830 2 p else captureStamp p (f.tf 326 32) t.stamp.net0 (t.frags != 0)
      flowLatency f t.stamp.at0
    else if t.stomp.isSome then reflectionLost c.session 2
    let count := len + 20 + 20 * t.frags
    finishCopy c (some count) (match t.stomp with
      | some k => { outcome := 9, cause := k, at0 := t.stamp.at0 }
      | none => { outcome := 0, at0 := t.stamp.at0 })
  | _, _ => return ()

/-- FRAME_TX_END: the express frame ends, else the preemptable one unless it is held; on a slotted port, tributary `e`'s. -/
def frameTxEnd (p e : Nat) : M Unit := do
  holdSettle p
  let d ← get
  if d.slotted p then
    match oget d.eg.tribTx e with
    | some t =>
      if t.copy.port = p ∧ t.data.isSome then
        set { d with eg.tribTx := oset d.eg.tribTx e none }
        endTx t (some e)
    | none => return ()
  else
    match oget d.eg.express p with
    | some t =>
      if t.data.isSome then
        set { d with eg.express := oset d.eg.express p none }
        if t.control then
          emit (.frame p (t.data.getD []))
          incO 0x2420 9 p
          addO 0x2420 0xA p (t.data.getD []).length
          bwAdd p 1 (t.data.getD []).length
        else endTx t none
    | none =>
      match oget d.eg.preempt p with
      | some t =>
        if t.data.isSome ∧ !t.cut then
          set { d with eg.preempt := oset d.eg.preempt p none }
          endTx t none
      | none => return ()

/-! ### The transmitter stops and resumes (R83, R304) -/

/-- The octets that have left of a frame that ends in an error control block (R83). -/
def Dev.errBlock (d : Dev) (t : Tx) (now : Nat) : Out :=
  .errFrame t.copy.port ((t.data.getD (match d.frame t.copy.frame with | some f => f.data | none => [])).take (d.txSent t now))

/-- A frame in transmission is ended with an error control block (R83, cause 7 of R302); its egress mirror copy is lost (R392). -/
def faultTx (t : Tx) : M Unit := do
  let d ← get
  let now ← devNow
  let p := t.copy.port
  let sent := d.txSent t now
  if !d.slotted p then
    incO 0x2420 0xB p
    emit (d.errBlock t now)
  bwAdd p 1 sent
  if !t.control then
    incO 0x4040 1 (p * 8 + 7)
    raiseLim 323 0x4008 1 p p 7 0 3
    modify (·.markStomped t.copy.frame)
    match d.frame t.copy.frame with
    | some f =>
      if t.copy.kind ≠ 0 then reflectionLost t.copy.session 2
      else
        let chosen ← mirrorChosen f 1
        if chosen then reflectionLost (f.tf 378 8) 2
    | none => pure ()
    finishCopy t.copy (some (sent + 20 + 20 * t.frags)) { outcome := 9, cause := 7, at0 := t.stamp.at0 }

/-- The admitted bounded frames of a port, or of a tributary, are stranded (R304). -/
def strandBounded (p : Nat) (e : Option Nat) : M Unit := do
  let n ← emptyBounded p e 0xC
  let now ← devNow
  match e with
  | some k => setO 0x4033 1 k now
  | none => setO 0x4030 1 p now
  if 0 < n then raiseEv 321 0x4005 2 p n 0

/-- The transmitter of an Ethernet port stops (R83). -/
def stopTx (p : Nat) : M Unit := do
  let d ← get
  if !d.oB 0x2440 3 p then
    setO 0x2440 3 p 1
    let d ← get
    set { d with eg.express := oset d.eg.express p none, eg.preempt := oset d.eg.preempt p none }
    match oget d.eg.express p with
    | some t => faultTx t
    | none => pure ()
    match oget d.eg.preempt p with
    | some t => faultTx t
    | none => pure ()
    strandBounded p none

/-- The best-effort queues of a port are stranded: it leaves state 3 or 4 (R83). -/
def strandQueues (p : Nat) : M Unit := do
  let d ← get
  let qs := nub ((d.yard.queues.map (·.1) ++ d.yard.residues.map (·.1)).filter (fun q => q / 128 == p))
  for q in qs do
    let _ ← emptyQueue q 0xE

/-- Verification starts (R325). -/
def startVerify (p : Nat) : M Unit := do
  let d ← get
  let en : Bool := d.oB 0x4410 1 p && !d.slotted p
  let st := if !en then 0 else if d.oB 0x4410 2 p then 1 else 2
  set { d.setO 0x4410 3 p st with eg.attempts := nset d.eg.attempts p 0 }

/-- The transmitter resumes sending frames (R83, R304, R325). -/
def resumeTx (p : Nat) : M Unit := do
  let now ← devNow
  setO 0x2440 3 p 0
  setO 0x4030 1 p now
  startVerify p
  cbsTouchAll p

/-! ### Gates (R329 to R332) -/

/-- The network time of a device time. -/
def Dev.netOf (d : Dev) (k : Clock) (t : Nat) : Nat :=
  let (o0, o1) := d.offsets k
  let off := match d.stepDev k with | some s => if s ≤ t then o1 else o0 | none => o0
  ((t : Int) + off).toNat

/-- The projected departure of the last bounded frame of a port that waits, in network time. -/
def Dev.lastBounded (d : Dev) (k : Clock) (p : Nat) : Option Nat := ((d.fifoB p).getLast?).map (fun c => d.netOf k c.proj)

/-- T' for a requested instant T (R331). -/
def deferTo (g : GateList) (t : Nat) : Option Nat → Nat
  | none => t
  | some x => if x < t then t else if g.on then g.startFrom (x + 1) else g.startFrom x

/-- A change of port `p`'s list or preemption settings is accepted for the commit of epoch `e`: T and T' (R331). -/
def gateAccept (p e : Nat) : M Unit := do
  let d ← get
  let k ← read
  let a := k.net
  let want := d.newObj 0x4431 4 p
  let far : Bool := want != 0 && decide (a + 2 * uS < ofT80 want)
  if far then
    incO 0x4432 8 p
    raiseEv 325 0x4402 1 p (min (2 ^ 32 - 1) ((ofT80 want - a) / uMs)) 0
  let later := if want ≠ 0 ∧ !far then max (a + d.o 0x4431 6 * uUs) (ofT80 want) else a + d.o 0x4431 6 * uUs
  let g := d.gateList p true
  let t := g.startFrom later
  let t' := deferTo g t (d.lastBounded k p)
  modify fun d =>
    let d := (d.setO 0x4432 2 p (toT80 t)).setO 0x4432 3 p (toT80 t')
    { d with eg.change := oset d.eg.change p (some ⟨t, t'⟩) }
  if t ≠ t' then
    incO 0x4432 4 p
    raiseEv 325 0x4401 1 p ((t' - t) / uUs) e

/-- The preemptable frame of a port is held while its class gate is closed, and goes on when it opens (R317). The point that the
fragment rules permit is the 64th octet of the present fragment, or now when it is past it. A frame that cannot be preempted any more,
its end being less than 64 octets past that point, goes on to its end. -/
def preemptAtGate (p : Nat) : M Unit := do
  holdSettle p
  let d ← get
  let k ← read
  match oget d.eg.preempt p with
  | none => return ()
  | some t =>
    let open_ := bitOf (d.gatesAt k p k.dev).1 t.copy.tc
    if open_ then
      if t.held ∨ t.holdAt.isSome then
        set { d with eg.preempt := oset d.eg.preempt p (some { t with held := false, holdAt := none }) }
    else if !t.held then
      if t.cut ∨ d.canCut t k.dev then holdTx p t k.dev
      else if (d.fragment t k.dev).1 < 64 ∧ t.data.all (fun b => t.done + 128 ≤ b.length) then
        set { d with eg.preempt := oset d.eg.preempt p (some { t with holdAt := some (t.from0 + d.wUp p 64) }) }

/-- GATE_CHANGE_SWAP (R326, R331, R332). -/
def gateChangeSwap (p : Nat) : M Unit := do
  let d ← get
  match d.pendingPart 0x11 (1 + p), oget d.eg.change p with
  | some e, some _ =>
    let was := d.oB 0x4410 1 p
    let vwas := d.oB 0x4410 2 p
    let d := (d.swapPart 0x11 (1 + p) e).partDone 0x11 (1 + p)
    let d := (d.setO 0x4432 2 p 0).setO 0x4432 3 p 0
    set { d with eg.change := oset d.eg.change p none }
    cmTell
    incO 0x4432 6 p
    let d ← get
    let en := d.oB 0x4410 1 p
    let v := d.oB 0x4410 2 p
    if !en then setO 0x4410 3 p 0
    else if !d.slotted p ∧ !d.oB 0x2440 3 p then
      if !was then startVerify p
      else if vwas ∧ !v then setO 0x4410 3 p 2
    preemptAtGate p
    cbsTouchAll p
  | _, _ => return ()

/-! ### Pause received (R336, R300, R338) -/

/-- A pause of a class ends: its time is added, in PAUSE mode to class 0's count (R336). -/
def pauseEnd (p c : Nat) : M Unit := do
  let d ← get
  let now ← devNow
  let i := p * 8 + c
  match oget d.eg.pauseSince i with
  | some t =>
    if d.fcClass p c = c then addO 0x4452 4 i ((now - t) / uNs)
    modify fun d => { d with eg.pauseUntil := oset d.eg.pauseUntil i none, eg.pauseSince := oset d.eg.pauseSince i none }
    cbsTouch p c
    wdTouch p c
  | none => return ()

/-- A pause of `quanta` for a class begins or replaces what remains (R336). -/
def pauseSet (p c quanta : Nat) : M Unit := do
  if quanta = 0 then pauseEnd p c
  else
    let d ← get
    let now ← devNow
    let i := p * 8 + c
    set { d with
      eg.pauseUntil := oset d.eg.pauseUntil i (some (now + quanta * 512 * 65536 / d.rate p))
      eg.pauseSince := oset d.eg.pauseSince i (some ((oget d.eg.pauseSince i).getD now)) }
    cbsTouch p c
    wdTouch p c

/-- A MAC control frame that passed the checks of R85 (R335, R336). -/
def controlFrame (p : Nat) (b : Bytes) : M Unit := do
  let d ← get
  let mode := d.o 0x4450 1 p
  let op := beAt b 14 2
  let kind := if op = 1 then 1 else if op = 0x101 then 2 else 0
  if d.slotted p then return ()
  if !d.oB 0x4450 2 p ∨ kind = 0 ∨ kind ≠ mode then incO 0x4452 5 p
  else if kind = 1 then
    incO 0x4452 3 (p * 8)
    for c in List.range 8 do
      if d.bounded p c ∧ (d.fifoB p).any (fun x => x.tc == c) then incO 0x4031 0xD (p * 8 + c)
      -- class 0 stands for the port in PAUSE mode
      if !d.bounded p c ∨ c = 0 then pauseSet p c (beAt b 16 2)
  else
    for c in List.range 8 do
      if bitOf (beAt b 16 2) c then
        incO 0x4452 3 (p * 8 + c)
        if d.bounded p c then incO 0x4031 0xD (p * 8 + c)
        else pauseSet p c (beAt b (18 + 2 * c) 2)

/-- A tripped watchdog flushes the queues of its class, or of every class of the port in PAUSE mode (R338, action 1). -/
def wdFlush (p c : Nat) : M Unit := do
  let d ← get
  let i := p * 8 + c
  for x in List.range 8 do
    if (x = c ∨ d.o 0x4450 1 p = 1) ∧ !d.bounded p x then
      for s in List.range 16 do
        let n ← emptyQueue (queueId p x s) 0
        addO 0x4451 6 i n
        modify fun d => { d with eg.wdDropped := nset d.eg.wdDropped i (nget d.eg.wdDropped i + n) }

/-- The watchdog of a class trips (R338). -/
def wdTrip (p c : Nat) : M Unit := do
  let d ← get
  let i := p * 8 + c
  match oget d.eg.wdSince i with
  | none => return ()
  | some t =>
    if d.o 0x4451 1 p ≠ 0 ∧ d.o 0x4451 5 i = 0 ∧ d.fcClass p c = c then
      let now ← devNow
      set { d.setO 0x4451 5 i 1 with eg.wdDropped := nset d.eg.wdDropped i 0 }
      incO 0x4451 4 i
      raiseEv 326 0x4405 2 p c ((now - t) / uMs)
      if d.o 0x4451 3 p = 1 then wdFlush p c
      cbsTouchAll p

/-- The recovery time of a tripped class ends (R338). -/
def wdEnd (p c : Nat) : M Unit := do
  let d ← get
  let i := p * 8 + c
  if d.o 0x4451 5 i = 1 then
    set { d.setO 0x4451 5 i 0 with eg.wdSince := oset d.eg.wdSince i none }
    raiseEv 326 0x4406 1 p c (nget d.eg.wdDropped i)
    cbsTouchAll p
    wdTouch p c

/-! ### Meanings -/

/-- TRANSMIT_OPPORTUNITY (R316, R319). -/
def execTransmitOpportunity (p e err cell gran : Nat) (s : State) :=
  run (.transmitOpportunity p e err cell gran) (do
    if (← get).slotted p then transmitTrib p e err cell gran else transmitEthernet p err cell gran) s

/-- FRAME_TX_END (R322). -/
def execFrameTxEnd (p e : Nat) (s : State) := run (.frameTxEnd p e) (frameTxEnd p e) s

/-- GATE_EVENT (R329). -/
def execGateEvent (p : Nat) (s : State) :=
  run (.gateEvent p) (do
    preemptAtGate p
    cbsTouchAll p) s

/-- GATE_CHANGE_SWAP (R331). -/
def execGateChangeSwap (p : Nat) (s : State) := run (.gateChangeSwap p) (gateChangeSwap p) s

/-- VERIFY_ATTEMPT (R325): a verification request is sent. -/
def execVerifyAttempt (p : Nat) (s : State) :=
  run (.verifyAttempt p) (do
    let d ← get
    let n := nget d.eg.attempts p
    if d.o 0x4410 3 p = 1 ∧ n < 3 then
      set { d with eg.attempts := nset d.eg.attempts p (n + 1) }
      emit (.verify p false)) s

/-- VERIFY_RESPONSE (R325). -/
def execVerifyResponse (p : Nat) (s : State) :=
  run (.verifyResponse p) (do
    let d ← get
    if d.o 0x4410 3 p = 1 ∧ nget d.eg.attempts p ≠ 0 then setO 0x4410 3 p 2) s

/-- VERIFY_TIMEOUT (R325): no response 10 ms after the third attempt. -/
def execVerifyTimeout (p : Nat) (s : State) :=
  run (.verifyTimeout p) (do
    let d ← get
    if d.o 0x4410 3 p = 1 ∧ 3 ≤ nget d.eg.attempts p then
      setO 0x4410 3 p 3
      incO 0x4410 8 p
      raiseEv p 0x4403 2 p (nget d.eg.attempts p) 0) s

/-- PAUSE_EXPIRY (R336). -/
def execPauseExpiry (p c : Nat) (s : State) := run (.pauseExpiry p c) (pauseEnd p c) s

/-- FC_EVAL (R337). -/
def execFcEval (p c : Nat) (s : State) := run (.fcEval p c) (fcEval p c) s

/-- PFC_REPEAT (R337). -/
def execPfcRepeat (p : Nat) (s : State) :=
  run (.pfcRepeat p) (do
    let d ← get
    if d.xoffBits p ≠ 0 ∧ d.o 0x4450 1 p ≠ 0 then fcQueue p 0) s

/-- FC_WATCHDOG_TRIP (R338). -/
def execFcWatchdogTrip (p c : Nat) (s : State) := run (.fcWatchdogTrip p c) (wdTrip p c) s

/-- FC_WATCHDOG_END (R338). -/
def execFcWatchdogEnd (p c : Nat) (s : State) := run (.fcWatchdogEnd p c) (wdEnd p c) s

end Sys2Proof.Machine
end

