-- ==== Sys2Proof/Machine/Lines.lean ====
section
/-! DEFINITION. Slotted lines (05, 06): receive maps (R124), connection memory and its checks (R118, R119, R122), bonded groups
(R131), defects and their summaries (R138, R139), protection groups (R148 to R156). Frames are in Plumb. -/

namespace Sys2Proof.Machine

/-! ### Lines and entries -/

/-- The entries of a line in logical order (R131). -/
def Dev.entriesOf (d : Dev) (ports : List Nat) : List Nat :=
  ports.flatMap (fun p => (List.range (d.slotsOf p)).map (fun s => p * 160 + s))

/-- The receive mode and key of an input entry under the page in use (R124). -/
def Dev.rxMap (d : Dev) (e : Nat) : Nat × Nat :=
  let pg := d.o 0x2800 2 (e / 160)
  (d.o 0x2820 (1 + 2 * pg) e, d.o 0x2820 (2 + 2 * pg) e)

/-- The input tributaries of a line: key, slots in order, mode. -/
def Dev.inTribs (d : Dev) (ports : List Nat) : List (Nat × List Nat × Nat) :=
  let es := (d.entriesOf ports).filter (fun e => (d.rxMap e).1 != 0)
  (nub (es.map (fun e => (d.rxMap e).2))).map fun k =>
    let s := es.filter (fun e => (d.rxMap e).2 == k)
    (k, s, (d.rxMap (s.headD k)).1)

/-! ### Protection groups in force -/

/-- A 1:1 group. -/
def Dev.pgOneOne (d : Dev) (g : Nat) : Bool := d.o 0x28C0 1 g % 2 == 0

/-- State of a group beside its objects. -/
def Dev.pg (d : Dev) (g : Nat) : PgSt := mget (dK {}) d.plumb.groups g

/-- Replace it. -/
def Dev.setPg (d : Dev) (g : Nat) (x : PgSt) : Dev := { d with plumb.groups := mset (dK {}) d.plumb.groups g x }

/-- Defect bit `n` of a resource of group `g`. -/
def Dev.pgDefect (d : Dev) (g res n : Nat) : Bool := bitOf (if d.o 0x28C0 1 g ≤ 2 then d.o 0x2880 1 res else d.o 0x2881 1 res) n

/-- The bridge of a group is set (R149, R153): always in 1+1, else when the own selector takes protect, or the far end does as it was
accepted; the far end counts for nothing during a protocol failure or while protect has SF (R154). -/
def Dev.pgBridge (d : Dev) (g : Nat) : Bool :=
  !d.pgOneOne g || d.o 0x28C1 5 g == 1 ||
    (d.o 0x28C1 8 g == 0 && !d.pgDefect g (d.o 0x28C0 3 g) 8 && (match (d.pg g).far with | some v => bitOf v 7 | none => false))

/-- The input entry that is read in place of `e`: a selector on protect reads the protect port (R149). -/
def Dev.selEntry (d : Dev) (e : Nat) : Nat :=
  match d.pgUsed.find? (fun g => d.pgPorts g && d.o 0x28C0 2 g == e / 160 && d.o 0x28C1 5 g == 1) with
  | some g => d.o 0x28C0 3 g * 160 + e % 160
  | none => e

/-- The input tributary that is read in place of key `k`. -/
def Dev.selKey (d : Dev) (k : Nat) : Nat :=
  match d.pgUsed.find? (fun g => d.pgTribs g && d.o 0x28C0 2 g == k && d.o 0x28C1 5 g == 1) with
  | some g => d.o 0x28C0 3 g
  | none => k

/-! ### Connections -/

/-- An output tributary of the lit page: its key and slots as sent, its key in connection memory, and its settings. -/
structure Conn where
  key : Nat
  slots : List Nat
  own : Nat
  /-- The key that its entries name lies on its line. -/
  here : Bool
  mode : Nat
  modes : List Nat
  subq : Nat
  target : Nat
  sources : List Nat
  deriving DecidableEq, Repr

/-- The port whose entries port `p` transmits: itself; the working port for a grouped protect port, or none while a 1:1 bridge is
not set (R149). -/
def Dev.txFrom (d : Dev) (p : Nat) : Option Nat :=
  match d.pgUsed.find? (fun g => d.pgPorts g && d.o 0x28C0 3 g == p) with
  | some g => if d.pgBridge g then some (d.o 0x28C0 2 g) else none
  | none => some p

/-- The working tributary whose source a protect tributary takes: its 1:1 bridge is set, and it is no packet client (R149). -/
def Dev.bridged (d : Dev) (k : Nat) : Option Nat :=
  (d.pgUsed.find? (fun g => d.pgTribs g && d.pgOneOne g && d.o 0x28C0 3 g == k && d.pgBridge g && d.o 0x2810 1 (d.o 0x28C0 2 g) != 2)).map
    (fun g => d.o 0x28C0 2 g)

/-- The sources of the output tributary with key `w`, slot by slot. -/
def Dev.sourcesOf (d : Dev) (w : Nat) : List Nat :=
  ((d.entriesOf (d.lineOf (w / 160))).filter (fun e => d.o 0x2810 3 e == w)).map (fun e => d.o 0x2810 2 e)

/-- The output tributaries of a line (R118). Entries that name a key of another line stand under their lowest slot. The protect port of a 1:1 group sends unequipped slots until its bridge is set (R149). -/
def Dev.plan (d : Dev) (ports : List Nat) : List Conn :=
  let p := ports.headD 0
  let from_ := if ports.length = 1 then d.txFrom p else some p
  match from_ with
  | none => (d.entriesOf ports).map (fun e => ⟨e, [e], e, true, 0, [0], 0, 0, [0]⟩)
  | some q =>
    let move := fun (e : Nat) => if q = p then e else e - q * 160 + p * 160
    let es := if q = p then d.entriesOf ports else (List.range (d.slotsOf p)).map (fun s => q * 160 + s)
    (nub (es.map (fun e => d.o 0x2810 3 e))).map fun k =>
      let s := es.filter (fun e => d.o 0x2810 3 e == k)
      let lead := if s.contains k then k else s.headD k
      let own := if es.contains k then k else lead
      match d.bridged k with
      | some w => ⟨move own, s.map move, own, es.contains k, d.o 0x2810 1 w, [], 0, d.o 0x2810 5 w, d.sourcesOf w⟩
      | none =>
        let m := d.o 0x2810 1 lead
        ⟨move own, s.map move, own, es.contains k, if q ≠ p ∧ m = 2 then 0 else m, s.map (fun e => d.o 0x2810 1 e), d.o 0x2810 4 lead,
          d.o 0x2810 5 lead, s.map (fun e => d.o 0x2810 2 e)⟩

/-- Why a tributary is refused (R119), or none. -/
def Dev.connRefusal (d : Dev) (all : List Conn) (c : Conn) : Option Nat :=
  if !c.here ∨ c.slots.headD c.key ≠ c.key then some 0
  else if c.modes.any (· != c.modes.headD 0) then some 1
  else if c.mode = 1 then
    let first := c.sources.headD 0
    let t := (d.inTribs (d.lineOf (first / 160))).find? (fun t => t.2.1.contains first)
    match t with
    | none => some 2
    | some (_, s, _) => if s.length ≠ c.sources.length then some 3 else if s ≠ c.sources then some 2 else none
  else if c.mode = 2 then
    if all.any (fun x => x.own != c.own && x.own / 160 == c.own / 160 && x.mode == 2 && x.subq == c.subq) then some 4 else none
  else none

/-- The connection with output key `e`. -/
def Dev.connOf (d : Dev) (e : Nat) : Option Conn := (d.plan (d.lineOf (e / 160))).find? (fun c => c.key == e)

/-- The input tributary that a switched connection reads, as the selectors stand. -/
def Dev.connSource (d : Dev) (c : Conn) : Option Nat :=
  if c.mode ≠ 1 ∨ (oget d.plumb.refused c.own).isSome then none
  else
    let (m, k) := d.rxMap (d.selEntry (c.sources.headD 0))
    if m = 0 then none else some (d.selKey k)

/-- An output tributary. -/
def Dev.txTrib (d : Dev) (e : Nat) : TxTrib := mget (dK {}) d.plumb.txTribs e

/-- Replace it. -/
def Dev.setTxTrib (d : Dev) (e : Nat) (x : TxTrib) : Dev := { d with plumb.txTribs := mset (dK {}) d.plumb.txTribs e x }

/-- A receive tributary. -/
def Dev.rxTrib (d : Dev) (e : Nat) : RxTrib := mget (dK {}) d.plumb.rxTribs e

/-- Replace it. -/
def Dev.setRxTrib (d : Dev) (e : Nat) (x : RxTrib) : Dev := { d with plumb.rxTribs := mset (dK {}) d.plumb.rxTribs e x }

/-- A receive line. -/
def Dev.rxLine (d : Dev) (p : Nat) : RxLine := mget (dK {}) d.plumb.rx p

/-- Replace it. -/
def Dev.setRxLine (d : Dev) (p : Nat) (x : RxLine) : Dev := { d with plumb.rx := mset (dK {}) d.plumb.rx p x }

/-- Replace it. -/
def Dev.setTxLine (d : Dev) (p : Nat) (x : TxLine) : Dev := { d with plumb.tx := mset (dK {}) d.plumb.tx p x }

/-- A tributary is in signal fail. -/
def Dev.tribSf (d : Dev) (k : Nat) : Bool := bitOf (d.o 0x2881 1 k) 8

/-- 2831h.01. -/
def Dev.outState (d : Dev) (e : Nat) : Nat :=
  match d.connOf e with
  | none => 0
  | some c =>
    if (oget d.plumb.refused c.own).isSome then 4
    else match c.mode with
      | 1 => match d.connSource c with
        | some k => if d.tribSf k then 5 else if (d.txTrib e).src = some k then 1 else 6
        | none => 6
      | m => m

/-- The fill of a tributary's FIFO in blocks, as time stands (R120; DESIGN CHOICE, log entry 14): the queue runs one frame behind
the line, and the frame in reception counts as far as it has come. -/
def Dev.fifoFill (d : Dev) (now e : Nat) : Int :=
  let t := d.txTrib e
  match t.src with
  | none => 0
  | some k =>
    let r := d.rxTrib k
    let part := min r.count ((now - r.at0) * r.count * 100 / 85903540224)
    (t.fifo.length : Int) + part - (1023 * t.size - 1 : Nat)

/-! ### Packet clients stop (R126, R130) -/

/-- A packet-client tributary stops: its frame on the medium ends, its bounded frames and queues are stranded (R130). -/
def stopTrib (e : Nat) : M Unit := do
  let p := e / 160
  let d ← get
  match oget d.eg.tribTx e with
  | some t =>
    set { d with eg.tribTx := oset d.eg.tribTx e none }
    faultTx t
  | none => pure ()
  strandBounded p (some e)
  let d ← get
  for x in d.yard.queues do
    if x.1 / 128 = p ∧ x.2.any (fun c => c.trib == some e) then
      let _ ← emptyQueue x.1 0xE
  modify fun d => { d with plumb.mapFrames := mset (dK []) d.plumb.mapFrames e [] }

/-! ### Protection (R148 to R156) -/

/-- Output tributaries that no longer read the input they were established from are established anew (R149). -/
def retarget : M Unit := do
  let d ← get
  for x in d.plumb.txTribs do
    match x.2.src, d.connOf x.1 with
    | some k, some c => if d.connSource c ≠ some k then modify (·.setTxTrib x.1 { x.2 with src := none, fifo := [] })
    | some _, none => modify (·.setTxTrib x.1 { x.2 with src := none, fifo := [] })
    | none, _ => pure ()

/-- Request codes of R150. -/
def pgListed (c : Nat) : Bool := [15, 14, 13, 11, 9, 7, 5, 2, 1, 0].contains c

/-- The selector that a request asks for. -/
def pgSelects (c : Nat) : Nat := if [13, 11, 9, 7, 5, 2].contains c then 1 else 0

/-- The far request of a group as it counts (R150, R154). -/
def Dev.pgFar (d : Dev) (g : Nat) : Nat :=
  if !d.oB 0x28C0 4 g || d.o 0x28C1 8 g != 0 || d.pgDefect g (d.o 0x28C0 3 g) 8 || (d.pg g).farDone then 0
  else match (d.pg g).far with
    | some v => let c := v >>> 12; if c = 1 ∨ !pgListed c then 0 else c
    | none => 0

/-- SF and SD of working rise or fall (R151). -/
def Dev.pgConditions (d : Dev) (g : Nat) : PgSt :=
  let x := d.pg g
  let w := d.o 0x28C0 2 g
  let hold := d.o 0x28C0 6 g ≠ 0
  let step := fun (cond raised run : Bool) =>
    if !cond then (false, false) else if raised || run then (raised, run) else if hold then (false, true) else (true, false)
  let (sf, hoSf) := step (d.pgDefect g w 8) x.sf x.hoSf
  let (sd, hoSd) := step (d.pgDefect g w 9) x.sd x.hoSd
  { x with sf, hoSf, sd, hoSd }

/-- The highest local request that is neither wait-to-restore nor do not revert; manual switches give way (R150). -/
def Dev.pgTop (d : Dev) (g : Nat) (x : PgSt) (far : Nat) : PgSt × Nat :=
  let prot := d.o 0x28C0 3 g
  let asks := fun (c : Nat) => x.cmd.contains c || x.pins.any (fun y => y % 16 == c)
  let top := if asks 15 then 15 else if d.pgDefect g prot 8 then 14 else if asks 13 then 13 else if x.sf then 11
    else if x.sd && d.oB 0x28C0 8 g then 9 else 0
  if 7 < top ∨ 7 < far ∨ d.pgDefect g prot 9 then
    ({ x with cmd := x.cmd.filter (· != 7), pins := x.pins.filter (fun y => y % 16 != 7) }, top)
  else (x, if asks 7 then 7 else top)

/-- The selector of group `g` moves to `sel`, from request `was` to request `dec` (R155). -/
def pgSelect (g sel was dec : Nat) : M Unit := do
  let c ← read
  modify fun d => ((d.setPg g { d.pg g with selAt := c.dev }).setO 0x28C1 5 g sel).setO 0x28C1 7 g c.t80
  incO 0x28C1 6 g
  retarget
  raiseEv 473 0x2815 2 g (was * 256 + dec) sel

/-- Evaluate a group (R150 to R153). A revertive group on protect whose working resource has SF or SD that is no request yet, or no request
at all, stays there without one (DEDUCED of "without a revert" in R152, log entry 142). -/
def pgEval (g : Nat) : M Unit := do
  let d ← get
  if d.pgValid g then
    let c ← read
    let far := d.pgFar g
    let (x, top) := d.pgTop g (d.pgConditions g) far
    let prev := d.o 0x28C1 3 g
    let onProtect := d.o 0x28C1 5 g = 1
    let w := d.o 0x28C0 2 g
    let free : Bool := !d.pgDefect g w 8 && !d.pgDefect g w 9
    let wasLocal := pgSelects prev = 1
    let (x, local_) :=
      if top ≠ 0 then ({ x with wtr := none, dnr := false, held := false }, top)
      else if !(onProtect ∧ (wasLocal ∨ x.held)) then ({ x with wtr := none, dnr := false, held := false }, 0)
      else if !d.oB 0x28C0 5 g then ({ x with wtr := none, dnr := true, held := false }, 2)
      else if !free ∨ 5 < far then ({ x with wtr := none, held := true }, 0)
      else if d.o 0x28C0 7 g = 0 then ({ x with wtr := none, held := false }, 0)
      else ({ x with wtr := some (x.wtr.getD c.run), held := false }, 5)
    let dec := max far local_
    let sel := if dec = 0 ∧ x.held then 1 else pgSelects dec
    let st := if d.o 0x28C1 8 g ≠ 0 then 6 else if local_ = 5 then 4 else if local_ = 2 then 5 else 2 + sel
    set ((((d.setPg g { x with dec := dec }).setO 0x28C1 3 g local_).setO 0x28C1 4 g ((x.far.getD 0) >>> 8)).setO 0x28C1 2 g st)
    if sel ≠ d.o 0x28C1 5 g then pgSelect g sel x.dec dec

/-- The groups with a resource, evaluated. -/
def pgTouch (port : Bool) (res : Nat) : M Unit := do
  let d ← get
  for g in d.pgUsed do
    if (if port then d.pgPorts g else d.pgTribs g) && (d.o 0x28C0 2 g == res || d.o 0x28C0 3 g == res) then pgEval g

/-- The bytes a group sends on its protect resource (R153). -/
def Dev.pgBytes (d : Dev) (g : Nat) : Nat × Nat :=
  let local_ := d.o 0x28C1 3 g
  let req := if local_ < d.pgFar g then 1 else local_
  (req * 16 + (if d.pgOneOne g then 8 else 0) + (if d.oB 0x28C0 4 g then 4 else 0) + (if d.oB 0x28C0 5 g then 2 else 0),
    d.o 0x28C1 5 g * 128 + (if d.pgBridge g then 64 else 0))

/-- The group whose bytes a resource carries. -/
def Dev.pgOn (d : Dev) (port : Bool) (res : Nat) : Option Nat :=
  d.pgUsed.find? (fun g => (if port then d.pgPorts g else d.pgTribs g) && d.o 0x28C0 3 g == res)

/-- A received pair of protection bytes, seen for the `n`-th frame in a row without SF of the resource (R154). -/
def pgReceive (port : Bool) (res v n : Nat) : M Unit := do
  let d ← get
  match d.pgOn port res with
  | none => return ()
  | some g =>
    if 3 ≤ n ∧ !d.pgDefect g res 8 ∧ (d.pg g).far ≠ some v then
      set (d.setPg g { d.pg g with far := some v, farDone := false })
      pgEval g

/-- Cause `n` of a protocol failure of a group stands (R154). A unidirectional 1+1 group does not act on received bytes (R153), and none
count while protect has SF. -/
def Dev.pgCause (d : Dev) (g n : Nat) : Bool :=
  match (d.pg g).far with
  | none => false
  | some v =>
    let (a, b) := d.pgBytes g
    (d.pgOneOne g || d.oB 0x28C0 4 g) && !d.pgDefect g (d.o 0x28C0 3 g) 8 &&
      (match n with
       | 1 => fld v 9 3 != fld a 1 3
       | 2 => d.oB 0x28C0 4 g && bitOf v 7 != bitOf b 7
       | 3 => !pgListed (v >>> 12)
       | _ => false)

/-- The first cause that stands, 0 for none. -/
def Dev.pgMismatch (d : Dev) (g : Nat) : Nat := (([1, 2, 3].find? (d.pgCause g)).getD 0)

/-- A cause of a protocol failure, or its absence, has been held for 50 ms (R154). -/
def pgFop (g : Nat) : M Unit := do
  let d ← get
  if d.pgValid g then
    let m := d.pgMismatch g
    let was := d.o 0x28C1 8 g
    if was = 0 ∧ m ≠ 0 then
      setO 0x28C1 8 g m
      pgEval g
      raiseEv 474 0x2816 2 g m (((d.pg g).far.getD 0) >>> 8)
    else if was ≠ 0 ∧ !d.pgCause g was then
      setO 0x28C1 8 g 0
      pgEval g

/-- A group's checks at a swap (R148). -/
def Dev.pgCheck (d : Dev) (g : Nat) : Bool :=
  let t := d.o 0x28C0 1 g
  let w := d.o 0x28C0 2 g
  let p := d.o 0x28C0 3 g
  let port := t ≤ 2
  let other := d.pgUsed.any (fun h => h != g && (decide (d.o 0x28C0 1 h ≤ 2) == port) &&
    ([w, p].contains (d.o 0x28C0 2 h) || [w, p].contains (d.o 0x28C0 3 h)))
  let size := fun (k : Nat) => ((d.entriesOf (d.lineOf (k / 160))).filter (fun e => d.o 0x2810 3 e == k)).length
  let idle := if port then (d.entriesOf [p]).all (fun e => d.o 0x2810 1 e == 0) else d.o 0x2810 1 p == 0
  w != p && !other && (if port then decide (w < 256 ∧ p < 256) && d.slotted w && d.o 0x2400 1 w == d.o 0x2400 1 p
    else decide (w < 40960 ∧ p < 40960) && size w != 0 && size w == size p) && (t % 2 == 1 || idle)

/-- The requests that the asserted pins place on a group (R160): pin × 16 + code. -/
def Dev.pinsOn (d : Dev) (g : Nat) : List Nat :=
  (List.range 8).filterMap fun i =>
    let c := [0, 15, 13, 7].getD (d.o 0x28E1 2 i) 0
    if d.oB 0x28E0 6 i && d.o 0x28E1 1 i == g && c != 0 then some (i * 16 + c) else none

/-- A group starts anew: selector on working, no hold-off, wait-to-restore or command; the asserted pins place their requests (R148,
R155, R160). -/
def pgRestart (g : Nat) : M Unit := do
  let d ← get
  if d.o 0x28C1 5 g = 1 then pgSelect g 0 (d.pg g).dec 0
  modify fun d => (((d.setPg g { pins := d.pinsOn g, selAt := (d.pg g).selAt }).setO 0x28C1 3 g 0).setO 0x28C1 4 g 0).setO 0x28C1 8 g 0

/-- The checks at the swap of a commit that changed groups `changed` (R148). -/
def pgValidate (changed : List Nat) : M Unit := do
  for g in nub (changed ++ (← get).pgUsed) do
    let d ← get
    if d.o 0x28C0 1 g = 0 then
      pgRestart g
      setO 0x28C1 2 g 0
    else if !d.pgCheck g then
      let far := ((d.pg g).far.getD 0) >>> 8
      pgRestart g
      setO 0x28C1 2 g 1
      if changed.contains g ∨ d.o 0x28C1 2 g ≠ 1 then raiseEv 474 0x2816 2 g 4 far
    else if changed.contains g ∨ !d.pgValid g then
      pgRestart g
      setO 0x28C1 2 g 2
      pgEval g
  retarget

/-- A command (R156): the status. -/
def pgCommand (g cmd : Nat) : M Nat := do
  let d ← get
  let x := d.pg g
  let add := fun (c : Nat) => { x with cmd := if x.cmd.contains c then x.cmd else c :: x.cmd }
  if !d.pgValid g then return 0x302
  else match cmd with
    | 0 =>
      set (d.setPg g { x with cmd := [] })
      pgEval g
      return 0
    | 1 =>
      set (d.setPg g (add 15))
      pgEval g
      return 0
    | 2 =>
      set (d.setPg g (add 13))
      pgEval g
      return 0
    | 3 =>
      if 7 < (d.pgTop g (d.pgConditions g) (d.pgFar g)).2 ∨ 7 < d.pgFar g ∨ d.pgDefect g (d.o 0x28C0 3 g) 9 then return 0x302
      else
        set (d.setPg g (add 7))
        pgEval g
        return 0
    | 4 =>
      if !d.oB 0x28C0 5 g ∧ d.o 0x28C1 5 g = 1 ∧ (d.pg g).dec ≤ 2 then
        set ((d.setPg g { x with dnr := false, farDone := true }).setO 0x28C1 3 g 0)
        pgEval g
        return 0
      else return 0x302
    | _ => return 0x302

/-- Pin `i` places or removes its request as its level and its objects 28E1h now say (R160). -/
def pgPin (i : Nat) : M Unit := do
  let d ← get
  for e in d.plumb.groups do
    if e.2.pins.any (fun y => y / 16 == i) then
      modify fun d => d.setPg e.1 { d.pg e.1 with pins := (d.pg e.1).pins.filter (fun y => y / 16 != i) }
      pgEval e.1
  let d ← get
  let g := d.o 0x28E1 1 i
  let new := (d.pinsOn g).filter (fun y => y / 16 == i)
  if new ≠ [] ∧ d.pgValid g then
    set (d.setPg g { d.pg g with pins := new ++ (d.pg g).pins })
    pgEval g

/-- The hold-off ends (R151). -/
def pgHoldoff (g : Nat) : M Unit := do
  let d ← get
  let x := d.pg g
  set (d.setPg g { x with sf := x.sf || x.hoSf, sd := x.sd || x.hoSd, hoSf := false, hoSd := false })
  pgEval g

/-- Wait-to-restore expires (R152). -/
def pgWtrEnd (g : Nat) : M Unit := do
  let d ← get
  if (d.pg g).wtr.isSome then
    set ((d.setPg g { d.pg g with wtr := none }).setO 0x28C1 3 g 0)
    pgEval g

/-! ### Defects (R138, R139) -/

/-- Performance state: lines by port, tributaries at 256 + key. -/
def Dev.pm (d : Dev) (i : Nat) : PmSt := mget (dK {}) d.plumb.pm i

/-- Replace it. -/
def Dev.setPm (d : Dev) (i : Nat) (x : PmSt) : Dev := { d with plumb.pm := mset (dK {}) d.plumb.pm i x }

/-- The defects of a tributary become `v` with SF to be summed: latch, events, groups (R139). -/
def setTribDef (e v : Nat) : M Unit := do
  let d ← get
  let old := d.o 0x2881 1 e
  let sf : Bool := v &&& 0xB8 ≠ 0
  let v := putFld v 8 1 (ofBool sf)
  if v ≠ old then
    let d := (d.setO 0x2881 1 e v).setO 0x2881 2 e (d.o 0x2881 2 e ||| clearBits v old)
    set (if sf then d.setPm (256 + e) { d.pm (256 + e) with sf := true } else d)
    if sf ≠ bitOf old 8 then
      if sf then incO 0x2881 6 e
      else
        for x in d.plumb.txTribs do
          if x.2.src = some e then modify (·.setTxTrib x.1 { x.2 with src := none, fifo := [] })
      raiseEv 471 0x2811 2 e v (ofBool sf)
    pgTouch false e

/-- A line cannot be read: it has SF, or is not aligned (R112, R138). -/
def Dev.lineDown (d : Dev) (p : Nat) : Bool := bitOf (d.o 0x2880 1 p) 8 || d.o 0x2800 1 p != 2

/-- The bonded group of a port is in state 3 or 4 (R138): the formed group it belongs to, else any that names it (DEDUCED, log entry
129). -/
def Dev.bondBad (d : Dev) (p : Nat) : Bool :=
  match d.bondOf p with
  | some g => d.o 0x2850 2 g == 4
  | none => (List.range 31).any (fun g => d.o 0x2850 2 g == 3 && (bondPorts (d.o 0x2850 1 g)).contains p)

/-- SSF of a tributary with slots `s` (R138). -/
def Dev.ssf (d : Dev) (s : List Nat) : Bool :=
  let ports := nub (s.map (· / 160))
  ports.any d.lineDown || ports.any d.bondBad

/-- The parity counts of a line and of its tributaries no longer make a whole window or multiframe: a frame of them fell under LOF or
PHY (R141, R142). -/
def Parity.spoil (x : Parity) : Parity := { x with winBad := true, mf := [], mfFrames := 0, excUnder := 0 }

/-- A tributary misses a frame: no run of frames and no multiframe goes on across it (R138, R142). -/
def RxTrib.gap (x : RxTrib) : RxTrib :=
  { x with bip := none, ais := {}, uneq := {}, rdi := {}, aps := {}, parity := { x.parity with mf := [], mfFrames := 0, excUnder := 0 } }

/-- The tributaries that have a slot on one of `ports` miss a frame. -/
def Dev.gapTribs (d : Dev) (ports : List Nat) : Dev :=
  { d with plumb.rxTribs := d.plumb.rxTribs.map (fun x => if x.2.slots.any (fun s => ports.contains (s / 160)) then (x.1, x.2.gap) else x) }

/-- The counts and runs of line `p` and of the tributaries that have a slot on it are spoilt. -/
def spoilLine (p : Nat) : M Unit := modify fun d =>
  { d.setRxLine p { d.rxLine p with rdi := {}, aps := {}, parity := (d.rxLine p).parity.spoil } with
    plumb.rxTribs := d.plumb.rxTribs.map (fun x =>
      if x.2.slots.any (fun s => s / 160 == p) then (x.1, { x.2.gap with parity := x.2.parity.spoil }) else x) }

/-- SSF of the tributaries of a line is taken anew; tributaries that are no longer mapped have no defects. -/
def ssfUpdate (p : Nat) : M Unit := do
  let d ← get
  let ts := d.inTribs (d.lineOf p)
  for t in ts do
    setTribDef t.1 (setBit ((← get).o 0x2881 1 t.1) 3 (d.ssf t.2.1))

/-- The defects of a line become `v` with SF to be summed. -/
def setLineDef (p v : Nat) : M Unit := do
  let d ← get
  let old := d.o 0x2880 1 p
  let sf : Bool := v &&& 0x87 ≠ 0
  let v := putFld v 8 1 (ofBool sf)
  if v ≠ old then
    let d := (d.setO 0x2880 1 p v).setO 0x2880 2 p (d.o 0x2880 2 p ||| clearBits v old)
    set (if sf then d.setPm p { d.pm p with sf := true } else d)
    if v &&& 3 ≠ 0 then spoilLine p
    if sf ≠ bitOf old 8 then
      if sf then incO 0x2880 6 p
      raiseEv p 0x2810 2 v 0 (ofBool sf)
    pgTouch true p

/-- Alignment of a line is lost, or the line is not slotted. -/
def lineLost (p : Nat) : M Unit := do
  let d ← get
  let st := if d.slotted p then 1 else 0
  if d.o 0x2800 1 p ≠ st then
    set ((d.setO 0x2800 1 p st).setRxLine p { d.rxLine p with cand := none, hist := [], bips := [] })

/-- The causes of a port have changed: PHY of its line (R138). -/
def lineEval (p : Nat) : M Unit := do
  let d ← get
  if d.slotted p then
    let phy : Bool := d.o 0x2440 1 p &&& 0x9E ≠ 0
    if phy ∨ d.o 0x2800 1 p = 0 then lineLost p
    setLineDef p (setBit (d.o 0x2880 1 p) 0 phy)
    ssfUpdate p
  else if d.o 0x2800 1 p ≠ 0 then
    modify fun d => (d.setO 0x2800 1 p 0).setRxLine p {}
    setLineDef p 0
    ssfUpdate p

/-! ### Swaps of connection memory (R119, R122, R123, R126) -/

/-- The input tributary that a connection reads, with its slots. -/
def Dev.sourceOf (d : Dev) (c : Conn) : Option (Nat × List Nat) :=
  (d.connSource c).map (fun k => (k, (((d.inTribs (d.lineOf (k / 160))).find? (fun t => t.1 == k)).map (fun t => t.2.1)).getD []))

/-- Output tributary `c`, whose source was `was`, is established anew; a change of a source that it was established from, or of that
source's slots, is counted and reported (R122). -/
def reestablish (c : Conn) (was : Option (Nat × List Nat)) : M Unit := do
  modify fun d => d.setTxTrib c.key { d.txTrib c.key with src := none, fifo := [] }
  match was with
  | some (k, _) =>
    incO 0x2831 5 c.key
    raiseEv 466 0x2807 1 c.key k ((((← get).sourceOf c).map (·.2.length)).getD 0)
  | none => return ()

/-- The output tributaries of a line are checked and brought in line with the new page; `old` is what they were. A switched tributary whose
source stays continues, though its own slots or its FIFO target change (DESIGN CHOICE, log entry 142). -/
def connSwap (ports : List Nat) (old : List Conn) (oldSrc : List (Nat × Option (Nat × List Nat))) : M Unit := do
  let d ← get
  let new := d.plan ports
  for c in new do
    match d.connRefusal new c with
    | some r =>
      modify fun d => { d with plumb.refused := oset d.plumb.refused c.own (some r) }
      incO 0x2831 6 c.own
      raiseEv 465 0x2805 2 c.own r 0
    | none => modify fun d => { d with plumb.refused := oset d.plumb.refused c.own none }
  let d ← get
  for c in new do
    match old.find? (fun x => x.key == c.key) with
    | some x =>
      if c.mode = 1 ∧ x.mode = 1 ∧ (oget d.plumb.refused c.own).isNone then
        let was := (oldSrc.find? (fun y => y.1 == c.key)).bind (·.2)
        if x.sources ≠ c.sources ∨ was ≠ d.sourceOf c then reestablish c was
      else if c.mode ≠ x.mode then modify fun d => d.setTxTrib c.key {}
    | none => pure ()
  for x in old do
    if x.mode = 2 then
      let stays := new.any (fun c => c.key == x.key && c.mode == 2 && c.subq == x.subq && (oget d.plumb.refused c.own).isNone)
      if !stays then stopTrib x.key
    if !new.any (fun c => c.key == x.key) then modify fun d => d.setTxTrib x.key {}

/-- Refused tributaries whose input map now lets them pass are established (R119). -/
def recheck : M Unit := do
  let d ← get
  for x in d.plumb.refused do
    let all := d.plan (d.lineOf (x.1 / 160))
    match all.find? (fun c => c.own == x.1) with
    | some c => if c.mode = 1 ∧ d.connRefusal all c = none then
        set { (← get) with plumb.refused := oset (← get).plumb.refused x.1 none }
        reestablish c none
    | none => modify fun d => { d with plumb.refused := oset d.plumb.refused x.1 none }

/-- What a line was before a swap. -/
def Dev.connSnap (d : Dev) (ports : List Nat) : List Conn × List (Nat × Option (Nat × List Nat)) :=
  let l := d.plan ports
  (l, l.map (fun c => (c.key, d.sourceOf c)))

/-- A packet client of port `p` that continues, shrinks, and has a bounded frame projected after `now` (R129). -/
def Dev.shrinks (d : Dev) (p now : Nat) : Option Nat :=
  (nub ((d.txSlots 2).filterMap (fun x => if x / 160 = p then some (d.o 0x2810 3 x) else none))).find? fun e =>
    let n := d.tribNewSize e
    !d.tribStops p e && decide (n < d.tribSize e) && (d.fifoT e).any (fun c => decide (now ≤ c.proj))

/-- The connection pages of the ports of a line swap together for the commit of epoch `e`, with what the swaps report (R123, R129,
R132). -/
def pageSwapGo (ports : List Nat) (e : Nat) : M Unit := do
  let d ← get
  let k ← read
  let line := d.lineOf (ports.headD 0)
  let (old, src) := d.connSnap line
  for p in ports do
    let d ← get
    let t := d.txLine p
    match t.deferred with
    | some t0 =>
      raiseEv 464 0x280E 1 p ((k.run - t0) / uUs) t.deferKey
    | none => pure ()
    if t.late ∧ !d.plumb.lateTold then
      modify fun d => { d with plumb.lateTold := true }
      incO 0x2811 4
      raiseEv 464 0x2802 2 e ((k.net - ofT80 (d.newObj 0x2811 2 0)) / uUs) 0
  let trigger := (← get).newObj 0x2811 1 0
  for p in ports do
    modify fun d => (((d.swapPart 0x0A (1 + p) e).partDone 0x0A (1 + p)).setO 0x2800 3 p (1 - d.o 0x2800 3 p)).setTxLine p
      { d.txLine p with since := 0, late := false, deferred := none }
  connSwap line old src
  modify fun d => { d with plumb.swapped := d.plumb.swapped + ports.length }
  let d ← get
  if !d.dict.commits.any (fun c => c.epoch == e && c.left.any (fun x => x.1 == 0x0A && x.2 != 0)) then
    set { d with plumb.swapped := 0, plumb.lateTold := false, plumb.swaps := d.plumb.swaps ++ [(e, trigger, d.plumb.swapped)] }
    cmTell

/-- The swap of a line's page is due: its trigger has come after the announcement, or has been put off to any frame, or the line sends
no frames (R123, R129). -/
def Dev.pageDue (d : Dev) (k : Clock) (p : Nat) : Bool :=
  !(d.slotted p && d.oB 0x2400 2 p) || d.swapFrames k p k.dev == 0

/-- CM_PAGE_SWAP (R123, R129): the members of a bonded group swap at the same frame (R132). -/
def cmPageSwap (p : Nat) : M Unit := do
  let d ← get
  let k ← read
  match d.pendingPart 0x0A (1 + p) with
  | none => return ()
  | some e =>
    let ports := p :: (d.lineOf p).filter (fun q => q != p && d.pendingPart 0x0A (1 + q) == some e)
    if !ports.all (d.pageDue k) then return ()
    if ports.any (fun q => d.slotted q && d.oB 0x2400 2 q && (d.shrinks q k.dev).isSome) then
      let key := (ports.findSome? (d.shrinks · k.dev)).getD 0
      for q in ports do
        modify fun d => d.setTxLine q { d.txLine q with deferred := some ((d.txLine q).deferred.getD k.run), deferKey := key }
    else pageSwapGo ports e

/-- Bonded groups named by a commit are formed, or not (R132); `was` are the members that they had. -/
def bondForm (changed was : List Nat) : M Unit := do
  for g in changed do
    let d ← get
    let l := bondPorts (d.o 0x2850 1 g)
    let bad := l.find? (fun p => decide (256 ≤ p) || d.o 0x2400 1 p != 0x14 || decide (1 < (l.filter (· == p)).length) ||
      (List.range 31).any (fun h => h != g && (bondPorts (d.o 0x2850 1 h)).contains p && d.bondOf p == some h))
    if l = [] then setO 0x2850 2 g 0
    else match bad with
      | some p =>
        setO 0x2850 2 g 3
        raiseEv 467 0x280A 2 (g + 1) p 0
      | none => setO 0x2850 2 g 1
    for p in l do ssfUpdate p
  for p in was do ssfUpdate p

/-! ### Meanings -/

/-- CM_PAGE_SWAP (R123). -/
def execCmPageSwap (p : Nat) (s : State) := run (.cmPageSwap p) (cmPageSwap p) s

/-- PG_HOLDOFF_EXPIRY (R151): no hold-off applies to signal fail on protect. -/
def execPgHoldoffExpiry (g : Nat) (prot : Bool) (s : State) :=
  run (.pgHoldoffExpiry g prot) (do if !prot then pgHoldoff g) s

/-- PG_WTR_EXPIRY (R152). -/
def execPgWtrExpiry (g : Nat) (s : State) := run (.pgWtrExpiry g) (pgWtrEnd g) s

/-- APS_FOP_TIMER (R154). -/
def execApsFopTimer (g : Nat) (s : State) := run (.apsFopTimer g) (pgFop g) s

end Sys2Proof.Machine
end

