-- ==== Sys2Proof/Machine/Plumb.lean ====
section
/-! DEFINITION. Plumb frames (05, 06): reception with alignment, page choice, parity, justification and tributaries; transmission;
data channels and overhead ports; degrade windows; performance seconds and bins. A block is a 66-bit number: the sync header in
[65:64], byte 0 of the payload in [63:56]. -/

namespace Sys2Proof.Machine

/-! ### Blocks -/

/-- Sync header of overhead and filler blocks, and of data. -/
def syncCtl : Nat := 2 <<< 64
def syncDat : Nat := 1 <<< 64

/-- The IEEE 802.3 idle control block (R117). -/
def blkIdle : Nat := syncCtl + 0x1E <<< 56

/-- The IEEE 802.3 local fault ordered set (R117): block type 4Bh, O code 0, fault 01h (PRESUMED of IEEE 802.3, log entry 15). -/
def blkAlarm : Nat := syncCtl + 0x4B <<< 56 + 1 <<< 32

/-- A byte of a block's payload. -/
def blkByte (b i : Nat) : Nat := fld b (56 - 8 * i) 8

/-- Bit-interleaved parity of a payload. -/
def bip8 (b : Nat) : Nat := (List.range 8).foldl (fun a i => a ^^^ blkByte b i) 0

/-- Parity over blocks. -/
def bipOf (l : List Nat) : Nat := bip8 (l.foldl (fun a b => a ^^^ b % 2 ^ 64) 0)

/-- An overhead block of eight bytes. -/
def ohBlock (b : List Nat) : Nat := syncCtl + b.foldl (fun a x => a * 256 + x % 256) 0

/-- The next 64 bits of PRBS31 and its state (x^31 + x^28 + 1). -/
def prbsWord : Nat → Nat → Nat → Nat × Nat
  | 0, st, acc => (acc, st)
  | n + 1, st, acc =>
    let b := (fld st 30 1) ^^^ (fld st 27 1)
    prbsWord n ((st * 2 + b) % 2 ^ 31) (acc * 2 + b)

/-- The blocks of a packet frame of a packet client (R128): start, data, terminate, idle, in the block types of IEEE 802.3. -/
def frameBlocks (f : Bytes) : List Nat :=
  let n := f.length / 8
  let r := f.length % 8
  let start := syncCtl + 0x78 <<< 56 + 0x555555555555D5
  let dat := (List.range n).map (fun k => syncDat + beAt f (8 * k) 8)
  let term := syncCtl + ([0x87, 0x99, 0xAA, 0xB4, 0xCC, 0xD2, 0xE1, 0xFF].getD r 0) <<< 56 + beAt f (8 * n) r <<< (56 - 8 * r)
  start :: dat ++ [term, blkIdle]

/-! ### Positions (R113) -/

/-- Kind of a position of a tributary: 0 overhead, 1 data, 2 first and 3 second justification opportunity. -/
def posKind (r j : Nat) : Nat := if r = 0 ∧ j = 0 then 0 else if r = 1 then 2 else if r = 2 then 3 else 1

/-- A position carries data under justification control `jc` (R115). -/
def posData (jc r j : Nat) : Bool :=
  match posKind r j with
  | 0 => false
  | 2 => jc != 1
  | 3 => jc == 2
  | _ => true

/-- Data blocks of a frame of `g` slots (R115). -/
def jcCount (g jc : Nat) : Nat := match jc with | 1 => 1022 * g - 1 | 2 => 1024 * g - 1 | _ => 1023 * g - 1

/-! ### Parity and degrade (R141, R142) -/

/-- Add lists of counts. -/
def addLists (a b : List Nat) : List Nat :=
  (List.range (max a.length b.length)).map (fun i => a.getD i 0 + b.getD i 0)

/-- A frame's violations by unit enter the counts. -/
def Parity.add (x : Parity) (v : List Nat) : Parity :=
  { x with win := addLists x.win v, winFrames := x.winFrames + 1, mf := addLists x.mf v, mfFrames := x.mfFrames + 1 }

/-- The end of a multiframe: EXC with what it was (R142). -/
def Parity.endMf (x : Parity) (exc : Bool) : Parity × Bool :=
  let high := x.mf.any (fun v => decide (45 * 8 * x.mfFrames ≤ 100 * v ∧ 0 < x.mfFrames))
  let under := if high then 0 else x.excUnder + 1
  ({ x with mf := [], mfFrames := 0, excUnder := under }, high || (exc && decide (under < 2)))

/-- Fixed point with 96 bits: 2 × atanh(z) by its series. -/
def atanh2 : Nat → Nat → Nat → Nat → Nat
  | 0, _, _, acc => acc
  | n + 1, k, p, acc => atanh2 n (k + 2) p (acc + 2 * (p ^ k / 2 ^ (96 * (k - 1))) / k)

/-- −ln(y) in 2^-96 for 0 < y ≤ 1 in 2^-96. -/
def negLn (y : Nat) : Nat :=
  let e := 96 - Nat.log2 y
  let m := y * 2 ^ e        -- in [2^96, 2^97)
  let z := (m - 2 ^ 96) * 2 ^ 96 / (m + 2 ^ 96)
  let ln2 := atanh2 40 1 (2 ^ 96 / 3) 0
  e * ln2 - atanh2 40 1 z 0

/-- The estimate in 10^-12 for `v` violations in `n` frames of a BIP8 over `b` blocks, saturated at FFFFFFFFh (R141). -/
def berEst (v n b : Nat) : Nat :=
  if n = 0 then 0
  else if 8 * n ≤ 2 * v then 0xFFFFFFFF
  else min 0xFFFFFFFF (negLn ((8 * n - 2 * v) * 2 ^ 96 / (8 * n)) * 10 ^ 12 / (16 * b * 2 ^ 96))

/-- The EXC point of a BIP8 over `b` blocks is at or below the threshold 10^-n (R142): ln 10 / (16 b) ≤ 10^-n. -/
def excPointBelow (b n : Nat) : Bool := decide (2302585092994 * 10 ^ n ≤ 16 * b * 10 ^ 12)

/-- A degrade window ends: parity state, the largest estimate, and SD with what it was (R141). `b`: blocks of a BIP8. -/
def Parity.endWin (x : Parity) (b n : Nat) (exc : Bool) : Parity × Option Nat × Bool :=
  if x.winBad ∨ x.winFrames = 0 then
    ({ x with win := [], winFrames := 0, winBad := false, sd := x.sd.map (fun s => (0, 0, s.2.2)) }, none, x.sd.any (fun s => s.2.2))
  else
    let ests := x.win.map (fun v => berEst v x.winFrames b)
    let sd := (List.range ests.length).map fun i =>
      let (o, u, s) := x.sd.getD i (0, 0, false)
      let high := decide (10 ^ (12 - n) < ests.getD i 0)
      let o := if high then o + 1 else 0
      let u := if high then 0 else u + 1
      (o, u, if decide (2 ≤ o) && (exc || !excPointBelow b n) then true else if 2 ≤ u then false else s)
    ({ x with win := [], winFrames := 0, winBad := false, sd := sd }, some (ests.foldl max 0), sd.any (fun s => s.2.2))

/-! ### Data channels (R134, R135) -/

/-- Overhead port `n` passes bytes: enabled and ready (R136). -/
def Dev.ohpOn (d : Dev) (n : Nat) : Bool := d.oB 0x2871 1 n && d.oB 0x2871 2 n

/-- The channel on time slot `t` of an overhead port. -/
def Dev.ohpChannel (d : Dev) (slot : Nat) : Option Nat :=
  ((d.objs.filter (fun e => keyIndex e.1 == 0x2870 && keySub e.1 == 1 && e.2 == 2)).map (fun e => keyInst e.1)).find?
    (fun c => d.o 0x2870 2 c == slot)

/-- Bytes lost at a full buffer of a channel. -/
def dccLost (c n : Nat) : M Unit := do
  if 0 < n then
    addO 0x2870 5 c n
    raiseLim 468 0x280B 1 c c n 0 3

/-- Bytes received on a data channel. -/
def dccReceive (p : Nat) (b : Bytes) : M Unit := do
  addO 0x2870 3 p b.length
  let d ← get
  if d.o 0x2870 1 p = 2 ∧ d.ohpOn (d.o 0x2870 2 p / 4) then
    let cur := mget (dK []) d.plumb.dccIn p
    let room := 64 - cur.length
    set { d with plumb.dccIn := mset (dK []) d.plumb.dccIn p (cur ++ b.take room) }
    dccLost p (b.length - room)

/-- The next `n` bytes to send on a data channel: 7Eh where there is none. -/
def dccTake (p n : Nat) : M Bytes := do
  let d ← get
  let pad := fun (b : Bytes) => b ++ List.replicate (n - b.length) 0x7E#8
  let b ← match d.o 0x2870 1 p with
    | 1 => do
      let q := mget (dK []) d.plumb.dccMgmt p
      set { d with plumb.dccMgmt := mset (dK []) d.plumb.dccMgmt p (q.drop n) }
      pure (pad (q.take n))
    | 2 =>
      if d.ohpOn (d.o 0x2870 2 p / 4) then do
        let q := mget (dK []) d.plumb.dccOut p
        set { d with plumb.dccOut := mset (dK []) d.plumb.dccOut p (q.drop n) }
        pure (pad (q.take n))
      else pure (pad [])
    | _ => pure (pad [])
  addO 0x2870 4 p (b.filter (· ≠ 0x7E#8)).length
  return b

/-- OHP_FRAME (R135): channel bytes move both ways on overhead port `n`. -/
def ohpFrame (n : Nat) (rx : Bytes) : M Unit := do
  let mut tx : Bytes := []
  for t in List.range 4 do
    let d ← get
    let on := d.ohpOn n
    match d.ohpChannel (4 * n + t) with
    | some c =>
      let q := mget (dK []) d.plumb.dccIn c
      let out := if on then q.take 16 else []
      set { d with plumb.dccIn := mset (dK []) d.plumb.dccIn c (if on then q.drop 16 else []) }
      tx := tx ++ BitVec.ofNat 8 out.length :: out ++ List.replicate (16 - out.length) 0xFF#8
      let got := if on then (slice rx (17 * t + 1) (min 16 (byteAt rx (17 * t)))) else []
      let d ← get
      let cur := mget (dK []) d.plumb.dccOut c
      let room := 64 - cur.length
      set { d with plumb.dccOut := mset (dK []) d.plumb.dccOut c (if on then cur ++ got.take room else []) }
      dccLost c (got.length - room)
    | none => tx := tx ++ 0#8 :: List.replicate 16 0xFF#8
  emit (.ohp n (tx ++ List.replicate 12 0xFF#8))

/-! ### Reception -/

/-- A run of equal observations. -/
def Seen.next (x : Seen) (v : Nat) : Seen := if x.val = v ∧ x.n ≠ 0 then { x with n := x.n + 1 } else ⟨v, 1⟩

/-- A defect bit after `n` frames in a row of an observation (R138). -/
def Seen.bit (x : Seen) (n : Nat) (was : Bool) : Bool := if n ≤ x.n then x.val == 1 else was

/-- Push data blocks into the FIFOs of the outputs that read input tributary `k` (R120). -/
def fifoPush (k : Nat) (l : List Nat) : M Unit := do
  let d ← get
  for x in d.plumb.txTribs do
    if x.2.src = some k then modify (·.setTxTrib x.1 { x.2 with fifo := x.2.fifo ++ l })

/-- The test checker takes the data blocks of a frame (R117). -/
def testCheck (e : Nat) (l : List Nat) : M Unit := do
  for b in l do
    let d ← get
    let r := d.rxTrib e
    let w := b % 2 ^ 64
    let ok : Bool := match r.prbs with | some st => b / 2 ^ 64 == 1 && (prbsWord 64 st 0).1 == w | none => false
    if d.oB 0x2834 1 e then
      if !ok then incO 0x2834 2 e
      modify fun d => d.setRxTrib e { r with prbs := r.prbs.map (fun st => (prbsWord 64 st 0).2) }
    else
      let n := if ok then r.good + 1 else 0
      set (d.setRxTrib e { r with prbs := some (w % 2 ^ 31), good := n })
      if n = 64 then setO 0x2834 1 e 1

/-- One frame of an input tributary: `at_` gives the block at a round and a slot number of the tributary (R114, R115, R138). `bad`:
a line unit that carries one of its slots showed a violation. -/
def tribFrame (e : Nat) (slots : List Nat) (mode : Nat) (at_ : Nat → Nat → Nat) (bad lastMf : Bool) : M Unit := do
  let now ← devNow
  let d ← get
  let g := slots.length
  let r := d.rxTrib e
  let same := decide (r.slots = slots ∧ r.mode = mode)
  -- the window in which a tributary begins is not a complete one (DEDUCED, log entry 142)
  let r := if same then r else { slots := slots, mode := mode, parity := { winBad := true } }
  let d := if same then d else d.setO 0x2834 1 e 0
  let oh := at_ 0 0
  let c1 := blkByte oh 1 / 64
  let c2 := blkByte oh 3 / 64
  let c3 := blkByte oh 6 / 64
  let (vote, amb) := if c1 = c2 ∨ c1 = c3 then (c1, false) else if c2 = c3 then (c2, false) else (0, true)
  let jc := if vote = 3 then 0 else vote
  let sl := blkByte oh 0
  let size := blkByte oh 7
  set ((d.setO 0x2830 1 e sl).setO 0x2830 2 e size)
  if amb then
    incO 0x2830 5 e
    raiseLim 465 0x2808 1 e e 0 0 3
  if vote = 3 then
    incO 0x2830 6 e
    raiseLim 465 0x2808 1 e e 1 0 3
  if jc = 1 then incO 0x2830 3 e
  if jc = 2 then incO 0x2830 4 e
  if size ≠ g then incO 0x2830 7 e
  let pos := (List.range 1024).flatMap (fun x => (List.range g).map (fun j => (x, j)))
  let data := (pos.filter (fun x => posData jc x.1 x.2)).map (fun x => at_ x.1 x.2)
  let all := (pos.filter (fun x => x.1 ≠ 0 ∨ x.2 ≠ 0)).map (fun x => at_ x.1 x.2)
  let viol := match r.bip with | some b => popcount 8 (b ^^^ blkByte oh 2) | none => 0
  addO 0x2881 3 e viol
  let was := (← get).o 0x2881 1 e
  let ais := r.ais.next (fld (blkByte oh 1) 4 1)
  let uneq := r.uneq.next (if sl = 0 then 1 else 0)
  let rdi := r.rdi.next (fld (blkByte oh 1) 5 1)
  let aps := if bitOf was 8 then {} else r.aps.next (blkByte oh 4 * 256 + blkByte oh 5)
  let par := r.parity.add [viol]
  let (par, exc) := if lastMf then par.endMf (bitOf was 7) else (par, bitOf was 7)
  modify fun d => d.setRxTrib e { r with
    bip := some (bipOf all), label := some sl, ais, uneq, rdi, aps, parity := par, at0 := now, count := data.length }
  modify fun d => d.setPm (256 + e) { d.pm (256 + e) with
    frames := (d.pm (256 + e)).frames + 1, errored := (d.pm (256 + e)).errored + (if bad || viol != 0 then 1 else 0) }
  setTribDef e (setBit (setBit (setBit (setBit was 4 (ais.bit 3 (bitOf was 4))) 5 (uneq.bit 3 (bitOf was 5)))
    6 (rdi.bit 5 (bitOf was 6))) 7 exc)
  if !(← get).tribSf e then
    pgReceive false e aps.val aps.n
    fifoPush e data
  match mode with
  | 2 => if sl ≠ 1 ∧ sl ≠ 2 ∧ r.label ≠ some sl then raiseEv 469 0x280C 2 e sl 0
  | 3 => if sl = 3 then testCheck e data
  | _ => return ()

/-- The tributaries of a line whose frames have all come: `frames` gives each member's blocks. -/
def lineTribs (ports : List Nat) (frames : List (Nat × Array Nat)) (lastMf : Bool) : M Unit := do
  let d ← get
  for t in d.inTribs ports do
    let d ← get
    let (e, slots, mode) := t
    -- under LOM or EXC alone the line still brings the frame (R138); a member without alignment fails the tributaries it carries (R133)
    if slots.all (fun x => d.o 0x2800 1 (x / 160) == 2 && frames.any (fun f => f.1 == x / 160)) then
      let sl := slots.toArray
      let at_ := fun (r j : Nat) =>
        let x := sl.getD j 0
        match frames.find? (fun f => f.1 == x / 160) with
        | some f => let n := d.slotsOf f.1; f.2.getD (n / 20 + r * n + x % 160) 0
        | none => 0
      let bad := slots.any (fun x => (d.rxLine (x / 160)).errored)
      tribFrame e slots mode at_ bad lastMf

/-- The skew of bonded group `g` is `skew` ns, member `p` having come first (R133). -/
def bondSkew (g p skew : Nat) : M Unit := do
  setO 0x2850 3 g skew
  let st ← getO 0x2850 2 g
  if 6000 < skew then
    if st ≠ 4 then
      setO 0x2850 2 g 4
      incO 0x2850 4 g
      raiseEv 467 0x2809 2 (g + 1) p skew
      ssfUpdate p
  else if st ≠ 2 then
    setO 0x2850 2 g 2
    ssfUpdate p

/-- The frames of one number have come on every aligned member of bonded group `g`: they are read together, unless the skew is exceeded
(R133). -/
def bondTogether (g : Nat) (l : List (Nat × Nat × Nat × List Nat)) : M Unit := do
  let d ← get
  let times := l.map (fun x => x.2.2.1)
  let now ← devNow
  let start := times.foldl min now
  bondSkew g (((l.find? (fun x => x.2.2.1 == start)).map (·.1)).getD 0) ((times.foldl max 0 - start) / uNs)
  if (← getO 0x2850 2 g) ≠ 2 then modify (·.gapTribs (bondPorts (d.o 0x2850 1 g)))
  else
    lineTribs (bondPorts (d.o 0x2850 1 g)) (l.map (fun x => (x.1, x.2.2.2.toArray))) ((l.map (fun x => x.2.1)).headD 0 == 31)

/-- The frames that wait in a bonded group are read together, oldest number first, as far as every aligned member has brought them. -/
def bondDrain (g : Nat) : Nat → M Unit
  | 0 => return ()
  | fuel + 1 => do
    let d ← get
    let live := (bondPorts (d.o 0x2850 1 g)).filter (fun q => d.o 0x2800 1 q == 2)
    let l := (mget (dK []) d.plumb.bonded g).filter (fun x => live.contains x.1)
    match (nub (l.map (fun x => x.2.1))).find? (fun n => live.all (fun q => l.any (fun x => x.1 == q && x.2.1 == n))) with
    | none => set { d with plumb.bonded := mset (dK []) d.plumb.bonded g l }
    | some n =>
      -- what came before on the same member has no partner any more
      let rest := live.flatMap (fun q => (((l.filter (fun x => x.1 == q)).dropWhile (fun x => x.2.1 != n))).drop 1)
      let dropped := live.filter (fun q => ((l.find? (fun x => x.1 == q)).map (·.2.1)) != some n)
      set ({ d with plumb.bonded := mset (dK []) d.plumb.bonded g rest }.gapTribs dropped)
      bondTogether g (live.filterMap (fun q => l.find? (fun x => x.1 == q && x.2.1 == n)))
      bondDrain g fuel

/-- A bonded member's frame: kept until every aligned member has brought its frame of the same number. A member that brings a second
frame meanwhile leads by more than the limit (R133). -/
def bondFrame (g p mfn : Nat) (blocks : List Nat) : M Unit := do
  let now ← devNow
  modify fun d => { d with plumb.bonded := mset (dK []) d.plumb.bonded g (mget (dK []) d.plumb.bonded g ++ [(p, mfn, now, blocks)]) }
  bondDrain g 32
  let mine := (mget (dK []) (← get).plumb.bonded g).filter (fun x => x.1 == p)
  match mine with
  | x :: _ :: _ =>
    bondSkew g p ((now - x.2.2.1) / uNs)
    let d ← get
    let rest := (mget (dK []) d.plumb.bonded g).filter (fun y => y.1 != p) ++ mine.drop (mine.length - 31)
    set { d with plumb.bonded := mset (dK []) d.plumb.bonded g rest }
  | _ => return ()

/-- Output tributaries that read an input of line `ports`, with their sources as they stand. -/
def Dev.readers (d : Dev) (ports : List Nat) : List (Conn × Option (Nat × List Nat)) :=
  d.plumb.txTribs.filterMap fun x =>
    match x.2.src, d.connOf x.1 with
    | some k, some c => if ports.contains (k / 160) then some (c, d.sourceOf c) else none
    | _, _ => none

/-- The receive page of a line changes (R125, R126): tributaries that differ start anew, and switched tributaries whose source changes,
or whose source changes its slots, are established anew (R122). -/
def rxPageSet (p page : Nat) : M Unit := do
  let d ← get
  let ports := d.lineOf p
  let old := d.inTribs ports
  let readers := d.readers ports
  setO 0x2800 2 p page
  let d ← get
  let new := d.inTribs ports
  for t in old do
    if !new.contains t then
      setO 0x2834 1 t.1 0
      modify fun d => { d.setRxTrib t.1 {} with
        plumb.pm := mset (dK {}) d.plumb.pm (256 + t.1) (let x := d.pm (256 + t.1);
          { x with cur15 := { x.cur15 with suspect := true }, cur24 := { x.cur24 with suspect := true } }) }
      if !new.any (fun x => x.1 == t.1) then setTribDef t.1 0
  ssfUpdate p
  for x in readers do
    if (← get).sourceOf x.1 ≠ x.2 then reestablish x.1 x.2
  recheck

/-- The page of an aligned frame is chosen (R125). -/
def rxPage (p page : Nat) (ann : Bool) : M Unit := do
  let d ← get
  let l := d.rxLine p
  let h := l.hist
  if page ≠ d.o 0x2800 2 p then
    if 5 ≤ (h.filter (·.2)).length then rxPageSet p page
    else if h.length ≥ 2 ∧ (h.take 2).all (fun x => x.1 == page) then
      rxPageSet p page
      incO 0x2800 5 p
      raiseEv 464 0x2804 2 p page 0
    else
      incO 0x2800 4 p
      raiseLim 464 0x2803 1 p p page 0 3
  modify fun d => d.setRxLine p { d.rxLine p with hist := ((page, ann) :: h).take 8 }

/-- Whether the unit blocks of a frame carry their alignment bytes, and its multiframe number (R112). -/
def frameHead (k : Nat) (b : Array Nat) : Bool × Bool × Nat :=
  let x := b.getD 0 0
  let ok := fun (u : Nat) => let y := b.getD u 0; y / 2 ^ 64 == 2 && blkByte y 0 == 0xC6 && blkByte y 1 / 32 == u
  let m := blkByte x 1 % 32
  (ok 0, (List.range k).all (fun u => ok u && blkByte (b.getD u 0) 1 % 32 == m), m)

/-- BIP8 of each unit over a frame (R111). -/
def unitBips (k : Nat) (b : Array Nat) : List Nat :=
  let n := 20 * k
  (List.range k).map fun u =>
    bipOf (b.getD u 0 :: (List.range 1024).flatMap (fun r => (List.range 20).map (fun s => b.getD (k + r * n + 20 * u + s) 0)))

/-- A frame of a line that is searching (R112). -/
def searchFrame (p k : Nat) (b : Array Nat) : M Unit := do
  let d ← get
  let l := d.rxLine p
  let (ok, all, m) := frameHead k b
  if ok ∧ all ∧ l.cand = some ((m + 31) % 32) then
    set ((d.setO 0x2800 1 p 2).setRxLine p { l with cand := none, miss := 0, lomBad := 0, lomOk := 0, mfn := m, hist := [], bips := unitBips k b })
    setLineDef p (setBit (d.o 0x2880 1 p) 1 false)
    ssfUpdate p
    -- a connection sent on the line is established anew (R121); one that reads it is, when its signal fail ends
    modify fun d => { d with plumb.txTribs := d.plumb.txTribs.map (fun x =>
      if (d.lineOf p).contains (x.1 / 160) then (x.1, { x.2 with src := none, fifo := [] }) else x) }
  else set (d.setRxLine p { l with cand := if ok ∧ all then some m else none })

/-- A frame of an aligned line. -/
def alignedFrame (p k : Nat) (blocks : List Nat) (b : Array Nat) : M Unit := do
  let d ← get
  let l := d.rxLine p
  let (ok, _, m) := frameHead k b
  let expect := (l.mfn + 1) % 32
  let miss := if ok then 0 else l.miss + 1
  if 3 ≤ miss then
    set (d.setRxLine p { l with miss := 0 })
    setLineDef p (setBit (d.o 0x2880 1 p) 1 true)
    lineLost p
    ssfUpdate p
  else
    let lom := bitOf (d.o 0x2880 1 p) 2
    let bad := if ok ∧ m ≠ expect then l.lomBad + 1 else 0
    let good := if ok ∧ l.miss = 0 ∧ m = (l.mfn + 1) % 32 then l.lomOk + 1 else 0
    let lom' : Bool := if lom then decide (good < 1) else decide (3 ≤ bad)
    -- while LOM is being counted, the expected number runs on; once it holds, the received numbers are followed
    let next := if ok ∧ (lom' || m == expect) then m else expect
    let viols := (List.range k).map (fun u => match l.bips[u]? with
      | some x => popcount 8 (x ^^^ blkByte (b.getD u 0) 2) | none => 0)
    let errored : Bool := viols.any (· != 0)
    addO 0x2880 3 p (viols.foldl (· + ·) 0)
    let was := (← get).o 0x2880 1 p
    let par := l.parity.add viols
    let (par, exc) := if next = 31 then par.endMf (bitOf was 7) else (par, bitOf was 7)
    let st := blkByte (b.getD 0 0) 5
    let rdi := if ok then l.rdi.next (fld st 5 1) else {}
    let aps := if bitOf was 8 ∨ !ok then {} else l.aps.next (blkByte (b.getD 0 0) 6 * 256 + blkByte (b.getD 0 0) 7)
    modify fun d => d.setRxLine p { l with
      miss := miss, lomBad := bad, lomOk := good, mfn := next, bips := unitBips k b, rdi, aps, parity := par, errored }
    modify fun d => d.setPm p { d.pm p with
      frames := (d.pm p).frames + 1, errored := (d.pm p).errored + (if errored then 1 else 0) }
    setLineDef p (setBit (setBit (setBit was 2 lom') 6 (rdi.bit 5 (bitOf was 6))) 7 exc)
    if bitOf was 8 ≠ bitOf ((← get).o 0x2880 1 p) 8 then ssfUpdate p
    dccReceive p ((List.range k).flatMap (fun u =>
      let x := b.getD u 0; if x / 2 ^ 64 = 2 then [BitVec.ofNat 8 (blkByte x 3), BitVec.ofNat 8 (blkByte x 4)] else []))
    if ok then
      pgReceive true p aps.val aps.n
      rxPage p (fld st 7 1) (bitOf st 6)
    match (← get).bondOf p with
    | some g => bondFrame g p next blocks
    | none => lineTribs [p] [(p, b)] (next == 31)

/-- PLUMB_FRAME_RX: the frame at the expected position of a slotted port. -/
def plumbRx (p : Nat) (blocks : List Nat) : M Unit := do
  let d ← get
  if d.slotted p ∧ d.oB 0x2400 2 p ∧ d.o 0x2400 3 p ≠ 6 ∧ d.o 0x2400 3 p ≠ 7 then
    let k := d.slotsOf p / 20
    let b := blocks.toArray
    if bitOf (d.o 0x2880 1 p) 0 then return ()
    else if d.o 0x2800 1 p = 2 then alignedFrame p k blocks b
    else searchFrame p k b

/-! ### Transmission -/

/-- The transmit PHY and receive PHY terms of R68 in ns, by rate. -/
def phyRx (gb : Nat) : Nat := match gb with | 100 => 300 | 200 => 170 | 400 => 120 | _ => 95
def phyTx (gb : Nat) : Nat := match gb with | 100 => 310 | 200 => 175 | 400 => 125 | _ => 100

/-- Establish a switched output tributary from input `k` (R121). -/
def establish (c : Conn) (k : Nat) : M Unit := do
  let now ← devNow
  let phase ← fresh
  let d ← get
  let g := c.slots.length
  let r := d.rxTrib k
  let part := min r.count ((now - r.at0) * r.count * 100 / 85903540224)
  let base := (phyRx (d.rate (k / 160)) + 160 + 120 + phyTx (d.rate (c.key / 160))) * 10 + c.target * 128
  set (d.setTxTrib c.key { d.txTrib c.key with
    src := some k, size := g, fifo := List.replicate (c.target * g + (1023 * g - 1) - part) blkIdle
    delay := ceilDiv base 10 + phase % 13 })

/-- The justification control of a switched output tributary, and the blocks it sends (R120). -/
def fifoDraw (c : Conn) : M (Nat × List Nat) := do
  let now ← devNow
  let d ← get
  let g := c.slots.length
  let fill := d.fifoFill now c.key
  let aim : Int := c.target * g
  let slip := fun (kind : Nat) => do
    incO 0x2831 4 c.key
    raiseEv 466 0x2806 2 c.key kind (c.target * g)
    let t := (← get).txTrib c.key
    let x := t.fifo
    modify fun d => d.setTxTrib c.key { t with
      fifo := if fill < aim then List.replicate (aim - fill).toNat blkIdle ++ x else x.drop (fill - aim).toNat }
  if fill ≤ 0 then slip 0
  else if (128 * g : Int) ≤ fill then slip 1
  let d ← get
  let t := d.txTrib c.key
  let e := d.fifoFill now c.key - aim
  let jc := if (g : Int) ≤ e then 2 else if e ≤ -(g : Int) then 1 else 0
  let n := jcCount g jc
  set (d.setTxTrib c.key { t with fifo := t.fifo.drop n })
  return (jc, t.fifo.take n ++ List.replicate (n - t.fifo.length) blkIdle)

/-- Blocks of packet frames for a packet client, `n` of them; idle where no frame is ready (R128). -/
def mapDraw (e n : Nat) : Nat → List Nat → M (List Nat)
  | 0, acc => return acc ++ List.replicate (n - acc.length) blkIdle
  | fuel + 1, acc => do
    let d ← get
    let t := d.txTrib e
    if n ≤ acc.length then return acc
    else if t.blocks ≠ [] then
      let k := n - acc.length
      set (d.setTxTrib e { t with blocks := t.blocks.drop k })
      mapDraw e n fuel (acc ++ t.blocks.take k)
    else match mget (dK []) d.plumb.mapFrames e with
      | f :: rest =>
        set { d.setTxTrib e { t with blocks := frameBlocks f } with plumb.mapFrames := mset (dK []) d.plumb.mapFrames e rest }
        mapDraw e n fuel acc
      | [] => return acc ++ List.replicate (n - acc.length) blkIdle

/-- The test pattern: `n` blocks from a state. -/
def testDraw : Nat → Nat → List Nat → List Nat × Nat
  | 0, st, acc => (acc.reverse, st)
  | n + 1, st, acc => let (w, s) := prbsWord 64 st 0; testDraw n s ((syncDat + w) :: acc)

/-- One frame of an output tributary: its blocks in round order (R113, R114). -/
def tribSend (c : Conn) : M (Array Nat) := do
  let d ← get
  let g := c.slots.length
  let refused := (oget d.plumb.refused c.own).isSome
  let n0 := jcCount g 0
  let src := d.connSource c
  let (sl, ais, jc, data) ←
    if refused then pure (0, true, 0, List.replicate n0 blkAlarm)
    else match c.mode with
      | 1 => match src with
        | none => pure (0, false, 0, List.replicate n0 blkIdle)
        | some k => do
          let sl := (d.rxTrib k).label.getD 0
          if d.tribSf k then pure (sl, true, 0, List.replicate n0 blkAlarm)
          else do
            if (d.txTrib c.key).src ≠ some k then
              if (d.rxTrib k).count ≠ 0 then establish c k
            if (← get).txTrib c.key |>.src.isSome then do
              let (jc, l) ← fifoDraw c
              pure (sl, false, jc, l)
            else pure (sl, false, 0, List.replicate n0 blkIdle)
      | 2 => do
        let l ← mapDraw c.key n0 (2 * n0 + 2) []
        pure (2, false, 0, l)
      | 3 => do
        let (l, st) := testDraw n0 (d.txTrib c.key).prbs []
        modify fun d => d.setTxTrib c.key { d.txTrib c.key with prbs := st }
        pure (3, false, 0, l)
      | _ => pure (0, false, 0, List.replicate n0 blkIdle)
  let d ← get
  let rdi := (d.rxMap c.key).1 != 0 && (d.inTribs (d.lineOf (c.key / 160))).any (fun x => x.1 == c.key) && d.tribSf c.key
  let (a1, a2) := match d.pgOn false c.key with | some q => d.pgBytes q | none => (0, 0)
  -- the parity of the tributary's slots in the last frame, without the block of its overhead (R114)
  let par := fun (e : Nat) => (d.txLine (e / 160)).slotBips.getD (e % 160) (0, 0)
  let bip := c.slots.foldl (fun a e => a ^^^ (par e).1) (par c.key).2
  let oh := ohBlock [sl, jc * 64 + (if rdi then 32 else 0) + (if ais then 16 else 0), bip, jc * 64, a1, a2, jc * 64, g]
  let arr := data.toArray
  let place := (List.range 1024).foldl (fun (acc : Array Nat × Nat) r =>
    (List.range g).foldl (fun (acc : Array Nat × Nat) j =>
      if r = 0 ∧ j = 0 then (acc.1.push oh, acc.2)
      else if posData jc r j then (acc.1.push (arr.getD acc.2 blkIdle), acc.2 + 1)
      else (acc.1.push blkIdle, acc.2)) acc) (#[], 0)
  return place.1

/-- The frame of a line's member is put together (R109, R111); `tribs` gives each tributary's slots and blocks. -/
def memberFrame (p : Nat) (tribs : List (List Nat × Array Nat)) : M Unit := do
  let c ← read
  let d ← get
  let n := d.slotsOf p
  let k := n / 20
  let t := d.txLine p
  let dcc ← dccTake p (2 * k)
  let d ← get
  let pending := d.pageSwapPending p
  let ann : Bool := pending && decide (d.swapFrames c p c.dev ≤ 8)
  let bonded := d.bondOf p
  let status := d.o 0x2800 3 p * 128 + (if ann then 64 else 0) + (if bitOf (d.o 0x2880 1 p) 8 then 32 else 0) +
    (if bonded.isSome then 16 else 0)
  let (a1, a2) := match d.pgOn true p with | some q => d.pgBytes q | none => (0, 0)
  let bond := match bonded with
    | some g => ((bondPorts (d.o 0x2850 1 g)).idxOf p) * 32 + (g + 1)
    | none => 0
  let unit := fun (u : Nat) => ohBlock [0xC6, u * 32 + t.mfn, t.bips.getD u 0, byteAt dcc (2 * u), byteAt dcc (2 * u + 1), status,
    (if u = 1 ∧ bonded.isSome then bond else a1), a2]
  let where_ := (List.range n).map fun s =>
    match tribs.find? (fun x => x.1.contains (p * 160 + s)) with
    | some x => (x.1.length, x.1.idxOf (p * 160 + s), x.2)
    | none => (0, 0, #[])
  let body := (List.range 1024).flatMap (fun r => where_.map (fun x => if x.1 = 0 then blkIdle else x.2.2.getD (r * x.1 + x.2.1) blkIdle))
  let blocks := (List.range k).map unit ++ body
  let late : Bool := pending && d.newObj 0x2811 1 0 == 1 && decide (ofT80 (d.newObj 0x2811 2 0) ≤ c.net ∧ t.since < 8)
  let arr := blocks.toArray
  let slotBips := (List.range n).map fun s =>
    (bipOf ((List.range 1024).map (fun r => arr.getD (k + r * n + s) 0)), bip8 (arr.getD (k + s) 0))
  set (d.setTxLine p { t with
    mfn := (t.mfn + 1) % 32, bips := unitBips k arr, slotBips, at0 := c.dev, since := if pending then t.since + 1 else 0
    late := t.late || late })
  emit (.plumb p blocks)

/-- A slotted port sends frames: it is enabled, its transmitter runs and its mode does not change. -/
def Dev.plumbSends (d : Dev) (p : Nat) : Bool := d.slotted p && !d.txStopped p && d.oB 0x2400 2 p && d.o 0x2400 3 p != 7

/-- PLUMB_FRAME_TX: a slotted line sends its frame; a bonded group sends those of all its members that send with the first of them
(R132). -/
def plumbTx (p : Nat) : M Unit := do
  let d ← get
  if d.plumbSends p then
    let ports := d.lineOf p
    let live := ports.filter d.plumbSends
    if live.headD p = p then
      let mut out : List (List Nat × Array Nat) := []
      for c in d.plan ports do
        let a ← tribSend c
        out := out ++ [(c.slots, a)]
      for q in live do memberFrame q out

/-- Objects of these chapters whose value is computed. -/
def Dev.plumbObj (d : Dev) (c : Clock) (ix sub i : Nat) : Option Nat :=
  let pm := fun (x : PmSt) =>
    match sub with
    | 1 => some x.cur15.es | 2 => some x.cur15.ses | 3 => some x.cur15.uas
    | 4 => some x.cur24.es | 5 => some x.cur24.ses | 6 => some x.cur24.uas
    | 7 => some (ofBool x.cur15.suspect + 2 * ofBool x.cur24.suspect)
    | _ => none
  match ix, sub with
  | 0x2831, 1 => some (d.outState i)
  | 0x2831, 2 => some (if (d.txTrib i).src.isSome then (d.txTrib i).delay else 0)
  | 0x2831, 3 => some (min 65535 (d.fifoFill c.dev i).toNat)
  | 0x28C1, 9 => some (match (d.pg i).wtr with
    | some t => ceilDiv (d.o 0x28C0 7 i * uS - (c.run - t)) uS
    | none => 0)
  | 0x2890, _ => pm (d.pm i)
  | 0x28A0, _ => pm (d.pm (256 + i))
  | _, _ => none

/-! ### Degrade windows and performance (R141 to R147) -/

/-- BER_WINDOW_END. -/
def berWindowEnd (trib : Bool) (id : Nat) : M Unit := do
  let d ← get
  let ix := if trib then 0x2881 else 0x2880
  let n := d.o ix 5 id
  let was := d.o ix 1 id
  let r := d.rxTrib id
  let par := if trib then r.parity else (d.rxLine id).parity
  let b := if trib then 1024 * r.slots.length - 1 else 20481
  let (par, est, sd) := par.endWin b n (bitOf was 7)
  -- a window that begins while LOF or PHY holds contains such frames
  let gone := (if trib then nub (r.slots.map (· / 160)) else [id]).any (fun p => d.o 0x2880 1 p &&& 3 != 0)
  let par := if gone then par.spoil else par
  set (if trib then d.setRxTrib id { r with parity := par } else d.setRxLine id { d.rxLine id with parity := par })
  match est with
  | some x => setO ix 4 id x
  | none => pure ()
  let now := setBit was 9 sd
  if trib then setTribDef id now else setLineDef id now
  if sd ∧ !bitOf was 9 then raiseEv (if trib then 471 else id) 0x2812 1 id (est.getD 0) n

/-- A bin's counters by number: 1 ES, 2 SES, 3 UAS. -/
def PmBin.cnt (b : PmBin) : Nat → Nat
  | 1 => b.es | 2 => b.ses | _ => b.uas

/-- Move one second in a bin from one counter to another (0 for none). -/
def PmBin.move (b : PmBin) (from_ dst : Nat) : PmBin :=
  let b := match from_ with
    | 1 => { b with es := b.es - 1 } | 2 => { b with ses := b.ses - 1 } | 3 => { b with uas := b.uas - 1 } | _ => b
  match dst with
  | 1 => { b with es := b.es + 1 } | 2 => { b with ses := b.ses + 1 } | 3 => { b with uas := b.uas + 1 } | _ => b

/-- Thresholds newly reached in a bin (R147): `th` gives the threshold of counter 1, 2, 3; `base` is 0 or 3. -/
def binTell (i base thBase : Nat) (b : PmBin) : M PmBin := do
  let mut out := b
  for k in [1, 2, 3] do
    let th ← getO 0x2893 (thBase + base + k)
    if th ≠ 0 ∧ th ≤ b.cnt k ∧ !out.told.contains k then
      out := { out with told := k :: out.told }
      raiseEv 472 0x2813 1 (if i < 256 then i else i - 256) (base + k) (b.cnt k)
  return out

/-- A second is moved in the bins it was counted in. -/
def PmSt.moveSec (x : PmSt) (s : PmSec) (from_ dst : Nat) : PmSt :=
  let x := if s.now15 then { x with cur15 := x.cur15.move from_ dst } else { x with old15 := x.old15.map (fun b => (b.1.move from_ dst, b.2)) }
  if s.now24 then { x with cur24 := x.cur24.move from_ dst } else { x with old24 := x.old24.map (fun b => (b.1.move from_ dst, b.2)) }

/-- Lines and tributaries are monitored while the port is slotted, or the receive map in use gives the tributary a mode (R146). -/
def Dev.pmOn (d : Dev) (trib : Bool) (id : Nat) : Bool :=
  if trib then (d.inTribs (d.lineOf (id / 160))).any (fun t => t.1 == id) else d.slotted id

/-- The bins that end with a second at time `sec` of the day count give way to new ones; a bin in which no second was counted leaves
nothing (R146; DESIGN CHOICE, log entry 130). -/
def PmSt.binsEnd (x : PmSt) (sec : Nat) : PmSt :=
  let x := if sec % 900 = 0 then { x with
      old15 := if x.cur15.used then some (x.cur15, sec * uS) else x.old15
      cur15 := {}, secs := x.secs.map (fun y => { y with now15 := false }) } else x
  if sec % 86400 = 0 then { x with
      old24 := if x.cur24.used then some (x.cur24, sec * uS) else x.old24
      cur24 := {}, secs := x.secs.map (fun y => { y with now24 := false }) } else x

/-- PM_SECOND (R144, R145). -/
def pmSecond (trib : Bool) (id : Nat) : M Unit := do
  let c ← read
  let d ← get
  let i := if trib then 256 + id else id
  let x := d.pm i
  let availKey := if trib then 0x28A0 else 0x2890
  let valid := d.oB 0x1800 3
  let sec := ((if valid then c.net else c.dev) + uS / 2) / uS
  if !d.pmOn trib id then
    set (d.setPm i { x with stopped := true, frames := 0, errored := 0, sf := false, secs := [] })
  else
    let sfNow := bitOf (d.o (if trib then 0x2881 else 0x2880) 1 id) 8
    let cls := if x.sf || sfNow || decide (0 < x.frames ∧ 3 * x.frames ≤ 10 * x.errored) then 2 else if 0 < x.errored then 1 else 0
    let sus : Bool := x.stopped || !valid
    let mark := fun (b : PmBin) => { b with used := true, suspect := b.suspect || sus }
    let s : PmSec := ⟨cls, true, true⟩
    let secs := (s :: x.secs).take 10
    let x := { x with
      frames := 0, errored := 0, sf := sfNow, stopped := false, secs := secs, cur15 := mark x.cur15, cur24 := mark x.cur24 }
    let avail := d.o availKey 8 id = 0
    let full : Bool := decide (secs.length = 10)
    let earlier := secs.drop 1
    let (x, change) :=
      if avail ∧ full ∧ secs.all (fun y => y.cls == 2) then
        ((earlier.foldl (fun (x : PmSt) y => x.moveSec y 2 3) x).moveSec s 0 3, some 1)
      else if !avail ∧ full ∧ secs.all (fun y => y.cls != 2) then
        ((earlier.foldl (fun (x : PmSt) y => x.moveSec y 3 y.cls) x).moveSec s 0 cls, some 0)
      else if !avail then (x.moveSec s 0 3, none)
      else (x.moveSec s 0 cls, none)
    set (d.setPm i x)
    match change with
    | some v =>
      setO availKey 8 id v
      raiseEv 472 0x2814 2 id (ofBool trib) v
    | none => pure ()
    let th := if trib then 6 else 0
    let b15 ← binTell i 0 th x.cur15
    let b24 ← binTell i 3 th x.cur24
    let o15 ← match x.old15 with | some (b, t) => do let y ← binTell i 0 th b; pure (some (y, t)) | none => pure none
    let o24 ← match x.old24 with | some (b, t) => do let y ← binTell i 3 th b; pure (some (y, t)) | none => pure none
    modify fun d => d.setPm i { x with cur15 := b15, cur24 := b24, old15 := o15, old24 := o24 }
  modify fun d => d.setPm i ((d.pm i).binsEnd sec)

/-- Move a history of `n` bins of object `ix` one place on and put a bin at its front (R146). -/
def pmHistory (ix id n : Nat) (b : PmBin) (end_ : Nat) : M Unit := do
  for k in (List.range (n - 1)).reverse do
    for s in [1, 2, 3, 4, 5] do
      setO ix s (id * n + k + 1) (← getO ix s (id * n + k))
  setO ix 1 (id * n) b.es
  setO ix 2 (id * n) b.ses
  setO ix 3 (id * n) b.uas
  setO ix 4 (id * n) (ofBool b.suspect)
  setO ix 5 (id * n) (toT80 end_)

/-- PM_BIN_CLOSE (R146). -/
def pmBinClose (trib : Bool) (id : Nat) (day : Bool) : M Unit := do
  let d ← get
  let i := if trib then 256 + id else id
  let x := d.pm i
  match (if day then x.old24 else x.old15) with
  | none => return ()
  | some (b, t) =>
    set (d.setPm i (if day then { x with old24 := none } else { x with old15 := none }))
    pmHistory ((if trib then 0x28A1 else 0x2891) + (if day then 1 else 0)) id (if day then 7 else 96) b t

/-- Every present bin becomes suspect: a step fell within it (R146). -/
def pmSuspectAll : M Unit :=
  modify fun d => { d with plumb.pm := d.plumb.pm.map (fun e => (e.1, { e.2 with
    cur15 := { e.2.cur15 with suspect := true }, cur24 := { e.2.cur24 with suspect := true } })) }

/-- The present bins of a line, and of the tributaries that have their key or a slot on it, become suspect: its mode changes (R146). -/
def pmSuspect (p : Nat) : M Unit :=
  modify fun d =>
    let keys := (d.plumb.pm.filterMap (fun e => if 256 ≤ e.1 ∧ (e.1 - 256) / 160 = p then some e.1 else none)) ++
      ((d.inTribs (d.lineOf p)).filter (fun t => t.2.1.any (fun s => s / 160 == p))).map (fun t => 256 + t.1)
    (p :: keys).foldl (fun (d : Dev) i => let x := d.pm i; d.setPm i { x with
      cur15 := { x.cur15 with suspect := true }, cur24 := { x.cur24 with suspect := true } }) d

/-! ### Meanings -/

/-- PLUMB_FRAME_RX (R125). -/
def execPlumbFrameRx (p : Nat) (blocks : List Nat) (s : State) := run (.plumbFrameRx p blocks) (plumbRx p blocks) s

/-- PLUMB_FRAME_TX (R120). -/
def execPlumbFrameTx (p : Nat) (s : State) := run (.plumbFrameTx p) (plumbTx p) s

/-- OHP_FRAME (R135). -/
def execOhpFrame (n : Nat) (rx : Bytes) (s : State) := run (.ohpFrame n rx) (whileRunning 676 (ohpFrame n rx)) s

/-- BER_WINDOW_END (R141). -/
def execBerWindowEnd (trib : Bool) (id : Nat) (s : State) := run (.berWindowEnd trib id) (berWindowEnd trib id) s

/-- PM_SECOND (R145). -/
def execPmSecond (trib : Bool) (id : Nat) (s : State) := run (.pmSecond trib id) (pmSecond trib id) s

/-- PM_BIN_CLOSE (R146). -/
def execPmBinClose (trib : Bool) (id : Nat) (day : Bool) (s : State) := run (.pmBinClose trib id day) (pmBinClose trib id day) s

end Sys2Proof.Machine
end

