-- ==== Sys2Proof/Machine/Ports.lean ====
section
/-! DEFINITION. Lanes and ports (03): effective calibration (R71, R73), lane states (R72, R76), fault causes (R82), the port states
(R81), stopping and resuming the transmitter (R83), dampening (R84), the receive clock (R77), patterns (R78, R79), mode changes
(R67). Frames received are in Receive. -/

namespace Sys2Proof.Machine

/-- A port beside its objects. -/
def Dev.port (d : Dev) (p : Nat) : PortSt := mget (dK {}) d.ports p

/-- Replace it. -/
def Dev.setPort (d : Dev) (p : Nat) (x : PortSt) : Dev := { d with ports := mset (dK {}) d.ports p x }

/-- A lane beside its objects. -/
def Dev.lane (d : Dev) (l : Nat) : LaneSt := mget (dK {}) d.lanes l

/-- Replace it. -/
def Dev.setLane (d : Dev) (l : Nat) (x : LaneSt) : Dev := { d with lanes := mset (dK {}) d.lanes l x }

/-! ### Calibration (R71, R73, R74) -/

/-- Generic values by quantity (R75, R108). -/
def calGeneric (q : Nat) : Int :=
  match q with
  | 0 => 500
  | 1 => 0 | 2 => -4 | 3 => -6 | 4 => -8 | 5 => -10
  | 6 => 0 | 7 => -8 | 8 => -12 | 9 => -16 | 10 => -20
  | _ => 800

/-- The object that holds a calibrated quantity (R75, R108), of lane 0. -/
def calKey (q : Nat) : Nat :=
  match q with
  | 0 => okey 0x7800 1 0
  | 11 => okey 0x7802 1 0
  | 12 => okey 0x7810 1 0
  | 13 => okey 0x7810 2 0
  | _ => okey 0x7801 q 0

/-- The calibrated value of a quantity of a lane: the factory value, or the generic one (R74). -/
def Dev.cal (d : Dev) (l q : Nat) : Int :=
  if (d.lane l).generic.contains q then calGeneric q
  else match q with
    | 0 => d.o 0x7800 1 l
    | 11 => d.o 0x7802 1 l
    | _ => d.oS 16 0x7801 q l

/-- The settings of a lane as last written. -/
def Dev.laneSet (d : Dev) (l : Nat) : LaneCfg :=
  { preset := d.o 0x2010 1 l, pre := d.oS 16 0x2010 2 l, post := d.oS 16 0x2010 3 l, swing := d.oS 16 0x2010 4 l, term := d.oS 16 0x2030 1 l }

/-- The settings of a lane in force: writes to a lane that is powered down take effect when it is next powered (R76). -/
def Dev.laneCfg (d : Dev) (l : Nat) : LaneCfg := if d.o 0x2000 1 l = 0 then (d.lane l).cfg else d.laneSet l

/-- The effective taps of a lane and whether one was clamped: pre, main, post (R71). -/
def Dev.fir (d : Dev) (l : Nat) : Int × Int × Int × Bool :=
  let s := d.laneCfg l
  let pre0 := d.cal l (1 + s.preset) + s.pre
  let post0 := d.cal l (6 + s.preset) + s.post
  let pre := clampI (-16) 0 pre0
  let post := clampI (-24) 0 post0
  let post1 := if 28 < -pre - post then -(28 + pre) else post
  (pre, 64 + pre + post1, post1, pre != pre0 || post1 != post0)

/-- The swing before and after its clamp. -/
def Dev.swing (d : Dev) (l : Nat) : Int × Int :=
  let x := d.cal l 11 + (d.laneCfg l).swing * 10
  (x, clampI 400 1200 x)

/-- The effective termination in 0.1 Ω (R73). -/
def Dev.termEff (d : Dev) (l : Nat) : Int := clampI 450 550 (d.cal l 0 + (d.laneCfg l).term * 5)

/-- Lane objects whose value is computed. -/
def Dev.laneObj (d : Dev) (ix sub l : Nat) : Option Nat :=
  match ix, sub with
  | 0x2010, 5 => some (ofS 16 (d.fir l).1)
  | 0x2010, 6 => some (ofS 16 (d.fir l).2.1)
  | 0x2010, 7 => some (ofS 16 (d.fir l).2.2.1)
  | 0x2010, 8 => some (ofS 16 (d.swing l).2)
  | 0x2010, 9 => some (ofBool ((d.fir l).2.2.2 || (d.swing l).1 != (d.swing l).2))
  | 0x2030, 2 => some (ofS 16 (d.termEff l))
  | _, _ => none

/-! ### Fault causes (R82) -/

/-- A pattern code of a lane is not 0 (R79). -/
def Dev.patterned (d : Dev) (l : Nat) : Bool := d.o 0x2040 1 l != 0 || d.o 0x2040 2 l != 0

/-- An island is stalled, or failed for want of a clock; a bay pipeline that has stalled counts against both islands of its ports until
the next data-plane reset (R15, R448; DESIGN CHOICE, log entry 13). -/
def Dev.stalled (d : Dev) (p isl : Nat) : Bool :=
  decide (3 ≤ d.o 0x7010 1 isl) || decide (3 ≤ d.o 0x7010 1 (512 + p / 4)) || d.bays.down.contains (p / 4)

/-- The causes of a port as they stand. -/
def Dev.causes (d : Dev) (p : Nat) : Nat :=
  let bit := fun (b : Bool) (n : Nat) => if b then 2 ^ n else 0
  let s := d.port p
  let stall := bit (d.stalled p p) 7 + bit (d.stalled p (256 + p)) 8
  if !d.oB 0x2400 2 p || d.o 0x2400 3 p == 7 then 1 + stall
  else
    let ls := d.lanesOf p
    let los := ls.any (fun l => (d.lane l).los || decide (d.o 0x2000 1 l < 2))
    let cdr := ls.any (fun l => decide (d.o 0x2000 1 l < 3))
    stall + bit los 1 + bit cdr 2 + bit (!cdr && !s.fecLock) 3 + bit s.deskew 4 + bit s.localF 5 + bit s.remote 6 +
      bit (ls.any d.patterned) 9

/-- Causes that fault the receive path (R83). -/
def rxFaults : Nat := 0x29F

/-! ### Dampening (R84) -/

/-- A dampening figure is kept in thousandths, for the tenth to which it is evaluated (DEDUCED, log entry 43). -/
def figUnit : Nat := 1000

/-- The largest figure in thousandths that `base` can have after `n` evaluations: f^(1000 h) × 2^n ≤ base^(1000 h), found bit by bit. -/
def figDecay (base h n : Nat) : Nat :=
  if n = 0 then base
  else
    let e := 1000 * h
    let top := base ^ e / 2 ^ n
    (List.range 26).foldl (fun f k => let x := f + 2 ^ (25 - k); if x ^ e ≤ top then x else f) 0

/-- The dampening figure now, in thousandths. -/
def Dev.figure (d : Dev) (p : Nat) : Nat := figDecay (d.port p).figBase (d.o 0x2410 5 p) (d.port p).figTicks

/-- Set the figure, from which it decays anew. -/
def setFigure (p f : Nat) : M Unit := do
  modify fun d => d.setPort p { d.port p with figBase := f, figTicks := 0 }
  setO 0x2410 9 p (f / figUnit)

/-! ### The transmitter (R83, R126) -/

/-- The transmitter of a slotted port stops. -/
def stopSlotted (p : Nat) : M Unit := do
  setO 0x2440 3 p 1
  let d ← get
  for e in nub ((d.txSlots 2).filterMap (fun x => if x / 160 = p then some (d.o 0x2810 3 x) else none)) do stopTrib e

/-- What the medium of a port carries (R14, R79, R83): a stopped Ethernet transmitter sends idle, and remote fault while the port
has LOS, CDR, FEC_LOCK, DESKEW or RX_STALL. -/
def Dev.sends (d : Dev) (p : Nat) : Signal :=
  let s := d.o 0x2400 3 p
  if s = 0 then .off
  else if s = 6 then .patterns
  else if !d.oB 0x2440 3 p then .traffic
  else if !d.slotted p && d.o 0x2440 1 p &&& 0x9E != 0 then .remoteFault
  else .idle

/-- Send what the medium of a port carries, when that changes. -/
def syncSignal (p : Nat) : M Unit := do
  let d ← get
  let s := d.sends p
  if s ≠ (d.port p).sends then
    set (d.setPort p { d.port p with sends := s })
    emit (.signal p s)

/-- Bring the transmitter, and what it sends, in line with the causes and the state. -/
def syncTx (p : Nat) : M Unit := do
  let d ← get
  let was := d.oB 0x2440 3 p
  if d.slotted p then
    let stop := d.txStopped p
    if stop ∧ !was then stopSlotted p
    else if !stop ∧ was then setO 0x2440 3 p 0
  else
    let stop : Bool := d.o 0x2440 1 p != 0 || d.o 0x2400 3 p != 3
    if stop ∧ !was then stopTx p
    else if !stop ∧ was then resumeTx p
  syncSignal p

/-- A frame in reception is cut short by a receive fault (R83, cause 2 of R302). -/
def truncateRx (p : Nat) : M Unit := do
  let d ← get
  for e in d.yard.frames do
    match e.2 with
    | some f =>
      if f.port = p ∧ f.origin = 0 ∧ !f.whole then
        incO 0x2420 8 p
        bwAdd p 0 f.data.length
        endReception f f.data (some 2)
    | none => pure ()

/-! ### The states of a port (R81) -/

/-- The receivers of a port's lanes have seen it declared up (R72). -/
def Dev.lanesUp (d : Dev) (p : Nat) : Dev := (d.lanesOf p).foldl (fun d l => d.setLane l { d.lane l with wasUp := true }) d

/-- A port enters a state. The time down of record 2402h runs from the last exit from state 3, and from power-up for a port that was
never up (DESIGN CHOICE, log entry 118). -/
def setState (p n : Nat) : M Unit := do
  let d ← get
  let s := d.o 0x2400 3 p
  if s ≠ n then
    let c ← read
    setO 0x2400 3 p n
    if s = 3 ∨ n = 3 then setO 0x2410 0xC p c.t80
    if n = 3 ∧ s = 2 then modify (·.lanesUp p)
    if s = 3 then modify fun d => d.setPort p { d.port p with downAt := c.run }
    syncTx p
    livenessChange d
    if n = 3 ∧ s = 2 then raiseEv p 0x2402 1 (d.o 0x2400 1 p) ((c.run - (d.port p).downAt) / uMs) 0
    if (s = 3 ∨ s = 4) ∧ n ≠ 3 ∧ n ≠ 4 ∧ (!d.slotted p ∨ n = 0 ∨ n = 6 ∨ n = 7) then strandQueues p

/-- Up-hold, and state 3 at once where the up-hold time is 0. -/
def enterHold (p : Nat) : M Unit := do
  setState p 2
  if (← getO 0x2410 2 p) = 0 then setState p 3

/-- A declared down: state 1, or state 5 (R81, R84). -/
def declareDown (p : Nat) : M Unit := do
  let d ← get
  let damp := d.oB 0x2410 3 p
  if damp then setFigure p (min (d.figure p + figUnit * d.o 0x2410 4 p) (figUnit * d.o 0x2410 8 p))
  incO 0x2410 0xA p
  let d ← get
  let fig := d.figure p
  setState p 1
  raiseEv p 0x2401 2 (d.o 0x2440 1 p) (fig / figUnit) (d.o 0x2410 0xA p)
  if damp ∧ figUnit * d.o 0x2410 6 p ≤ fig then
    let now ← runNow
    setState p 5
    incO 0x2410 0xB p
    modify fun d => d.setPort p { d.port p with suppAt := now }
    raiseEv p 0x2403 2 (fig / figUnit) (← getO 0x2410 0xB p) 0

/-- The causes of a port may have changed: note them, stop what they stop, and move the state (R81 to R83). -/
def portEval (p : Nat) : M Unit := do
  let d ← get
  let c := d.causes p
  let new := clearBits c (d.o 0x2440 1 p)
  set ((d.setO 0x2440 1 p c).setO 0x2440 2 p (d.o 0x2440 2 p ||| new))
  if new &&& rxFaults ≠ 0 then truncateRx p
  lineEval p
  syncTx p
  if bitOf new 8 then strandQueues p
  let s := d.o 0x2400 3 p
  if !d.oB 0x2400 2 p then setState p 0
  else if s = 7 then return ()
  else if bitOf c 9 then setState p 6
  else
    match s with
    | 0 | 6 =>
      setState p 1
      if c = 0 then enterHold p
    | 1 => if c = 0 then enterHold p
    | 2 => if c ≠ 0 then setState p 1
    | 3 =>
      if c ≠ 0 then
        setState p 4
        if d.o 0x2410 1 p = 0 then declareDown p
    | 4 =>
      if c = 0 then
        incO 0x2410 0xD p
        setState p 3
    | _ => return ()

/-- A suppressed port is released: to up-hold, or to state 1 (R84). -/
def unsuppress (p fig : Nat) : M Unit := do
  let d ← get
  let now ← runNow
  raiseEv p 0x2404 1 fig ((now - (d.port p).suppAt) / uS) 0
  if d.o 0x2440 1 p = 0 then enterHold p else setState p 1

/-- One evaluation of the dampening figure (R84). -/
def dampTick (p : Nat) : M Unit := do
  modify fun d => d.setPort p (let x := d.port p; if x.figBase = 0 then x else { x with figTicks := x.figTicks + 1 })
  let d ← get
  let fig := d.figure p
  setO 0x2410 9 p (fig / figUnit)
  if d.o 0x2400 3 p = 5 ∧ fig ≤ figUnit * d.o 0x2410 7 p then unsuppress p (fig / figUnit)

/-- Dampening is disabled (R84). -/
def dampOff (p : Nat) : M Unit := do
  setFigure p 0
  if (← getO 0x2400 3 p) = 5 then unsuppress p 0

/-- Dampening goes on from the present figure, no larger than `top`: its half-life or its maximum is about to change (R84). -/
def dampRebase (p top : Nat) : M Unit := do setFigure p (min ((← get).figure p) top)

/-! ### Lanes -/

/-- A lane is powered down, or powered with no signal. -/
def lanePower (l : Nat) (on : Bool) : M Unit := do
  let d ← get
  if on then
    if d.o 0x2000 1 l = 0 then set ((d.setO 0x2000 1 l 1).setLane l { d.lane l with los := true, wasUp := false })
  else set ((d.setO 0x2000 1 l 0).setLane l { d.lane l with los := false, cfg := d.laneCfg l })

/-- Power the lanes of a port as its enable, its mode and its patterns say (R14, R67, R79). -/
def lanesPower (p : Nat) : M Unit := do
  let d ← get
  let on := d.oB 0x2400 2 p && d.o 0x2400 3 p != 7
  for k in List.range 4 do
    let l := 4 * p + k
    if (d.lanesOf p).contains l then lanePower l on else lanePower l (d.patterned l)
  if !on then modify fun d => d.setPort p { d.port p with fecLock := false, deskew := false, remote := false, localF := false }

/-- An island of a port is stopped, or started: it then runs, unless it is stalled or its clock was absent at start-up (R14, R16). -/
def islandPower (i : Nat) (on : Bool) : M Unit := do
  let d ← get
  if !on then setO 0x7010 1 i 0
  else if d.o 0x7010 1 i < 3 then setO 0x7010 1 i (if d.power.noClock.contains i then 4 else 2)

/-- 2400h.02 of a port has been written (R81). -/
def adminChanged (p : Nat) : M Unit := do
  let on ← getB 0x2400 2 p
  islandPower p on
  islandPower (256 + p) on
  if on then
    if (← getO 0x2400 3 p) = 0 then
      lanesPower p
      portEval p
  else
    portEval p
    lanesPower p

/-- A pattern code of a lane has been written (R79). -/
def patternChanged (l : Nat) : M Unit := do
  lanesPower (l / 4)
  portEval (l / 4)

/-- The mode of a port is about to change at a swap: its performance bins are suspect (R146), and an enabled port stops (R67). -/
def reconfigStart (p : Nat) : M Unit := do
  let d ← get
  pmSuspect p
  if d.oB 0x2400 2 p then
    setState p 7
    if d.slotted p then stopSlotted p
    setFigure p 0
    portEval p
    lanesPower p

/-- The lanes of the new mode are powered and started (R67). -/
def reconfigDone (p : Nat) : M Unit := do
  if (← getO 0x2400 3 p) = 7 then
    setState p 1
    lanesPower p
    modify (·.setTxLine p {})
    portEval p

/-- A lane has lost CDR lock, so FEC lock is gone too. -/
def cdrLost (l : Nat) : M Unit := do
  let d ← get
  if (d.lanesOf (l / 4)).contains l then set (d.setPort (l / 4) { d.port (l / 4) with fecLock := false })

/-- A lane holds the values it has (R72): under code 2 once it has adapted, under code 1 once its port has been declared up since the
lane started. -/
def Dev.holds (d : Dev) (l : Nat) : Bool :=
  (d.o 0x2020 1 l == 2 && (d.lane l).adapted) || (d.o 0x2020 1 l == 1 && (d.lane l).wasUp)

/-- A lane detects signal and starts to adapt (R72): each new start adapts again under code 1. -/
def laneSignal (l : Nat) : M Unit := do
  let d ← get
  if d.o 0x2000 1 l = 1 then
    set ((d.setO 0x2000 1 l 2).setLane l { d.lane l with wasUp := false })
    portEval (l / 4)

/-- Adaptation completes, unless the lane holds its values (R72). A lane whose CDR lock had not been reported is in lock too, since it
reads adapted (DESIGN CHOICE, log entry 120). -/
def laneAdapted (l ctle dfe snr : Nat) : M Unit := do
  let d ← get
  if 2 ≤ d.o 0x2000 1 l ∧ !d.holds l then
    set (((((d.setO 0x2020 2 l ctle).setO 0x2020 3 l dfe).setO 0x2020 4 l snr).setO 0x2000 1 l 4).setLane l
      { d.lane l with adapted := true })
    portEval (l / 4)

/-- LOS of a lane (R82). -/
def laneLos (l : Nat) (on : Bool) : M Unit := do
  let d ← get
  let s := d.o 0x2000 1 l
  if s ≠ 0 then
    set ((d.setO 0x2000 1 l (if on then 1 else max 2 s)).setLane l { d.lane l with los := on, wasUp := !on && decide (2 ≤ s) && (d.lane l).wasUp })
    if on then cdrLost l
    portEval (l / 4)

/-- CDR lock of a lane (R76, R82). A lane that holds values it adapted before reads adapted at once (R72). -/
def laneCdr (l : Nat) (locked : Bool) : M Unit := do
  let d ← get
  let s := d.o 0x2000 1 l
  if locked ∧ s = 2 then
    setO 0x2000 1 l (if d.holds l then 4 else 3)
    portEval (l / 4)
  else if !locked ∧ 3 ≤ s then
    setO 0x2000 1 l 2
    cdrLost l
    portEval (l / 4)

/-- A flag of an enabled port changes. -/
def portFlag (p : Nat) (f : PortSt → PortSt) : M Unit := do
  let d ← get
  if d.oB 0x2400 2 p ∧ d.o 0x2400 3 p ≠ 7 then
    set (d.setPort p (f (d.port p)))
    portEval p

/-- The receive clock offset of a completed second, in 0.1 ppm (R77). -/
def ppmMeasure (p : Nat) (ofs : Int) : M Unit := do
  setO 0x2400 6 p (ofS 16 ofs)
  if 2500 < ofs.natAbs then
    setO 0x2400 7 p 1
    raiseEv p 0x2407 2 (ofS 32 ofs) 0 0
  else if ofs.natAbs ≤ 2400 then setO 0x2400 7 p 0

/-- Bits compared and bit errors since the checker was last read: what the line brings is free (log entry 3). -/
def chkCount (l : Nat) : M Unit := do
  if ← getB 0x2040 3 l then
    addO 0x2040 4 l (← fresh)
    addO 0x2040 5 l (← fresh)

/-- The checker of a lane is set to pattern `v`: a checker that is turned off, or set to another pattern, is out of lock (R78). -/
def checkerWrite (l v : Nat) : M Unit := do
  if (← getO 0x2040 2 l) ≠ v then
    chkCount l
    setO 0x2040 3 l 0
    setO 0x2040 2 l v
  patternChanged l

/-- The next `n` symbols that the generator of a lane sends have a bit inverted: at once while it is on, else when it is turned on (R78). -/
def errInject (l n : Nat) : M Unit := do
  let d ← get
  if d.o 0x2040 1 l = 0 then set (d.setLane l { d.lane l with inject := n }) else emit (.symbolErrors l n)

/-- The generator of a lane is set to pattern `v` (R78). -/
def generatorWrite (l v : Nat) : M Unit := do
  setO 0x2040 1 l v
  let d ← get
  if v ≠ 0 ∧ 0 < (d.lane l).inject then
    set (d.setLane l { d.lane l with inject := 0 })
    emit (.symbolErrors l (d.lane l).inject)
  patternChanged l

/-! ### Meanings -/

/-- RECONFIGURE_DONE (R67). -/
def execReconfigureDone (p : Nat) (s : State) := run (.reconfigureDone p) (reconfigDone p) s

/-- LANE_SIGNAL_DETECT (R72). -/
def execLaneSignalDetect (l : Nat) (s : State) := run (.laneSignalDetect l) (laneSignal l) s

/-- LANE_ADAPT_DONE (R72). -/
def execLaneAdaptDone (l ctle dfe snr : Nat) (s : State) := run (.laneAdaptDone l ctle dfe snr) (laneAdapted l ctle dfe snr) s

/-- LOS_DECLARE (R82). -/
def execLosDeclare (l : Nat) (s : State) := run (.losDeclare l) (laneLos l true) s

/-- LOS_CLEAR (R82). -/
def execLosClear (l : Nat) (s : State) := run (.losClear l) (laneLos l false) s

/-- CDR_LOCK_CHANGE (R82). -/
def execCdrLockChange (l : Nat) (locked : Bool) (s : State) := run (.cdrLockChange l locked) (laneCdr l locked) s

/-- FEC_LOCK_CHANGE (R82): lock is reached only with every used lane in CDR lock. -/
def execFecLockChange (p : Nat) (locked : Bool) (s : State) :=
  run (.fecLockChange p locked) (do
    let d ← get
    if !locked ∨ (d.lanesOf p).all (fun l => decide (3 ≤ d.o 0x2000 1 l)) then
      portFlag p (fun x => { x with fecLock := locked })) s

/-- DESKEW_FAULT (R82). -/
def execDeskewFault (p : Nat) (on : Bool) (s : State) :=
  run (.deskewFault p on) (portFlag p (fun x => { x with deskew := on })) s

/-- REMOTE_FAULT_RX (R82). -/
def execRemoteFaultRx (p : Nat) (on : Bool) (s : State) :=
  run (.remoteFaultRx p on) (portFlag p (fun x => { x with remote := on })) s

/-- LOCAL_FAULT_RX (R82). -/
def execLocalFaultRx (p : Nat) (on : Bool) (s : State) :=
  run (.localFaultRx p on) (portFlag p (fun x => { x with localF := on })) s

/-- RX_PPM_MEASURE (R77). -/
def execRxPpmMeasure (p : Nat) (ofs : Int) (s : State) := run (.rxPpmMeasure p ofs) (ppmMeasure p ofs) s

/-- CHK_LOCK_ACQUIRE (R78). -/
def execChkLockAcquire (l : Nat) (s : State) :=
  run (.chkLockAcquire l) (do if (← getO 0x2040 2 l) ≠ 0 then setO 0x2040 3 l 1) s

/-- CHK_LOCK_LOSS (R78). -/
def execChkLockLoss (l : Nat) (s : State) :=
  run (.chkLockLoss l) (do
    if ← getB 0x2040 3 l then
      chkCount l
      setO 0x2040 3 l 0
      raiseEv (l / 4) 0x2003 1 l (← getO 0x2040 2 l) (← getO 0x2040 5 l)) s

/-- UP_HOLD_EXPIRY (R81). -/
def execUpHoldExpiry (p : Nat) (s : State) :=
  run (.upHoldExpiry p) (do
    let d ← get
    if d.o 0x2400 3 p = 2 ∧ d.o 0x2440 1 p = 0 then setState p 3) s

/-- DOWN_HOLDOFF_EXPIRY (R81). -/
def execDownHoldoffExpiry (p : Nat) (s : State) :=
  run (.downHoldoffExpiry p) (do if (← getO 0x2400 3 p) = 4 then declareDown p) s

/-- DAMP_TICK (R84). -/
def execDampTick (p : Nat) (s : State) := run (.dampTick p) (dampTick p) s

end Sys2Proof.Machine
end

