-- ==== Sys2Proof/Machine/Time.lean ====
section
/-! DEFINITION. The time base (04): references (R93), states (R94), the servo (R95 to R97), steps of network time (R98), effective
time-stamp latencies (R90), Reflections (R103, R104), 1PPS (R105, R106). Corrections are in 2^-32 ppb. -/

namespace Sys2Proof.Machine

/-- The limit of the frequency correction (R95). -/
def freqMax : Int := 200000 * 2 ^ 32

/-- The newest spans that cover `left`. -/
def keepSpans : Nat → List (Nat × Int) → List (Nat × Int)
  | _, [] => []
  | left, x :: r => if left = 0 then [] else x :: keepSpans (left - x.1) r

/-- A span in front of others: one of the same correction is lengthened, and one of no length is nothing. -/
def addSpan (x : Nat × Int) : List (Nat × Int) → List (Nat × Int)
  | [] => if x.1 = 0 then [] else [x]
  | y :: r => if x.1 = 0 then y :: r else if x.2 = y.2 then (x.1 + y.1, y.2) :: r else x :: y :: r

/-- The span in state 2 that ends now is noted (R97); 60 s of them are kept. -/
def closeSpan : M Unit := do
  let d ← get
  let now ← runNow
  let t := d.time
  set { d with time := { t with spans := keepSpans (60 * uS) (addSpan (now - t.spanFrom, t.freq) t.spans), spanFrom := now } }

/-- The correction of the last 60 s of spans, newest first: what is left to cover, and the sum of length × correction. -/
def lastMinute : List (Nat × Int) → Nat → Int → Nat × Int
  | [], left, acc => (left, acc)
  | (n, f) :: r, left, acc => let k := min n left; lastMinute r (left - k) (acc + k * f)

/-- The holdover correction (R97). -/
def TimeSt.holdover (t : TimeSt) : Int :=
  match lastMinute t.spans (60 * uS) 0 with
  | (0, acc) => acc / (60 * uS)
  | _ => t.freq

/-- Put a correction in force. -/
def setFreq (f : Int) : M Unit := do
  if (← getO 0x1800 2) = 2 then closeSpan
  let f := clampI (-freqMax) freqMax f
  modify fun d => { d.setO 0x1820 8 0 (ofS 32 (f / 2 ^ 32)) with time.freq := f }

/-- The time base enters a state (R94). -/
def enterTime (new : Nat) : M Unit := do
  let old ← getO 0x1800 2
  if old ≠ new then
    if old = 2 then closeSpan
    setO 0x1800 2 0 new
    let now ← runNow
    if new = 2 then
      setO 0x1800 3 0 1
      modify fun d => { d with time.spanFrom := now }
    if new = 3 then
      let f := (← get).time.holdover
      setFreq f
      setO 0x1820 0xA 0 (ofS 32 (f / 2 ^ 32))
    if new = 0 then modify fun d => { d with time.ppsOut := false }
    raiseEv 528 0x1801 (if new = 3 then 2 else 1) old new (← getO 0x1820 8)

/-- Holdover at once, from state 1 or 2 (R97). -/
def holdoverNow : M Unit := do
  let s ← getO 0x1800 2
  if s = 1 ∨ s = 2 then enterTime 3

/-! ### The servo -/

/-- The time base is not restarting in a data-plane reset (R448, R449). -/
def Dev.timeRuns (d : Dev) : Bool := d.o 0x7000 2 != 3

/-- An offset reaches the servo (R95, R96), unless the time base is restarting (R449). 1820h.0B notes it even where it is then refused
(DESIGN CHOICE, log entry 122); record 1802h gives it in ns, rounded toward zero (DESIGN CHOICE, log entry 47). -/
def servoOffset (o : Int) : M Unit := do
  let d ← get
  if d.o 0x1820 1 = 1 ∧ d.timeRuns then
    setO 0x1820 0xB 0 (ofS 64 o)
    let jump := d.o 0x1820 5 * 65536
    if jump < o.natAbs then
      incO 0x1820 0xC
      let n := d.time.consec + 1
      modify fun d => { d with time.consec := n }
      raiseLim 528 0x1802 1 0 (ofS 32 (clampI (-(2 ^ 31)) (2 ^ 31 - 1) (o.tdiv 65536))) n 0 3
      if d.o 0x1820 6 ≤ n then holdoverNow
    else
      let integ := clampI (-freqMax) freqMax (d.time.integ - d.o 0x1820 4 * o)
      modify fun d => { d with time.consec := 0, time.integ := integ }
      setFreq (integ - d.o 0x1820 3 * o)
      let s := d.o 0x1800 2
      if s = 0 ∨ s = 3 then
        modify fun d => { d with time.small := 0 }
        enterTime 1
      if (← getO 0x1800 2) = 1 then
        let small := (← get).time.small
        let n := if 4 * o.natAbs ≤ jump then small + 1 else 0
        modify fun d => { d with time.small := n }
        if 3 ≤ n then enterTime 2

/-- 1820h.02 is written: ignored while PPS_IN is the source (R106). -/
def offsetIn (o : Int) : M Unit := do
  if (← getO 0x1820 0xD) = 0 then servoOffset o

/-- 1820h.01 has been written (R94, R95, R108). The refusal count that it sets to 0 is the consecutive one, not 1820h.0C (DESIGN CHOICE,
log entry 140). -/
def servoMode (mode : Nat) : M Unit := do
  modify fun d => { d with time.integ := 0, time.consec := 0, time.small := 0 }
  let d ← get
  match mode with
  | 2 =>
    setFreq (d.oS 32 0x1820 9 * 2 ^ 32)
    enterTime 2
  | 0 =>
    setFreq 0
    enterTime 0
  | _ => if d.o 0x1800 2 = 1 ∨ d.o 0x1800 2 = 2 then enterTime 1

/-- 1820h.09 has been written: it acts in mode 2 (R95), in holdover too, whose correction R97 fixes (DESIGN CHOICE, log entry 140). -/
def freqSet : M Unit := do
  let d ← get
  if d.o 0x1820 1 = 2 then setFreq (d.oS 32 0x1820 9 * 2 ^ 32)

/-! ### References (R93) -/

/-- Switch to reference `new` (2 none), with the cause. The loss of the last usable reference counts in 1802h.05 too (DESIGN CHOICE, log
entry 121). -/
def refSwitch (new cause : Nat) : M Unit := do
  let old ← getO 0x1802 2
  if old ≠ new then
    setO 0x1802 2 0 new
    incO 0x1802 5
    raiseEv 529 0x1804 2 old new cause
    if new = 2 then enterTime 3

/-- The reference that 1802h.01 asks for as things stand; a return to A waits for its own command. -/
def Dev.refWant (d : Dev) : Nat :=
  let good := fun r => d.o 0x1802 3 r == 2
  let m := d.o 0x1802 1
  let a := d.o 0x1802 2
  if m < 2 then (if good m then m else 2)
  else if a < 2 ∧ good a then a
  else if good 0 then 0 else if good 1 then 1 else 2

/-- Bring the reference in line. -/
def refSelect (cause : Nat) : M Unit := do refSwitch (← get).refWant cause

/-! ### Steps (R98) -/

/-- T' of a port for a step at network time `t` (R331). -/
def Dev.stepDefer (d : Dev) (k : Clock) (t p : Nat) : Nat :=
  if d.slotted p then t
  else
    let new : Bool := match oget d.eg.change p, d.lastBounded k p with
      | some g, some x => decide (g.eff ≤ x)
      | _, _ => false
    deferTo (d.gateList p new) t (d.lastBounded k p)

/-- A step of network time is requested by plane `pl` (R98): the status. -/
def stepRequest (pl : Nat) (absolute : Bool) (amount : Nat) : M Nat := do
  let d ← get
  if d.time.step.isSome then return 0x701
  let k ← read
  let at0 := ceilDiv (k.net + d.o 0x1801 4 * uUs) uMs * uMs
  let mut last := at0
  for p in List.range 256 do
    let t := d.stepDefer k at0 p
    if at0 < t then
      incO 0x4432 4 p
      raiseEv 325 0x4401 1 (0x80000000 + p) ((t - at0) / uUs) 0
    last := max last t
  modify fun d => { d.setO 0x1801 3 0 1 with time.step := some ⟨pl, absolute, amount, at0, last⟩ }
  return 0

/-- The clock at the step. -/
def stepClock (d : Dev) (k : Clock) : Clock :=
  match d.time.step with
  | none => k
  | some s => k.withNet ((k.net : Int) + ({ s with apply := k.net }).delta).toNat

/-- The pending step takes effect in the device (the clock moves beside it; its records bear the new time). The ns of record 1803h are
rounded down (DESIGN CHOICE, log entry 47). -/
def stepApply : M Unit := do
  let d ← get
  let k ← read
  match d.time.step with
  | none => return ()
  | some s =>
    let ns := ofS 64 (({ s with apply := k.net }).delta / 65536)
    let goal := (stepClock d k).net
    let snaps := d.mon.snapSet.map (fun x => if k.net ≤ x.2 ∧ x.2 < goal then (x.1, k.net) else x)      -- R382
    -- the periodic snapshot that the step passes is taken at the step instant
    let passed : Bool := match d.snapPeriodic k.net with | some t => decide (t < goal) | none => false
    let per := d.o 0x6002 2 * uMs
    set { (d.setO 0x1801 3 0 0).setO 0x1800 3 0 1 with
      time.step := none, time.small := 0, mon.monGood := []
      mon.snapSet := if passed then snaps ++ d.snapGroups.map (fun g => (g, k.net)) else snaps
      mon.snapLast := if passed then (goal - 1) / per * per else d.mon.snapLast }
    pmSuspectAll
    withReader (stepClock d) do
      enterTime 1
      raiseEv 532 0x1803 2 (ns % 2 ^ 32) (ns / 2 ^ 32) s.plane

/-- Objects of this chapter whose value is computed. -/
def Dev.timeObj (d : Dev) (c : Clock) (ix sub i : Nat) : Option Nat :=
  match ix, sub with
  | 0x1800, 1 => some c.t80
  | 0x1800, 4 => some (c.dev % 2 ^ 64)
  | 0x1810, 3 => some (d.tsEff i 1)
  | 0x1810, 4 => some (d.tsEff i 2)
  | _, _ => none

/-! ### Reflections (R103, R104) -/

/-- Deliver the oldest Reflection of a port, if its destination can take it: the time-stamp ring, or pool 2 for the management core
that runs the servo (R311). While that core alone is out of service the Reflection waits; with none in service it is dropped (R454). -/
def reflDeliver (p : Nat) : M Unit := do
  let d ← get
  match mget (dK []) d.time.refl p with
  | [] => return ()
  | b :: r =>
    let ok ←
      if d.o 0x1830 5 p = 0 then ringPut 32 (b ++ toBytes 8 0)
      else pure (!d.anyCore || d.inService (d.o 0x1460 6))
    if ok then
      modify fun d => { d with time.refl := mset (dK []) d.time.refl p r }
      let taken ← if d.o 0x1830 5 p = 0 then pure true else toManagement b
      if taken then incO 0x1830 3 p

/-! ### 1PPS (R105, R106) -/

/-- PPS_OUT may be high: it is enabled, network time is valid, the time base is not in state 0 (R105), and it is not restarting in a
data-plane reset (R448, R449). -/
def Dev.ppsOn (d : Dev) : Bool := d.oB 0x1840 1 && d.oB 0x1800 3 && d.o 0x1800 2 != 0 && d.timeRuns

/-- Network time stands within 2 ns of a whole second plus 1840h.02 ns. -/
def Dev.ppsDue (d : Dev) (c : Clock) : Bool :=
  let x := (((c.net : Int) - d.oS 32 0x1840 2 * uNs) % uS).toNat
  decide (x ≤ 2 * uNs ∨ uS ≤ x + 2 * uNs)

/-- An edge of PPS_OUT: it rises only when due, and falls once it has been high for 1840h.03 µs, within 2 ns, or may be high no more. -/
def ppsOut (rise : Bool) : M Unit := do
  let d ← get
  let c ← read
  if rise then
    if d.ppsOn && d.ppsDue c && !d.time.ppsOut then set { d with time.ppsOut := true, time.ppsRise := c.run }
  else if !d.ppsOn || decide (d.time.ppsRise + d.o 0x1840 3 * uUs ≤ c.run + 2 * uNs) then set { d with time.ppsOut := false }

/-- A PPS_IN edge whose time-stamp is `t` (network 2^-16 ns) has been confirmed. -/
def ppsConfirmed (t : Nat) : M Unit := do
  let d ← get
  let now ← runNow
  let x := ((t : Int) - d.oS 32 0x1840 4 * 65536).toNat
  set { d.setO 0x1840 5 0 (toT80 x) with time.ppsLast := now }
  if d.o 0x1820 0xD = 1 then
    let r := x % uS
    servoOffset (if 2 * r < uS then (r : Int) else (r : Int) - uS)

/-! ### Meanings -/

/-- REF_FAIL (R93): cause 0 missing edges, 1 frequency. -/
def execRefFail (r cause : Nat) (s : State) :=
  run (.refFail r cause) (do
    setO 0x1802 3 r cause
    refSelect cause) s

/-- REF_GOOD (R93). -/
def execRefGood (r : Nat) (s : State) :=
  run (.refGood r) (do
    setO 0x1802 3 r 2
    refSelect 2) s

/-- REF_REVERT_EXPIRY (R93). -/
def execRefRevertExpiry (s : State) :=
  run .refRevertExpiry (do
    let d ← get
    if d.o 0x1802 1 = 2 ∧ d.o 0x1802 2 = 1 ∧ d.o 0x1802 3 0 = 2 then refSwitch 0 2) s

/-- FEED_TIMEOUT (R97). -/
def execFeedTimeout (s : State) :=
  run .feedTimeout (do if (← getO 0x1820 1) = 1 then holdoverNow) s

/-- STEP_APPLY (R98). -/
def execStepApply (s : State) := runClk .stepApply stepApply stepClock s

/-- TS_REFL_DELIVER (R104). -/
def execTsReflDeliver (p : Nat) (s : State) := run (.tsReflDeliver p) (reflDeliver p) s

/-- PPS_OUT_EDGE (R105). -/
def execPpsOutEdge (rise : Bool) (s : State) := run (.ppsOutEdge rise) (ppsOut rise) s

/-- PPS_IN_ABSENT (R106): the seconds since the last edge, and the filter state of input 8. -/
def execPpsInAbsent (s : State) :=
  run .ppsInAbsent (do
    let d ← get
    let now ← runNow
    raiseEv 531 0x1807 2 ((now - d.time.ppsLast) / uS) (d.o 0x28E0 5 8) 0) s

end Sys2Proof.Machine
end

