-- ==== Sys2Proof/Machine/Security.lean ====
section
/-! DEFINITION. Root of trust, firmware and attestation (17): images and their checks (R420 to R423), boot records and the start of a
core (R425 to R427), updates (R428 to R431), handover and failover (R432 to R435), session keys (R436, R437), measurements and
reports (R438 to R440), debug unlock (R441, R442). -/

namespace Sys2Proof.Machine

/-! ### Signed images -/

/-- The silicon step (1000h.04) and serial number (1000h.05). -/
def Dev.siliconStep (d : Dev) : Nat := d.o 0x1000 4
def Dev.serial (d : Dev) : Nat := d.o 0x1000 5

/-- Header fields of an image (R420). -/
def imgVersion (b : Bytes) : Nat := beAt b 8 4
def imgSvn (b : Bytes) : Nat := byteAt b 12
def imgDigest (b : Bytes) : Nat := beAt b 32 32

/-- The check of an image for a kind (R423): the cause, and R254's cause where it is 8; none: it passes. -/
def Dev.imageCheck (d : Dev) (kind : Nat) (b : Bytes) : Option (Nat × Nat) :=
  let len := b.length
  let pay := b.drop 29920
  let plen := beAt b 16 4
  let slot := byteAt b 6
  let pk := slice b 64 64
  let step := d.siliconStep
  if len < 29920 ∨ (if kind = 1 then 0x1000000 else 0x100000) < len then some (7, 0)
  else if beAt b 0 4 ≠ 0x494B494D ∨ byteAt b 4 ≠ 1 ∨ beAt b 13 3 ≠ 0 ∨ byteAt b 5 ≠ kind ∨ slot < byteAt b 7 ∨ plen ≠ len - 29920 ∨
      (if kind = 1 then plen = 0 ∨ 16747296 < plen else 1024 < patchCount pay ∨ beAt pay 2 2 ≠ 0 ∨ plen ≠ 644 + 18 * patchCount pay) then some (1, 0)
  else if slice b 24 8 ≠ ascii "DQ8256" ++ [0#8, 0#8] ∨
      (if kind = 1 then step < beAt b 20 2 ∨ beAt b 22 2 < step else beAt b 20 4 ≠ d.o 0x3840 1) then some (2, 0)
  else if 3 < slot ∨ d.o 0x1400 3 slot ≠ 1 then some (3, 0)
  else if imgSvn b < d.o 0x1400 4 (kind - 1) then some (6, 0)
  else if imgDigest b ≠ ofBytes (shake256 pay 32) then some (4, 0)
  else if ofBytes (shake256 pk 32) ≠ d.o 0x1400 2 slot ∨
      !slhVerify (ofBytes pk) (slhMessage "ULUASH-IMAGE" (b.take 128)) (slice b 128 29792) then some (5, 0)
  else if kind = 2 then (patchCheck pay).map (fun c => (8, c.1))
  else none

/-- The image of a flash slot. -/
def Dev.image (d : Dev) (i : Nat) : Option Bytes := oget d.sec.flash i

/-- An image is refused: 1420h.08 and Ledger code 1401h; a bad patch also 3848h on both Sills (R254). -/
def imageRefused (i : Nat) (c : Nat × Nat) (b : Bytes) : M Unit := do
  setO 0x1420 8 0 c.1
  raiseEv 546 0x1401 2 i c.1 c.2
  if c.1 = 8 then
    let at_ := match patchCheck (b.drop 29920) with | some x => x.2 | none => 0
    for s in [0, 1] do raiseEv (637 + s) 0x3848 2 s c.2 at_

/-- The check of a flash slot; an empty slot fails with cause 7. -/
def checkSlot (i : Nat) : M Bool := do
  let d ← get
  match d.image i with
  | none =>
    imageRefused i (7, 0) []
    return false
  | some b =>
    match d.imageCheck (i / 2 + 1) b with
    | none => return true
    | some c =>
      imageRefused i c b
      return false

/-! ### Boot records (R425) -/

/-- The 64 octets of a boot record. -/
def BootRec.bytes (r : BootRec) : Bytes :=
  let b := toBytes 4 r.seq ++ [r.fwActive, r.fwTry, r.fwTryLeft, r.patchActive, r.patchTry].map (BitVec.ofNat 8) ++ List.replicate 51 0#8
  b ++ toBytes 4 (crc32c b)

/-- The record that 64 octets hold, if its check is good. -/
def bootOf (b : Bytes) : Option BootRec :=
  if b.length = 64 ∧ beAt b 60 4 = crc32c (b.take 60) then
    some { seq := beAt b 0 4, fwActive := byteAt b 4, fwTry := byteAt b 5, fwTryLeft := byteAt b 6, patchActive := byteAt b 7, patchTry := byteAt b 8 }
  else none

/-- The record in force: the valid copy with the higher SEQ. -/
def Sec.boot (x : Sec) : BootRec :=
  match bootOf x.recA, bootOf x.recB with
  | some a, some b => if epochHigher b.seq a.seq then b else a
  | some a, none => a
  | none, some b => b
  | none, none => {}

/-- The copies as a power loss leaves them: the one that is being written holds no record. -/
def Sec.torn (x : Sec) : Sec :=
  match x.bootWriting with
  | some true => { x with recA := [] }
  | some false => { x with recB := [] }
  | none => x

/-- Write a new record over the other copy, with the next SEQ; the write lasts (R425). -/
def Dev.writeBoot (d : Dev) (f : BootRec → BootRec) : Dev :=
  let x := d.sec
  let r := x.boot
  let n := ({ f r with seq := (r.seq + 1) % 2 ^ 32 } : BootRec).bytes
  let d := if d.inService 0 then d.storeAsk 1 else d
  if bootOf x.recA = some r then { d with sec.recB := n, sec.bootWriting := some false }
  else { d with sec.recA := n, sec.bootWriting := some true }

/-! ### Sessions of a core (R61, R433, R434) -/

/-- A session's own state. -/
def Dev.sessOf (d : Dev) (k : Nat) : Sess := mget (dK {}) d.sess k

/-- Replace it. -/
def Dev.setSess (d : Dev) (k : Nat) (x : Sess) : Dev := { d with sess := mset (dK {}) d.sess k x }

/-- Sessions that are enabled and run on core `c`. -/
def Dev.sessionsOn (d : Dev) (c : Nat) : List Nat := (List.range 64).filter fun k => d.oB 0x1140 1 k && (d.sessOf k).core == c

/-- A session is resumed from the record store on core `c` (R61). -/
def Dev.resumeSess (d : Dev) (c k : Nat) : Dev :=
  let x := d.sessOf k
  (d.setO 0x1140 6 k (min 0xFFFFFFFF (x.recH + 4096))).setSess k { x with core := c, mask := 2 ^ 64 - 1, req := [], resp := [] }

/-- A session key has been written (R59, R61): H is 0, the record is clear, and H is recorded. -/
def Dev.sessKeyed (d : Dev) (k : Nat) : Dev :=
  (d.setO 0x1140 6 k 0).setSess k { (d.sessOf k) with mask := 0, req := [], resp := [], sinceRec := 0, recH := 0 }

/-! ### Reports (R438 to R440) -/

/-- Measurement `m` (R439). -/
def Dev.measure (d : Dev) (m : Nat) : Nat :=
  match m with
  | 0 => Config.romDigest % 2 ^ 256
  | 1 => if d.inService 0 then nget d.sec.running 0 else 0
  | 2 => if d.inService 1 then nget d.sec.running 1 else 0
  | 3 => d.o 0x3840 3 0
  | 4 => d.o 0x3840 3 1
  | m => d.o 0x1450 1 m

/-- Extend measurement 5 or 6 (R439). -/
def Dev.extend (d : Dev) (m : Nat) (v : Bytes) : Dev :=
  d.setO 0x1450 1 m (ofBytes (shake256 (toBytes 32 (d.o 0x1450 1 m) ++ v) 32))

/-- The body of a report whose signing begins now (R440). -/
def Dev.reportBody (d : Dev) (c : Clock) (nonce : Nat) : Bytes :=
  let r := d.sec.boot
  let flags := ofBool (d.oB 0x1800 3) + 2 * ofBool d.sec.dbgEnd.isSome + 4 * ofBool d.sec.dbgEver +
    8 * ofBool (r.fwTry == 1 || r.patchTry == 1) + 16 * ofBool (d.o 0x1460 1 0 == 5 || d.o 0x1460 1 1 == 5)
  let zero := fun (n : Nat) => List.replicate n 0#8
  let fw := ((d.image r.fwActive).map imgVersion).getD 0
  let keys := (List.range 4).foldl (fun a k => a + (d.o 0x1400 3 k) <<< (2 * k)) 0
  [1#8, BitVec.ofNat 8 flags] ++ zero 2 ++ toBytes 16 d.serial ++ toBytes 2 d.siliconStep ++ zero 2 ++ toBytes 32 nonce ++
    toBytes 6 c.secs ++ toBytes 4 c.ns ++ toBytes 4 (d.o 0x1400 1) ++ toBytes 4 fw ++ toBytes 1 (d.o 0x1400 4 0) ++
    toBytes 1 (d.o 0x1400 4 1) ++ toBytes 1 keys ++ zero 1 ++ toBytes 4 (d.o 0x3840 2 0) ++ toBytes 4 (d.o 0x3840 2 1) ++
    toBytes 4 (d.o 0x6410 9) ++ toBytes 8 (d.o 0x1020 3) ++ zero 30 ++
    (List.range 7).flatMap (fun m => toBytes 32 (d.measure m)) ++ zero 32

/-- Signing begins for the first plane that waits. -/
def attStart : M Unit := do
  let d ← get
  let c ← read
  match d.sec.attQueue with
  | (pl, nonce) :: _ =>
    if d.o 0x1450 4 pl = 1 then
      set { d.setO 0x1450 4 pl 2 with sec.attNonce := nonce, sec.attBody := d.reportBody c nonce }
  | [] => return ()

/-- A nonce is written for plane `pl` (R440): the status. -/
def attRequest (pl nonce : Nat) : M Nat := do
  let d ← get
  if d.sec.attQueue.any (fun q => q.1 == pl) ∨ !d.anyCore ∨ d.sec.secretBad then return 0x701
  set { d.setO 0x1450 4 pl 1 with
    sec.attQueue := d.sec.attQueue ++ [(pl, nonce)]
    sec.reports := oset d.sec.reports pl none }
  if d.sec.attQueue = [] then attStart
  return 0

/-- Signing of plane `pl`'s report is complete after `ms`. -/
def attDone (pl ms : Nat) : M Unit := do
  let d ← get
  if d.o 0x1450 4 pl = 2 then
    let b := d.sec.attBody
    let rand ← fresh
    let sig := fitTo 29792 (slhSign identitySeed (rand % 2 ^ 256) (slhMessage "ULUASH-ATTEST" b))
    set { (← get).setO 0x1450 4 pl 3 with
      sec.reports := oset d.sec.reports pl (some (b ++ sig))
      sec.attQueue := d.sec.attQueue.filter (fun q => q.1 != pl) }
    peakO 0x1450 6 0 (min (2 ^ 32 - 1) ms)
    raiseEv 549 0x140A 0 pl ms 0
    attStart

/-! ### Updates (R428 to R431) -/

/-- The state of the update. -/
def Dev.updState (d : Dev) : Nat := d.o 0x1420 6

/-- The update ends: state 0, no owner. -/
def updEnd : M Unit :=
  modify fun d => { (d.setO 0x1420 6 0 0).setO 0x1420 1 0 0 with sec.chunks := [], sec.staged := none, sec.updSeq := [], sec.updRun := false, sec.patching := false }

/-- The patch of a slot, as R255 applies it; FFh is no patch. -/
def Dev.patchOf (d : Dev) (slot : Nat) : Patch :=
  match (if slot < 2 then d.image (2 + slot) else none) with
  | some b => { version := imgVersion b, payload := b.drop 29920 }
  | none => { version := 0, payload := [] }

/-- A core restarts: it starts again in the boot ROM (R426). -/
def Dev.coreGoes (d : Dev) (c : Nat) : Dev :=
  { d.setO 0x1460 1 c 4 with sec.bootSel := oset d.sec.bootSel c none, sec.romHold := d.sec.romHold && c != 0 }

/-- Planned handover of core `c`, whose other core is in service (R433): it hands over, and restarts as time passes. -/
def handover (c cause : Nat) : M Unit := do
  let d ← get
  let moved := d.sessionsOn c
  let d := moved.foldl (fun (d : Dev) k => d.setSess k { d.sessOf k with core := 1 - c }) d
  let d := if d.o 0x1460 6 = c then d.setO 0x1460 6 0 (1 - c) else d
  set (((d.setO 0x1460 8 c cause).coreGoes c).setO 0x1460 1 c 3)
  -- an attestation in progress restarts its signing
  let d ← get
  let clk ← read
  match d.sec.attQueue with
  | (_, nonce) :: _ => set { d with sec.attBody := d.reportBody clk nonce }
  | [] => pure ()
  raiseEv (616 + c) 0x1411 1 c moved.length cause

/-- The next core restarts under the update, or the update goes on to its next state (R430, R431). -/
def updStep : M Unit := do
  let d ← get
  if !d.sec.updRun then
    match d.sec.updSeq with
    | c :: _ =>
      if d.o 0x1460 1 (1 - c) = 2 then
        modify fun d => { d with sec.updRun := true }
        if d.o 0x1460 1 c = 2 then handover c 6
    | [] =>
      if d.updState = 5 then updTrial
      else if d.updState = 7 then updEnd

/-- The update reverts (R431): causes 0 abort, 1 countdown, 3 core restart, 4 wrong slot. -/
def updRevert (cause : Nat) : M Unit := do
  let d ← get
  let kind := d.sec.updImage / 2 + 1
  let old := d.sec.updOld
  let ver := (((if old < 2 then d.image ((kind - 1) * 2 + old) else none)).map imgVersion).getD 0
  raiseEv 548 0x1408 2 kind cause ver
  if kind = 1 then
    modify fun d => { (d.writeBoot fun r => { r with fwActive := old, fwTry := 0, fwTryLeft := 0 }).setO 0x1420 6 0 7 with
      sec.updSeq := [1, 0], sec.updRun := false }
    storeDrive
    updStep
  else
    modify fun d => d.writeBoot fun r => { r with patchActive := old, patchTry := 0 }
    storeDrive
    let p := (← get).patchOf old
    patchStart 0 p
    patchStart 1 p
    updEnd

/-- A plane writes an update object: it may, when it owns the update or takes it in state 0 (R428). -/
def updTake (pl : Nat) : M Bool := do
  let d ← get
  let now ← runNow
  let own := d.o 0x1420 1
  if d.updState = 0 ∧ own = 0 then
    set { (d.setO 0x1420 1 0 (pl + 1)).setO 0x1420 6 0 1 with
      sec.updLast := now, sec.chunks := [], sec.holder := if d.inService 0 then 0 else 1 }
    return true
  else if own = pl + 1 then
    set { d with sec.updLast := now }
    return true
  else return false

/-- The update procedure is served: by a core, or by the boot ROM of core 0 for firmware when both cores hold in it (R427). -/
def Dev.updServed (d : Dev) (kind : Nat) : Bool :=
  d.anyCore || (kind == 1 && d.sec.romHold)

/-- A write of 1420h.02, .03[k] or .04 by plane `pl`: the status. -/
def updWrite (pl sub k v : Nat) : M Nat := do
  let d ← get
  if !d.updServed (if sub = 2 then v else d.o 0x1420 2) then return 0x701
  if d.updState ≠ 0 ∧ d.o 0x1420 1 ≠ pl + 1 then return 0x402
  if sub = 2 ∧ 1 < d.updState then return 0x701
  if sub = 3 ∧ ceilDiv (d.o 0x1420 4) 256 ≤ k then return 0x302
  let _ ← updTake pl
  if sub = 3 then modify fun d => { d with sec.chunks := oset d.sec.chunks k (some (toBytes 256 v)) }
  else setO 0x1420 sub 0 v
  return 0

/-- The staged image: none while a chunk below its length is missing. -/
def Dev.stagedImage (d : Dev) : Option Bytes :=
  let len := d.o 0x1420 4
  let n := ceilDiv len 256
  if d.sec.chunks.all (fun e => e.2.isSome) ∧ (d.sec.chunks.filter (fun e => e.1 < n)).length = n then
    some (((d.sec.chunks.filter (fun e => e.1 < n)).flatMap (fun e => e.2.getD [])).take len)
  else none

/-- Firmware restarts both cores, core 1 first, on the slot of the new record. -/
def updCores : M Unit := do
  modify fun d => { d with sec.updSeq := [1, 0], sec.updRun := false }
  updStep

/-- Command 2 (R430). -/
def updActivate : M Unit := do
  let d ← get
  let i := d.sec.updImage
  let ver := ((d.image i).map imgVersion).getD 0
  raiseEv 548 0x1406 2 i ver 0
  if i < 2 then
    modify fun d => ({ d.writeBoot (fun r => { r with fwActive := i, fwTry := 1, fwTryLeft := 3 }) with
      sec.updOld := d.sec.boot.fwActive } : Dev).setO 0x1420 6 0 5
    storeDrive
    updCores
  else
    modify fun d => { d.writeBoot (fun r => { r with patchActive := i - 2, patchTry := 1 }) with sec.updOld := d.sec.boot.patchActive }
    storeDrive
    let p := (← get).patchOf (i - 2)
    modify fun d => { d with joinery.patchNext := some p, sec.patching := true }
    patchStart 0 p
    patchDrive

/-- Raise counter `j` to `svn`; the fuses in `fail` stay unblown (R419): whether all were blown. -/
def raiseCounter (j svn : Nat) (fail : List Nat) : M Bool := do
  let d ← get
  let old := d.o 0x1400 4 j
  if svn ≤ old then return true
  let stop := ((List.range (svn - old)).map (· + old)).find? fail.contains
  let new := stop.getD svn
  set { d.setO 0x1400 4 j new with sec.fuses := nset d.sec.fuses j new }
  match stop with
  | some f =>
    raiseEv 547 0x140C 3 j f 0
    return false
  | none =>
    raiseEv 547 0x1403 2 j old new
    return true

/-- Revoke the key slots below `lo`; `fail` as 128 + slot. -/
def revokeBelow (lo : Nat) (fail : List Nat) : M Bool := do
  let mut ok : Bool := true
  for k in List.range 4 do
    let d ← get
    if ok ∧ k < lo ∧ d.o 0x1400 3 k ≠ 2 then
      if fail.contains (128 + k) then
        raiseEv 547 0x140C 3 (0x10 + k) 0 0
        ok := false
      else
        set { d.setO 0x1400 3 k 2 with sec.revoked := k :: d.sec.revoked }
        raiseEv 547 0x1404 2 k lo 0
  return ok

/-- Command 3 (R431): the status. -/
def updConfirm (fail : List Nat) : M Nat := do
  let d ← get
  let i := d.sec.updImage
  let b := (d.image i).getD []
  if !(← raiseCounter (i / 2) (imgSvn b) fail) then return 0x701
  if !(← revokeBelow (byteAt b 7) fail) then return 0x701
  modify fun d => d.writeBoot fun r => if i < 2 then { r with fwTry := 0, fwTryLeft := 0 } else { r with patchTry := 0 }
  storeDrive
  updEnd
  raiseEv 548 0x1407 2 (i / 2 + 1) (imgVersion b) (imgSvn b)
  return 0

/-- A write of `v` to 1420h.05 by plane `pl` (R428, R429): the status. -/
def updCommand (pl v : Nat) (fail : List Nat) : M Nat := do
  let d ← get
  let now ← runNow
  let st := d.updState
  let other : Bool := st ≠ 0 && d.o 0x1420 1 != 0 && d.o 0x1420 1 != pl + 1
  let broken : Bool := v == 4 && decide (d.sec.updLast + d.o 0x1020 7 * uS ≤ now)
  if other ∧ !broken then return 0x402
  if !d.updServed (d.o 0x1420 2) then return 0x701
  if st = 2 ∨ st = 5 ∨ st = 7 ∨ d.sec.patching then return 0x701
  if !other then modify fun d => { d with sec.updLast := now }
  match v, st with
  | 1, 1 =>
    modify fun d => { d.setO 0x1420 6 0 2 with sec.staged := d.stagedImage }
    return 0
  | 2, 3 =>
    updActivate
    return 0
  | 3, 6 => updConfirm fail
  | 4, 1 | 4, 3 | 4, 4 =>
    if other then updDiscard 2
    updEnd
    return 0
  | 4, 6 =>
    updRevert 0
    return 0
  | _, _ => return 0x302

/-- Verification ends (R429; in the boot ROM R427). -/
def updVerifyDone : M Unit := do
  let d ← get
  if d.updState = 2 then
    let kind := d.o 0x1420 2
    let rom := d.sec.romHold
    let r := d.sec.boot
    let slot := if rom then 0 else if kind = 1 then 1 - r.fwActive else if r.patchActive = 0 then 1 else 0
    let i := (kind - 1) * 2 + slot
    let refuse : Nat × Nat → Bytes → M Unit := fun c b => do
      setO 0x1420 6 0 4
      imageRefused i c b
    match d.sec.staged with
    | none => refuse (7, 0) []
    | some b =>
      match d.imageCheck kind b with
      | some c => refuse c b
      | none =>
        modify fun d => { d.setO 0x1420 6 0 3 with sec.flash := oset d.sec.flash i (some b), sec.updImage := i, sec.staged := none }
        raiseEv 548 0x1405 1 i (imgVersion b) (imgSvn b)
        if rom then
          modify fun d => ((d.writeBoot fun r => { r with fwActive := 0, fwTry := 0, fwTryLeft := 0 }).coreGoes 0).coreGoes 1
          storeDrive
          updEnd

/-! ### Cores (R426, R427, R432 to R435) -/

/-- Neither core is in service: the management plane loses its banks (R38). -/
def coresDown : M Unit := do
  if !(← get).anyCore then loseBanks 1

/-- A core goes down without handing over: its sessions and its servo feed (R434). -/
def coreLost (c : Nat) : M Unit := do
  let d ← get
  let other := if d.inService (1 - c) then 1 - c else c
  set ((d.sessionsOn c).foldl (fun (d : Dev) k => d.resumeSess other k) d)
  if d.o 0x1460 6 = c then
    setO 0x1460 6 0 0xFF
    holdoverNow

/-- An unplanned restart (R434, R435). -/
def coreUnplanned (c cause : Nat) : M Unit := do
  let d ← get
  let now ← runNow
  let st := d.o 0x1460 1 c
  if 1 ≤ st ∧ st ≤ 3 then
    coreLost c
    incO 0x1460 5 c
    let d ← get
    let times := (mget (dK []) d.sec.restarts c).filter (fun t => now < t + 600 * uS) ++ [now]
    let d := (d.setO 0x1460 8 c cause).coreGoes c
    let d := if d.sec.boot.fwTry = 1 then d.writeBoot (fun r => { r with fwTryLeft := r.fwTryLeft - 1 }) else d
    set { d with sec.restarts := mset (dK []) d.sec.restarts c times }
    storeDrive
    raiseEv (616 + c) 0x1410 2 c cause times.length
    if d.o 0x1460 7 < times.length then
      setO 0x1460 1 c 5
      raiseEv (616 + c) 0x1412 3 c cause 0
    coresDown
    let d ← get
    if d.updStaged ∧ d.sec.holder = c then updDiscard 0
    else if d.updState = 5 then updRevert 3

/-- A warm restart is over once neither core is starting (R453). -/
def warmOver : M Unit :=
  modify fun d =>
    let busy := fun (c : Nat) => d.o 0x1460 1 c == 1 || d.o 0x1460 1 c == 3 || d.o 0x1460 1 c == 4
    if busy 0 || busy 1 then d else { d with power.warm := false }

/-- The boot ROM starts core `c` (R426). -/
def coreBoot (c : Nat) : M Unit := do
  let d ← get
  let st := d.o 0x1460 1 c
  if st = 3 ∨ st = 4 ∨ (st = 1 ∧ (oget d.sec.bootSel c).isNone) then
    let r := d.sec.boot
    if r.fwTry = 1 ∧ r.fwTryLeft = 0 then
      set (d.writeBoot fun r => { r with fwActive := 1 - r.fwActive, fwTry := 0 })
      storeDrive
      raiseEv 548 0x1408 2 1 2 (((d.image (1 - r.fwActive)).map imgVersion).getD 0)
    let sl := (← get).sec.boot.fwActive
    let pick : Option Nat ←
      if ← checkSlot sl then pure (some sl)
      else if ← checkSlot (1 - sl) then do
        raiseEv 546 0x1402 2 c (1 - sl) 0
        pure (some (1 - sl))
      else pure none
    let d ← get
    match pick with
    | some x =>
      -- the power-up start of core 0, once (R426)
      let d := if c = 0 ∧ !d.sec.tried ∧ d.sec.boot.fwTry = 1 then d.writeBoot (fun r => { r with fwTryLeft := r.fwTryLeft - 1 }) else d
      set { d.setO 0x1460 1 c 1 with
        sec.tried := d.sec.tried || c == 0
        sec.bootSel := oset d.sec.bootSel c (some x)
        sec.running := nset d.sec.running c (((d.image x).map imgDigest).getD 0) }
      storeDrive
    | none =>
      setO 0x1460 1 c 5
      if c = 0 then
        if (← get).inService 1 then coreLost 1
        setO 0x1460 1 1 5
        modify fun d => { d with sec.romHold := true }
        coresDown
        if d.updState = 5 ∨ d.updState = 7 then updEnd
      warmOver

/-- The patch a Sill takes as its core first comes into service: the one named, else the other slot, else none (R426). -/
def bootPatch (s : Nat) : M Unit := do
  let r := (← get).sec.boot
  if r.patchActive < 2 then
    let a := r.patchActive
    let pick ← if ← checkSlot (2 + a) then pure a
      else if (← get).image (3 - a) |>.isSome then (if ← checkSlot (3 - a) then pure (1 - a) else pure 0xFF)
      else pure 0xFF
    let d ← get
    let p := d.patchOf pick
    if p.payload = [] then set (d.loadPatch s p) else patchStart s p

/-- Core `c` comes into service (R426, R430, R433). -/
def coreInService (c : Nat) : M Unit := do
  let d ← get
  match (if d.o 0x1460 1 c = 1 then oget d.sec.bootSel c else none) with
  | none => return ()
  | some x =>
    set ((d.setO 0x1460 1 c 2).setO 0x1460 2 c x)
    raiseEv (616 + c) 0x1413 1 c x (((d.image x).map imgVersion).getD 0)
    if nget d.sec.started c = 0 then
      modify fun d => { d with sec.started := nset d.sec.started c 1 }
      bootPatch c
    -- it takes back the sessions assigned to it, exact from a core in service
    modify fun d => ((List.range 64).filter (fun k => d.oB 0x1140 1 k && d.o 0x1140 5 k == c)).foldl
      (fun (d : Dev) k => d.setSess k { d.sessOf k with core := c }) d
    -- sessions of a core that is still down run here meanwhile
    modify fun d => if d.inService (1 - c) then d
      else (d.sessionsOn (1 - c)).foldl (fun (d : Dev) k => d.setSess k { d.sessOf k with core := c }) d
    ledgerResume
    warmOver
    let d ← get
    if d.sec.updRun ∧ d.sec.updSeq.head? = some c then
      if d.updState = 5 ∧ x ≠ d.sec.updImage then updRevert 4
      else
        modify fun d => { d with sec.updSeq := d.sec.updSeq.tail, sec.updRun := false }
        updStep
    else updStep

/-- A write of 1 to 1460h.04[c] (R433, R435): the status. -/
def coreRestartCmd (c : Nat) : M Nat := do
  let d ← get
  if d.o 0x1460 1 c = 5 then
    modify fun d => { (d.setO 0x1460 8 c 5).coreGoes c with sec.restarts := mset (dK []) d.sec.restarts c [] }
    return 0
  else if d.o 0x1460 1 c = 2 ∧ d.o 0x1460 1 (1 - c) = 2 then
    handover c 5
    return 0
  else return 0x701

/-- Both cores restart without a handover, in a warm restart (R453). -/
def coresWarm : M Unit := do
  for c in [0, 1] do
    let st ← getO 0x1460 1 c
    if st ≠ 0 ∧ st ≠ 5 then modify fun d => d.coreGoes c
  for c in [0, 1] do coreLost c

/-! ### Session keys (R437) -/

/-- Whether plane `pl` may write a session key or 1430h.01 (R437). -/
def Dev.keyPlane (d : Dev) (pl : Nat) : Bool := bitOf (d.o 0x1430 1) pl && !(d.oB 0x1430 2 && pl == 0)

/-- A write of 1 to 1430h.03. -/
def zeroize (pl : Nat) : M Unit := do
  let d ← get
  let on := ((List.range 64).filter (fun k => d.oB 0x1140 1 k)).length
  let zero := fun (d : Dev) (key : Nat) => ({ d with objs := mset objDflt d.objs key 0 } : Dev).pegStore key 0 d.dict.epoch
  set ((List.range 64).foldl (fun (d : Dev) k => (zero (zero d (okey 0x1140 2 k)) (okey 0x1140 1 k)).sessKeyed k) d)
  storeDrive
  raiseEv 551 0x140B 2 pl on 0

/-! ### Debug unlock (R441, R442) -/

/-- The challenge is renewed. -/
def newChallenge : M Unit := do
  let v ← fresh
  setO 0x8000 1 0 (v % 2 ^ 256)

/-- The state of 8000h.04. -/
def dbgState : M Unit := do
  let x := (← get).sec
  setO 0x8000 4 0 (if x.verifying.isSome then 1 else if x.dbgEnd.isSome then 2 else 0)

/-- The unlock ends (R442): causes 0 command, 1 expiry, 2 reset. -/
def dbgLock (cause : Nat) : M Unit := do
  let d ← get
  if d.sec.dbgEnd.isSome then
    set { d.setO 0x8000 5 0 0 with sec.dbgEnd := none }
    dbgState
    dbgRelease
    newChallenge
    raiseEv 550 0x8002 1 cause 0 0

/-- A write to 8000h.03[pl]: the status. -/
def dbgSubmit (pl v : Nat) : M Nat := do
  let d ← get
  if v = 2 then
    dbgLock 0
    return 0
  if d.sec.verifying.isSome then return 0x701
  set { d with sec.verifying := some (pl, d.o 0x8000 1) }
  dbgState
  newChallenge
  return 0

/-- The token of plane `pl`. -/
def Dev.tokenOf (d : Dev) (pl : Nat) : Bytes :=
  ((List.range 117).flatMap fun k => (oget d.sec.token (pl * 117 + k)).getD (List.replicate 256 0#8)).take 29856

/-- Why a token is refused. Its signature is checked as an image's is (R421), under the key whose digest the slot holds (log entry 96). -/
def Dev.tokenCause (d : Dev) (t : Bytes) (challenge : Nat) : Option Nat :=
  let slot := byteAt t 1
  let dur := beAt t 4 4
  if byteAt t 0 ≠ 1 ∨ 3 < slot ∨ 8 ≤ byteAt t 2 ∨ byteAt t 3 ≠ 0 ∨ dur < 60 ∨ 604800 < dur ∨ beAt t 56 8 ≠ 0 then some 1
  else if beAt t 8 16 ≠ d.serial then some 2
  else if beAt t 24 32 ≠ challenge then some 3
  else if d.o 0x1400 3 slot ≠ 1 then some 4
  else if ofBytes (shake256 (toBytes 64 (Config.slotKey slot)) 32) ≠ d.o 0x1400 2 slot ∨
      !slhVerify (Config.slotKey slot) (slhMessage "ULUASH-DEBUG" (t.take 64)) (t.drop 64) then some 5
  else none

/-- Verification of a token ends. -/
def dbgVerifyDone : M Unit := do
  let d ← get
  let now ← devNow
  match d.sec.verifying with
  | none => return ()
  | some (pl, challenge) =>
    let t := d.tokenOf pl
    set { d with sec.verifying := none }
    match d.tokenCause t challenge with
    | some c =>
      incO 0x8000 7
      dbgState
      raiseEv 550 0x8003 2 c pl 0
    | none =>
      let scope := byteAt t 2
      modify fun d => { (d.extend 5 (t.take 64)).setO 0x8000 5 0 scope with
        sec.dbgEnd := some (now + beAt t 4 4 * uS), sec.dbgEver := true }
      dbgState
      raiseEv 550 0x8001 2 scope (beAt t 4 4) (byteAt t 1)

/-- Whether an object is a debug object that answers now (R441). -/
def Dev.dbgOpen (d : Dev) (ix : Nat) : Bool :=
  if ix < 0x8000 ∨ ix = 0x8000 then true
  else if ix = 0x8400 ∨ ix = 0x8401 then bitOf (d.o 0x8000 5) 0
  else bitOf (d.o 0x8000 5) 2

/-- Objects of this chapter whose value is computed (R443). -/
def Dev.secObj (d : Dev) (c : Clock) (ix sub i : Nat) : Option Nat :=
  let img := d.image i
  let left := fun (t : Nat) => ceilDiv (t - c.run) uS
  match ix, sub with
  | 0x1410, 1 => some (match img with
    | none => 0
    | some b => if (d.imageCheck (i / 2 + 1) b).isNone then 1 else 2)
  | 0x1410, 2 => some ((img.map imgVersion).getD 0)
  | 0x1410, 3 => some ((img.map imgSvn).getD 0)
  | 0x1410, 4 => some ((img.map imgDigest).getD 0)
  | 0x1410, 5 => some (if i = 0 then d.sec.boot.fwActive else d.sec.boot.patchActive)
  | 0x1410, 6 => some (if i = 0 then d.sec.boot.fwTry else d.sec.boot.patchTry)
  | 0x1410, 7 => some d.sec.boot.fwTryLeft
  | 0x1420, 9 => some (if d.updState = 6 then left d.sec.trialEnd else 0)
  | 0x1440, 1 => some (if d.sec.secretBad then 0 else slhPublic identitySeed % 2 ^ 512)
  | 0x1450, 1 => some (d.measure i)
  | 0x1450, 5 => some (match oget d.sec.reports (i / 118) with
    | some b => ofBytes (fitTo 256 (b.drop (i % 118 * 256)))
    | none => 0)
  | 0x8000, 6 => some (match d.sec.dbgEnd with | some t => ceilDiv (t - c.dev) uS | none => 0)
  | _, _ => none

/-! ### Meanings -/

/-- UPD_VERIFY_DONE (R429). -/
def execUpdVerifyDone (s : State) := run .updVerifyDone updVerifyDone s

/-- UPD_TRIAL_EXPIRY (R431). -/
def execUpdTrialExpiry (s : State) := run .updTrialExpiry (do if (← get).updState = 6 then updRevert 1) s

/-- CORE_BOOT (R426). -/
def execCoreBoot (c : Nat) (s : State) := run (.coreBoot c) (coreBoot c) s

/-- CORE_IN_SERVICE (R426). -/
def execCoreInService (c : Nat) (s : State) := run (.coreInService c) (coreInService c) s

/-- CORE_WDOG_EXPIRY (R432). -/
def execCoreWdogExpiry (c : Nat) (s : State) := run (.coreWdogExpiry c) (do if (← get).inService c then coreUnplanned c 1) s

/-- FATAL_FIRMWARE_FAULT (R432). -/
def execFatalFirmwareFault (c : Nat) (s : State) :=
  run (.fatalFirmwareFault c) (do if (← get).inService c then coreUnplanned c 4) s

/-- ATT_SIGN_DONE (R440). -/
def execAttSignDone (pl ms : Nat) (s : State) := run (.attSignDone pl ms) (attDone pl ms) s

/-- DBG_VERIFY_DONE (R441). -/
def execDbgVerifyDone (s : State) := run .dbgVerifyDone dbgVerifyDone s

/-- DBG_UNLOCK_EXPIRY (R442). -/
def execDbgUnlockExpiry (s : State) := run .dbgUnlockExpiry (dbgLock 1) s

end Sys2Proof.Machine
end

