-- ==== Sys2Proof/Machine/Dram.lean ====
section
/-! DEFINITION. The DRAM channels (13): scheduling (R346), refresh (R347, R348), drift (R350), the burst check code (R351),
scrubbing and row repair (R352, R456), degraded and retired channels, placement and loss of segments (R344, R353 to R355). -/

namespace Sys2Proof.Machine

/-- The queue of a channel. -/
def Dev.dramQ (d : Dev) (n : Nat) : List DramReq := mget (dK []) d.dram.reqs n

/-- Replace it. -/
def Dev.setDramQ (d : Dev) (n : Nat) (l : List DramReq) : Dev := { d with dram.reqs := mset (dK []) d.dram.reqs n l }

/-- Refreshes owed by bank `k` of channel `n`. -/
def Dev.owedOf (d : Dev) (n k : Nat) : Int := mget (dK 0) d.dram.owed (n * 16 + k)

/-- Replace them. -/
def Dev.setOwed (d : Dev) (n k : Nat) (v : Int) : Dev := { d with dram.owed := mset (dK 0) d.dram.owed (n * 16 + k) v }

/-- The channel enters state 3 (R353): causes 1 corrected bursts, 2 window, 3 drift, 4 temperature. -/
def degrade (n cause val : Nat) : M Unit := do
  if (← getO 0x5001 1 n) = 2 then
    setO 0x5001 1 n 3
    setO 0x5001 6 n cause
    raiseEv (384 + n) 0x5001 2 n cause val

/-! ### Retirement (R354, R355) -/

/-- Places of all segments of a Sill. -/
def Dev.segList (d : Dev) (s : Nat) : List (Nat × Nat × Nat) := (List.range 1536).map fun g => (g, d.segAt s g)

/-- The lowest free position of a channel. -/
def freePos (l : List (Nat × Nat × Nat)) (ch : Nat) : Nat :=
  let used := (l.filter (fun x => x.2.1 == ch)).map (fun x => x.2.2)
  ((List.range 128).find? (fun p => !used.contains p)).getD 127

/-- The in-service channel that holds the fewest segments, the lowest number on a tie. -/
def Dev.leastChannel (d : Dev) (s : Nat) (l : List (Nat × Nat × Nat)) : Option Nat :=
  let count := fun ch => (l.filter (fun x => x.2.1 == ch)).length
  ((List.range 24).map (· + 24 * s)).foldl (fun (a : Option Nat) ch =>
    if !d.chOn ch then a
    else match a with
      | some b => if count ch < count b then some ch else a
      | none => some ch) none

/-- Move the segments of `gs` off a channel, in ascending order. -/
def Dev.moveSegs (d : Dev) (s : Nat) : List Nat → List (Nat × Nat × Nat) → List (Nat × Nat × Nat)
  | [], l => l
  | g :: rest, l =>
    match d.leastChannel s l with
    | none => l
    | some ch => d.moveSegs s rest (l.map fun x => if x.1 = g then (g, ch, freePos l ch) else x)

/-- Store the places of a Sill's segments. -/
def Dev.setSegs (d : Dev) (s : Nat) (l : List (Nat × Nat × Nat)) : Dev :=
  l.foldl (fun (d : Dev) x => (d.setO 0x5011 1 (s * 1536 + x.1) x.2.1).setO 0x5011 2 (s * 1536 + x.1) x.2.2) d

/-- The Sill's DRAM is failed: no flow request is served, those that wait are answered and counted (R355). -/
def sillFail (s ch : Nat) : M Unit := do
  let d ← get
  if d.chCount s < 12 ∧ !d.sillFailed s then
    setO 0x5021 3 s 1
    raiseEv (384 + ch) 0x5007 3 s (d.chCount s) 0
    for x in (← get).fetches s do resumeUnserved s x.key x.kdir

/-- Records of a capture segment are lost: the trace ring on SD0, the sample rings (R388, R389). -/
def captureLost (s : Nat) (gs : List Nat) : M Unit := do
  let tr := gs.filter (fun g => decide (1408 ≤ g ∧ g < 1472) && s == 0)
  let sm := gs.filter (fun g => 1472 ≤ g)
  if tr ≠ [] then
    modify fun d => { d with mon.traceLost := true, mon.trace := mfilter (fun a => !tr.contains (1408 + a / 65536)) d.mon.trace }
  if sm ≠ [] then
    modify fun d => { d with
      mon.sampleLost := mset (dK false) d.mon.sampleLost s true
      mon.samples := mfilter (fun a => !(a / 2 ^ 25 == s && sm.contains (1472 + a % 2 ^ 25 / 524288))) d.mon.samples }
  match tr ++ sm with
  | g :: rest => raiseEv 639 0x6003 3 s g (rest.length + 1)
  | [] => return ()

/-- What an uncorrectable read of a burst does to a record that lies there (R216). -/
def flowBurstFailed (n burst : Nat) : M Unit := do
  let d ← get
  let s := n / 24
  match (d.segList s).find? (fun x => x.2.1 == n && x.2.2 == burst / 131072) with
  | some (g, _) => if regionOf g = 0 then recordFailed s (g * 65536 + burst % 131072 / 2) (burst % 2)
  | none => return ()

/-- A channel is retired (R354): causes 0 command, 1 uncorrectable bursts, 2 stall, 3 training. Reads in its queue are answered as
uncorrectable. -/
def retire (n cause : Nat) : M Unit := do
  let d ← get
  if d.chOn n then
    let s := n / 24
    set ((d.setO 0x5001 1 n 4).setDramQ n [])
    for r in d.dramQ n do
      if !r.write ∧ !r.mute then
        burstBad n r.burst
        flowBurstFailed n r.burst
    let d ← get
    let l := d.segList s
    let gs := (l.filter (fun x => x.2.1 == n)).map Prod.fst
    -- cached entries whose table address lies on the channel
    let lost := d.flow.cache.filterMap fun e => match e.2 with
      | some c => if addrSill c.addr = s ∧ gs.contains (c.addr % 67108864 / 65536) then some e.1 else none
      | none => none
    let d := lost.foldl (fun (d : Dev) i => d.setCache i none) d
    let d := d.addO 0x5021 2 s lost.length
    -- placement, then empty segments
    let d := d.setSegs s (d.moveSegs s gs l)
    let d := d.addO 0x5021 1 s gs.length
    let gone := d.flow.slots.filterMap fun e => if addrSill e.1 = s ∧ gs.contains (e.1 % 67108864 / 65536) then some e.1 else none
    let d := gone.foldl (fun (d : Dev) a => d.setSlot a none) d
    set { d with dram.fill := d.dram.fill.filter (fun x => !gs.contains (x % 1536) || x / 1536 != s) ++ gs.map (· + s * 1536) }
    raiseEv (384 + n) 0x5002 2 n cause gs.length
    for g in gs do
      if regionOf g = 2 then exportSegmentLost s (g - 1280)
    captureLost s (gs.filter (fun g => regionOf g == 3))
    if gs.any (fun g => regionOf g == 1) then coreUnplanned s 3
    sillFail s n

/-! ### Corrected and uncorrectable bursts (R351, R353) -/

/-- A corrected read. -/
def burstCorrected (n : Nat) : M Unit := do
  incO 0x5002 1 n
  let d ← get
  let now ← runNow
  let l := lastHour now (mget (dK []) d.dram.ce n)
  set { d with dram.ce := mset (dK []) d.dram.ce n l }
  if d.o 0x5020 3 < l.length then degrade n 1 l.length

/-- Channels whose uncorrectable bursts have reached the rate are retired (R353). -/
def retireDue : M Unit := do
  for n in (← get).dram.due do retire n 1
  modify fun d => { d with dram.due := [] }

/-! ### Scheduling (R346) and refresh (R347, R348) -/

/-- The requests a channel sees: 512 in all, 32 of a bank. -/
def Dev.dramSeen (d : Dev) (n : Nat) : List DramReq :=
  ((d.dramQ n).take 512).foldl (fun l r => if (l.filter (fun x => x.bank == r.bank)).length < 32 then l ++ [r] else l) []

/-- The request of a class that a channel serves next, and whether it was promoted for its age. -/
def Dev.dramNext (d : Dev) (n now : Nat) (other : Bool) : Option (DramReq × Bool) :=
  let l := (d.dramSeen n).filter (fun r => r.other == other)
  let last := nget d.dram.lastBank n
  match ((List.range 16).map (fun k => (last + k) % 16)).find? (fun b => l.any (fun r => r.bank == b)) with
  | none => none
  | some b =>
    let q := l.filter (fun r => r.bank == b)
    let hit := q.find? (fun r => oget d.dram.openRow (n * 16 + b) == some r.row)
    match q, hit with
    | r :: _, some h => if d.o 0x5020 7 * uNs ≤ now - r.at0 ∧ r ≠ h then some (r, true) else some (h, false)
    | r :: _, none => some (r, false)
    | [], _ => none

/-- The bank with an empty queue that owes the most refreshes, among those that owe more than `least` (R348). -/
def Dev.refreshBank (d : Dev) (n : Nat) (least : Int) : Option Nat :=
  let idle := (List.range 16).filter (fun k => !(d.dramQ n).any (fun r => r.bank == k) && decide (least < d.owedOf n k))
  idle.foldl (fun (a : Option Nat) k => match a with
    | some b => if d.owedOf n b < d.owedOf n k then some k else a
    | none => some k) none

/-- A bank is refreshed in a command slot. -/
def Dev.refreshed (d : Dev) (n : Nat) : Option Nat → Dev
  | some k => d.setOwed n k (d.owedOf n k - 1)
  | none => d

/-- A slot of a channel's bus is used (R356). -/
def Dev.slotUsed (d : Dev) (n now : Nat) : Dev :=
  { d with dram.used := mset (dK []) d.dram.used n ((mget (dK []) d.dram.used n).filter (fun t => decide (now < t + uS)) ++ [now]) }

/-- The slots that a second offers: 21,334 MB/s in bursts of 64 bytes (R341). -/
def slotsPerSecond : Nat := 333343750

/-- 5001h.05: per cent of the bus slots used over the last second. -/
def Dev.chUtil (d : Dev) (n now : Nat) : Nat :=
  ((mget (dK []) d.dram.used n).filter (fun t => decide (now < t + uS))).length * 100 / slotsPerSecond

/-- The requests that a full queue holds back (R346). -/
def Dev.dramHeld (d : Dev) (n : Nat) : List DramReq := (d.dramSeen n).foldl List.erase (d.dramQ n)

/-- Reads of the flow class that a full queue held back find a place: their wait is share wait (R241, R346). -/
def heldIn (n : Nat) (was : List DramReq) : M Unit := do
  let d ← get
  let now ← runNow
  for r in (d.dramHeld n).foldl List.erase was do
    if !r.other ∧ !r.write then shareWait (n / 24) ((now - r.at0) / uNs)

/-- A request is served. -/
def dramDo (n lat err : Nat) (r : DramReq) (aged : Bool) : M Unit := do
  let d ← get
  let now ← runNow
  let i := n * 2 ^ 24 + r.burst
  let was := d.dramHeld n
  let d := (d.setDramQ n ((d.dramQ n).erase r)).slotUsed n now
  set { d with
    dram.openRow := oset d.dram.openRow (n * 16 + r.bank) (some r.row)
    dram.lastBank := nset d.dram.lastBank n ((r.bank + 1) % 16)
    dram.bad := if r.write then d.dram.bad.filter (· != i) else d.dram.bad }
  heldIn n was
  if aged then incO 0x5002 8 n
  if !r.write ∧ !r.mute then
    peakO 0x5002 9 n lat
    monFeed 6 n lat
    if err = 2 ∨ d.dram.bad.contains i then
      burstBad n r.burst
      flowBurstFailed n r.burst
    else if err = 1 then burstCorrected n

/-- A slot of the other class that no request of it takes carries the fill of a segment or the tracking of a lane, if there is one
(R342, R350, R354). -/
def Dev.fillSlot (d : Dev) (n : Nat) : Option Dev :=
  if 0 < nget d.dram.track n then some { d with dram.track := nset d.dram.track n (nget d.dram.track n - 1) }
  else if d.dram.fill.any (fun x => (d.segAt (x / 1536) (x % 1536)).1 == n) then some d
  else none

/-- DRAM_REQUEST: a command slot of a channel. Slots come in a pattern of five, the second and fourth of which are the other class's; a
slot that its class cannot use goes to the other; a refresh that is owed takes a slot of the other class before a request does (R342,
log entry 91). `lat`: a read's latency in ns; `err`: 1 the burst was corrected, 2 uncorrectable. -/
def dramServe (n lat err : Nat) : M Unit := do
  let d ← get
  let now ← runNow
  if d.chOn n then
    let pos := nget d.dram.slot n
    let mine : Bool := pos % 2 == 1
    let d := { d with dram.slot := nset d.dram.slot n ((pos + 1) % 5) }
    set d
    match (if mine then d.refreshBank n 0 else none) with
    | some k => set (d.refreshed n (some k))
    | none =>
      match d.dramNext n now mine with
      | some (r, aged) => dramDo n lat err r aged
      | none =>
        match (if mine then d.fillSlot n else none) with
        | some e => set (e.slotUsed n now)
        | none =>
          match d.dramNext n now (!mine) with
          | none => set (d.refreshed n (d.refreshBank n (-8)))
          | some (r, aged) => dramDo n lat err r aged
    retireDue

/-- REFRESH_TICK (R348). -/
def refreshTick (n k : Nat) : M Unit := do
  let d ← get
  if d.chOn n then
    let v := d.owedOf n k + 1
    if v < 8 then set (d.setOwed n k v)
    else
      set (d.setOwed n k 7)
      incO 0x5002 7 n
      raiseLim (384 + n) 0x5008 1 n n k 0 3

/-- DRAM_TEMP_READ (R347). -/
def dramTemp (n : Nat) (t : Int) : M Unit := do
  let d ← get
  let m := if t ≤ 85 then 1 else if t ≤ 95 then 2 else 4
  let was := d.oS 16 0x5001 2 n
  let old := d.o 0x5001 3 n
  set ((d.setO 0x5001 2 n (ofS 16 t)).setO 0x5001 3 n m)
  if m ≠ old ∨ (105 < t ∧ was ≤ 105) then raiseEv (384 + n) 0x5006 (if 105 < t then 3 else 1) n m (ofS 32 t)
  if 105 < t then degrade n 4 (ofS 32 t)

/-- DRIFT_TRACK (R350): the steps each delay moves, and the widths measured in ps. -/
def driftTrack (n lane : Nat) (rd wr : Int) (rw ww : Nat) : M Unit := do
  let d ← get
  if d.chOn n then
    let i := n * 2 + lane
    let (a, b) := mget (dK ((0 : Int), (0 : Int))) d.dram.drift i
    let a := a + rd
    let b := b + wr
    let far := if a.natAbs < b.natAbs then b else a
    let move := fun (v : Nat) (x : Int) => (clampI 0 65535 ((v : Int) + x)).toNat
    let d := (d.setO 0x5003 3 i (move (d.o 0x5003 3 i) rd)).setO 0x5003 4 i (move (d.o 0x5003 4 i) wr)
    set { d.setO 0x5003 6 i (ofS 16 far) with
      dram.drift := mset (dK ((0 : Int), (0 : Int))) d.dram.drift i (a, b)
      dram.track := nset d.dram.track n (nget d.dram.track n + 1) }
    let narrow : Bool := decide (min rw ww < d.o 0x5020 6)
    if (16 ≤ far.natAbs ∨ narrow) ∧ d.o 0x5001 1 n = 2 then
      if 16 ≤ far.natAbs then degrade n 3 (ofS 32 far) else degrade n 2 (min rw ww)
      raiseEv (384 + n) 0x5005 1 n lane (ofS 32 far)

/-! ### Scrubbing (R352) and rows (R456) -/

/-- Bank and row of a burst index of channel `n`, under the order of the segment that lies there. -/
def Dev.burstRow (d : Dev) (n burst : Nat) : Nat × Nat :=
  let s := n / 24
  let pos := burst / 131072
  let order := match (d.segList s).find? (fun x => x.2.1 == n && x.2.2 == pos) with
    | some x => d.orderOf (regionOf x.1)
    | none => 0
  let (bank, row, _) := burstPlace order burst
  (bank, row)

/-- Repair a row, or leave it unrepaired (R456). -/
def rowRepair (n bank row : Nat) : M Unit := do
  let d ← get
  let addr := bank * 32768 + row
  let free := d.o 0x7021 1 n
  if 0 < free then
    set { d.setO 0x7021 1 n (free - 1) with dram.spared := (n * 2 ^ 20 + addr) :: d.dram.spared.filter (· != n * 2 ^ 20 + addr) }
    incO 0x7021 2 n
    repairRecord 2 n addr
    raiseEv 578 0x7004 1 2 n addr
  else
    incO 0x7021 3 n
    raiseEv 578 0x7005 2 2 n addr

/-- The scrubber's read or write-back of a burst takes a slot of the other class (R342, R352). -/
def scrubAsk (n burst : Nat) (write : Bool) : M Unit := do
  let d ← get
  let now ← runNow
  let (bank, row) := d.burstRow n burst
  set (d.setDramQ n (d.dramQ n ++ [{ burst, bank, row, write, at0 := now, other := true, mute := true }]))

/-- SCRUB_BURST: a burst is read; `err`: 1 one bad byte, 2 uncorrectable. A burst index at or below the last one starts a new pass. -/
def scrubBurst (n burst err : Nat) : M Unit := do
  let d ← get
  if d.chOn n then
    let wrapped : Bool := match oget d.dram.scrub n with | some b => decide (burst ≤ b) | none => false
    set { d with dram.scrub := oset d.dram.scrub n (some burst) }
    if wrapped then incO 0x5002 5 n
    let newer : Bool := (d.dramQ n).any (fun r => r.write && !r.mute && r.burst == burst)
    scrubAsk n burst false
    if err ≠ 0 then
      let d ← get
      let pass := d.o 0x5002 5 n
      let (bank, row) := d.burstRow n burst
      if err = 1 then
        if newer then incO 0x5002 6 n
        else
          incO 0x5002 4 n
          scrubAsk n burst true
        let i := n * 2 ^ 20 + bank * 32768 + row
        let (at0, run) := mget (dK (0, 0)) d.dram.rowBad i
        let again : Bool := run != 0 && at0 == pass
        let run' := if again then run else if run ≠ 0 ∧ at0 + 1 = pass then run + 1 else 1
        modify fun d => { d with dram.rowBad := mset (dK (0, 0)) d.dram.rowBad i (if run' = 3 then (0, 0) else (pass, run')) }
        burstCorrected n
        if run' = 3 then rowRepair n bank row
      else
        -- the burst goes on failing until it is written
        let i := n * 2 ^ 24 + burst
        modify fun d => { d with dram.bad := i :: d.dram.bad.filter (· != i) }
        rowRepair n bank row
        burstBad n burst
        retireDue

/-- Objects of this chapter whose value is computed (R356). -/
def Dev.dramObj (d : Dev) (ix sub i : Nat) : Option Nat :=
  match ix, sub with
  | 0x5000, 2 => some (21334 * d.chCount i)
  | 0x5000, 3 => some (21334 * d.chCount i * 3 / 5)
  | _, _ => none

/-! ### Meanings -/

/-- DRAM_REQUEST (R346). -/
def execDramRequest (n lat err : Nat) (s : State) := run (.dramRequest n lat err) (dramServe n lat err) s

/-- REFRESH_TICK (R348). -/
def execRefreshTick (n bank : Nat) (s : State) := run (.refreshTick n bank) (refreshTick n bank) s

/-- DRAM_TEMP_READ (R347). -/
def execDramTempRead (n : Nat) (temp : Int) (s : State) := run (.dramTempRead n temp) (dramTemp n temp) s

/-- DRIFT_TRACK (R350). -/
def execDriftTrack (n lane : Nat) (rd wr : Int) (rw ww : Nat) (s : State) :=
  run (.driftTrack n lane rd wr rw ww) (driftTrack n lane rd wr rw ww) s

/-- SCRUB_BURST (R352). -/
def execScrubBurst (n burst err : Nat) (s : State) := run (.scrubBurst n burst err) (scrubBurst n burst err) s

/-- FLOW_FETCH_DONE (R223). -/
def execFlowFetchDone (k wait : Nat) (bad : List Nat) (s : State) :=
  run (.flowFetchDone k wait bad) (do
    fetchDone k wait bad
    retireDue) s

/-- SEGMENT_FILL_DONE (R354). -/
def execSegmentFillDone (k seg : Nat) (s : State) :=
  run (.segmentFillDone k seg) (modify fun d => { d with dram.fill := d.dram.fill.filter (· != k * 1536 + seg) }) s

end Sys2Proof.Machine
end

