-- ==== Sys2Proof/Machine/Startup.lean ====
section
/-! DEFINITION. Start-up, reset and recovery (18): the power-on reset (R445, R446), the start-up checks (R74, R447, R455, R457), DRAM
training and placement (R344, R349), the data-plane reset (R448 to R452), the warm restart (R453) and the device reset (R444). -/

namespace Sys2Proof.Machine

/-! ### What a power-on reset leaves -/

/-- Objects kept across a power-on reset: those of the record store (R409, R40, R457, R477) and readings of island 679 (R471). -/
def coldKeeps (k : Nat) : Bool :=
  let sub := keySub k
  match keyIndex k with
  | 0x1020 => sub == 3 || sub == 8
  | 0x6410 => sub == 3 || sub == 9 || sub == 0xA
  | 0x7022 | 0x7050 => true
  | 0x7040 => sub ≤ 2
  | 0x7041 => sub == 1
  | 0x7042 => sub == 1 || sub == 3 || sub == 5
  | _ => false

/-- Fuses blown in service read as they stand (R419). -/
def Dev.fuseObjs (d : Dev) : Dev :=
  let d1 := d.sec.revoked.foldl (fun (d : Dev) k => d.setO 0x1400 3 k 2) d
  d.sec.fuses.foldl (fun (d : Dev) e => d.setO 0x1400 4 e.1 e.2) d1

/-- Every transmitter stops (R445, R448). -/
def Dev.signalsOff (d : Dev) : Dev :=
  { d with out := d.out ++ d.ports.filterMap (fun e => if e.2.sends = .off then none else some (.signal e.1 .off)) }

/-- The device after a power-on reset (R444): what the record store, the boot flash, the fuses and the contacts hold; everything else
as it comes up. -/
def Dev.cold (d : Dev) : Dev :=
  ({ objs := mfilter coldKeeps d.objs
     dict := { epoch := d.dict.epoch, pegs := d.dict.pegs }
     sess := d.sess.filterMap (fun e => if e.2.recH = 0 then none else some (e.1, { recH := e.2.recH }))
     ev := { slots := d.ev.present, rotten := d.ev.rotten }
     host := { perst := d.host.perst }
     sec := { flash := d.sec.flash, recA := d.sec.torn.recA, recB := d.sec.torn.recB, revoked := d.sec.revoked, fuses := d.sec.fuses
              dbgCut := d.sec.dbgEnd.isSome || d.sec.dbgCut }
     inputs := d.inputs.filterMap (fun e =>
       let x : InSt := { raw := e.2.raw, edge := e.2.edge }
       if x = {} then none else some (e.1, x))
     power := { d.power with resetAt := 0, cmds := [], warm := false, supply := false, thermal := false, noClock := [], stalledBy := [],
                             ackFault := false }
     free := d.free
     out := d.signalsOff.out } : Dev).fuseObjs

/-- PORST_N is asserted (R445). -/
def porstAssert : M Unit := modify fun d => { d with power.porst := true }.cold

/-! ### Start-up checks -/

/-- The security fields whose OTP mirrors fail (R418): 0 to 3 key slots, 4 and 5 counters, 6 the device secret. `both`: neither mirror
is valid. -/
def otpSecurity (f : Nat) (both : Bool) : M Unit := do
  if f < 4 then setO 0x1400 3 f 2
  else if f < 6 then do
    if both then setO 0x1400 4 (f - 4) 127
  else modify fun d => { d with sec.secretBad := true }
  raiseEv 547 0x140D 3 f 0 0

/-- A calibration field whose OTP mirrors fail: a sensor (R467), a quantity of a lane (R74), or (from 65,536 on) a training seed of a DRAM
byte lane, 3 × lane + quantity, of which the spec names no record (R349). -/
def otpField (f : Nat) (both : Bool) : M Unit := do
  let st := if both then 2 else 1
  if f < 7 then otpSecurity f both
  else if 65536 ≤ f then
    if both then modify fun d => { d with dram.generic := (f - 65536) :: d.dram.generic.filter (· != f - 65536) }
  else if 16 ≤ f ∧ f < 32 then
    let k := f - 16
    if both then modify fun d => { d with power.generic := k :: d.power.generic.filter (· != k) }
    raiseEv (591 + k) 0x7047 2 k 0 st
  else if 64 ≤ f then
    let l := (f - 64) / 14
    let q := (f - 64) % 14
    if both then modify fun d => d.setLane l { d.lane l with generic := q :: (d.lane l).generic.filter (· != q) }
    peakO 0x2030 3 l st
    raiseEv (l / 4) 0x2001 2 l (objParam (calKey q)) st

/-- Pegged objects are compared and applied (R447). Every keyed session goes on with the recorded H plus 4,096, as after a core
failure (R61), though R444 gives 1140h.06 the default 0 (DESIGN CHOICE, log entry 140). -/
def pegApply (bad : List Nat) : M Unit := do
  pegCompare bad
  modify fun d => d.dict.pegs.foldl (fun (d : Dev) e =>
    if d.dict.pegIndet.contains e.1 then d
    else match e.2 with
      | some t => { d with objs := mset objDflt d.objs e.1 (pegSeal e.1 t.a.val t.a.epoch) }
      | none => d) d
  -- without the device secret no stored session key is available (R418, R436)
  if (← get).sec.secretBad then
    for k in List.range 64 do setO 0x1140 2 k 0
  -- sessions go on from the record store (R61)
  modify fun d => (List.range 64).foldl (fun (d : Dev) k =>
    if d.o 0x1140 2 k = 0 then d else d.resumeSess (d.o 0x1140 5 k) k) d

/-- Repair records are applied; those in `bad` fail their check (R457). -/
def repairApply (bad : List Nat) : M Unit := do
  for e in (← get).objs.filter (fun e => keyIndex e.1 == 0x7022 && keySub e.1 == 1) do
    let k := keyInst e.1
    let addr := fld e.2 0 32
    let ch := fld e.2 54 6
    if bad.contains k then raiseEv 578 0x7006 2 0 k 0
    else if fld e.2 60 4 = 1 then modify fun d => d.setO 0x7020 1 0 (d.o 0x7020 1 - 1)
    else modify fun d => { d.setO 0x7021 1 ch (d.o 0x7021 1 ch - 1) with dram.spared := (ch * 2 ^ 20 + addr) :: d.dram.spared }

/-- The buffer test (R455): a cell that fails is served from a spare, or retired. -/
def bufferTest (cells : List Nat) : M Unit := do
  for c in nub cells do
    let d ← get
    let spares := d.o 0x7020 1
    if 0 < spares then
      setO 0x7020 1 0 (spares - 1)
      repairRecord 1 0 c
    else
      set { d with yard.retired := d.yard.retired ++ [c] }
      incO 0x4000 0xA

/-! ### DRAM training and placement -/

/-- A measured window in ps that is or is not narrower than 5020h.06. -/
def eyeWidth (narrow : Bool) : M Nat := do
  let lim ← getO 0x5020 6
  let v ← fresh
  return if narrow then v % lim else lim + v % (65536 - lim)

/-- The seed of quantity `q` (1 read delay, 2 write delay, 3 Vref) of a byte lane: the factory value, or the generic one, with the user
offset, which for Vref counts steps of 0.5% (R349). -/
def Dev.dramSeed (d : Dev) (i q : Nat) : Int :=
  let base := if d.dram.generic.contains (3 * i + (q - 1)) then (if q = 3 then 500 else 32) else d.o 0x7830 q i
  clampI 0 65535 ((base : Int) + d.oS 16 0x5004 q i * (if q = 3 then 5 else 1))

/-- Train channel `n` (R349). `out` names the lanes that pass with a narrow read window, 4 × lane + 1, or a narrow write window,
4 × lane + 3, or that fail, 4 × lane + 2; a lane is 2n + k. The chosen point is a free point of the sweep: delays 32 steps around the
seed, Vref 10 steps of 0.5%. -/
def trainChannel (out : List Nat) (n : Nat) : M Unit := do
  let lanes := [2 * n, 2 * n + 1]
  let narrow := lanes.any (fun i => out.contains (4 * i + 1) || out.contains (4 * i + 3))
  let fail := lanes.filter (fun i => out.contains (4 * i + 2))
  for i in lanes do
    if fail.contains i then
      raiseEv (384 + n) 0x5004 2 n (i % 2) (← fresh)
    else
      setO 0x5003 1 i (← eyeWidth (out.contains (4 * i + 1)))
      setO 0x5003 2 i (← eyeWidth (out.contains (4 * i + 3)))
      for q in [1, 2, 3] do
        let v ← fresh
        let at_ : Int := if q = 3 then ((v % 21 : Nat) : Int) * 5 - 50 else ((v % 65 : Nat) : Int) - 32
        setO 0x5003 (q + 2) i (clampI 0 65535 ((← get).dramSeed i q + at_)).toNat
      setO 0x5003 6 i 0
  modify fun d => { d with dram.drift := mfilter (fun i => i / 2 != n) d.dram.drift }
  if fail ≠ [] then
    setO 0x5001 1 n 4
    raiseEv (384 + n) 0x5002 2 n 3 64
  else
    setO 0x5001 1 n 2
    setO 0x5001 6 n 0
    if narrow then
      let d ← get
      degrade n 2 (lanes.foldl (fun a i => min a (min (d.o 0x5003 1 i) (d.o 0x5003 2 i))) 65535)

/-- The placement of the segments of Sill `s` over the channels in service (R344). -/
def Dev.placement (d : Dev) (s : Nat) : List (Nat × Nat × Nat) :=
  let home := fun (g : Nat) => 24 * s + g % 24
  let own := (List.range 1536).filterMap fun g => if d.chOn (home g) then some (g, home g, g / 24) else none
  let rest := (List.range 1536).filter fun g => !d.chOn (home g)
  rest.foldl (fun l g =>
    match ((List.range 24).map (fun j => 24 * s + (g + j) % 24)).find? d.chOn with
    | some ch => l ++ [(g, ch, freePos l ch)]
    | none => l ++ [(g, home g, g / 24)]) own

/-- Place the segments of both Sills, and see whether each Sill's DRAM serves (R344, R355). -/
def placeAll : M Unit := do
  for s in [0, 1] do
    modify fun d => d.setSegs s (d.placement s)
    let d ← get
    let bad := ((List.range 24).map (· + 24 * s)).find? (fun n => !d.chOn n)
    sillFail s (bad.getD (24 * s))

/-- The orders of the regions come into force (R345). -/
def Dev.takeOrders (d : Dev) : Dev :=
  (List.range 4).foldl (fun (d : Dev) r =>
    let v := d.o 0x5010 3 r
    { d with dram.order := oset d.dram.order r (if v = (if r = 0 then 1 else 0) then none else some v) }) d

/-! ### Data-plane ready -/

/-- Islands run, ports begin, and the data plane is ready (R446, R448). `kind`: as 7000h.03; `ms` since the reset began; segments of
the flow table that were emptied. -/
def dpReadyTell (kind ms emptied : Nat) : M Unit := do
  modify fun d => (List.range 168).foldl (fun (d : Dev) i =>
    if d.o 0x7010 1 (512 + i) = 1 then d.setO 0x7010 1 (512 + i) (if d.power.noClock.contains (512 + i) then 4 else 2) else d) d
  setO 0x7000 2 0 2
  setO 0x7000 8 0 ms
  raiseEv 576 0x7002 2 kind ms emptied
  for x in (← get).power.lateRails do
    raiseEv 579 0x7045 2 (x / 16) (x % 16) 0
    incO 0x7040 5
  modify fun d => { d with power.lateRails := [] }

/-- Every port takes up its state: an enabled one enters state 1 (R448), the patterns of a disabled one run (R79). -/
def portsStart : M Unit := do
  for p in List.range 256 do
    let d ← get
    if d.oB 0x2400 2 p then adminChanged p
    else if (List.range 4).any (fun k => d.patterned (4 * p + k)) then lanesPower p

/-! ### Power-up (R446) -/

/-- The time base starts or resumes in state 0, or in state 2 under servo mode 2 (R94, R449): integrator, correction and refusal count
begin at 0, and no span of state 2 lies before. -/
def timeResume : M Unit := do
  modify fun d => { d.setO 0x1820 8 0 0 with time.integ := 0, time.freq := 0, time.consec := 0, time.small := 0 }
  if (← getO 0x1820 1) = 2 then
    freqSet
    enterTime 2
  else enterTime 0
  let now ← runNow
  modify fun d => { d with time.spans := [], time.spanFrom := now }

/-- The start-up sequence from the state a power-on reset leaves. `rails`: sequencing violations; `noClock`: islands whose clock is absent
(R16). -/
def powerUp (kind cause : Nat) (slots pegs otp cells dram recs rails noClock : List Nat) : M Unit := do
  setO 0x7000 3 0 kind
  setO 0x7000 4 0 cause
  setO 0x7000 5 0 0xFFFF
  headerRead slots
  if kind = 0 then
    incO 0x6410 9
    -- the monitors begin anew
    modify fun d => { d with power.lifeTold := false, power.hot := [], power.railFar := [],
                             power.railOut := d.power.railOut.filter (fun e => decide (e.1 = 5 ∨ 10 ≤ e.1)) }
  let d ← get
  set { (d.setO 0x1020 3 0 d.dict.epoch) with
    power.lateRails := d.power.lateRails ++ rails, power.noClock := noClock, power.generic := [], power.watts := [] }
  raiseEv 611 0x6406 0 (← getO 0x6410 9) ((← getO 0x6410 0xA) / 16) 0
  for f in otp do otpField (f / 2) (f % 2 == 1)
  modify fun d => (List.range 168).foldl (fun (d : Dev) i => d.setO 0x7010 1 (512 + i) 1) d
  pegApply pegs
  repairApply recs
  bufferTest cells
  modify fun d => d.takeOrders
  for n in List.range 48 do trainChannel dram n
  placeAll
  -- both cores boot, an update on trial goes on with its trial (R426, R431)
  let d ← get
  let r := d.sec.boot
  let d := (d.setO 0x1460 1 0 1).setO 0x1460 1 1 1
  set (if r.fwTry = 1 ∧ 0 < r.fwTryLeft then { d with sec.updImage := r.fwActive, sec.updOld := 1 - r.fwActive } else d)
  if r.fwTry = 1 ∧ 0 < r.fwTryLeft then updTrial
  newChallenge
  -- an unlock that the reset ended (R442)
  if (← get).sec.dbgCut then
    modify fun d => { d with sec.dbgCut := false }
    raiseEv 550 0x8002 1 2 0 0
  pgValidate (← get).pgUsed
  timeResume
  dpReadyTell kind ((← fresh) % 136) 2048
  portsStart
  ledgerCheck slots

/-- POWER_UP: PORST_N is released. -/
def powerOn (slots pegs otp cells dram recs rails noClock : List Nat) : M Unit := do
  if (← get).power.porst then
    modify fun d => { d.cold with power.porst := false }
    withReader (fun _ => {}) (powerUp 0 0 slots pegs otp cells dram recs rails noClock)

/-- The clock at a power-up. -/
def powerClock (d : Dev) (k : Clock) : Clock := if d.power.porst then {} else k

/-! ### Commanded resets (R444) -/

/-- A warm restart is in progress. -/
def Dev.resetBusy (d : Dev) (v : Nat) : Bool := (v == 2 && d.o 0x7000 2 == 3) || (v == 1 && d.power.warm)

/-- A write of `v` to 7000h.01 by plane `pl`: the status. -/
def resetCmd (pl v : Nat) : M Nat := do
  let d ← get
  if d.resetBusy v then incO 0x7000 9
  else set { d with power.cmds := d.power.cmds ++ [(v, pl)] }
  return 0

/-- The oldest commanded reset of a kind. -/
def Dev.resetPending (d : Dev) (kind : Nat) : Option Nat := (d.power.cmds.find? (fun c => c.1 == kind)).map Prod.snd

/-- It begins. -/
def Dev.resetTaken (d : Dev) (kind pl : Nat) : Dev := { d with power.cmds := d.power.cmds.erase (kind, pl) }

/-- A warm restart (R453). -/
def warmRestart (cause : Nat) : M Unit := do
  raiseEv 577 0x7003 2 cause 0 0
  setO 0x7000 3 0 1
  setO 0x7000 4 0 cause
  setO 0x7000 5 0 0xFFFF
  incO 0x7000 7
  modify fun d => { ((d.stopFunction0.resetBar0 0).resetBar0 1).setO 0x5400 1 0 0 with power.warm := true }
  modify fun d => (d.owned 0 ++ d.owned 1).foldl Dev.dropBank d
  if (← get).updStaged then
    updDiscard 0
    modify fun d => { d with sec.staged := none }
  coresWarm
  warmOver

/-- WARM_RESTART: a commanded warm restart begins. -/
def warmBegin : M Unit := do
  let d ← get
  match d.resetPending 1 with
  | some pl =>
    set (d.resetTaken 1 pl)
    warmRestart (1 + pl)
  | none => return ()

/-- DEVICE_RESET: a commanded device reset begins, and runs as a power-up. -/
def deviceReset (slots pegs otp cells dram recs noClock : List Nat) : M Unit := do
  match (← get).resetPending 3 with
  | some pl =>
    modify Dev.cold
    withReader (fun _ => {}) (powerUp 3 (1 + pl) slots pegs otp cells dram recs [] noClock)
  | none => return ()

/-- The clock at a device reset. -/
def deviceClock (d : Dev) (k : Clock) : Clock := if (d.resetPending 3).isSome then {} else k

/-! ### The data-plane reset (R448 to R452) -/

/-- Objects of the data-plane areas that a data-plane reset returns to their defaults (R450). -/
def Dev.dpDrops (d : Dev) (k : Nat) : Bool :=
  let ix := keyIndex k
  let sub := keySub k
  if !dataPlaneArea ix then false
  else if (ix = 0x5001 ∧ sub = 1) ∨ ix = 0x5011 ∨ (ix = 0x2030 ∧ sub = 3) ∨
      (ix = 0x5003 ∧ d.o 0x5001 1 (keyInst k / 2) = 2) then false
  else match findRow ix sub with
    | some r => r.acc == .ro || r.acc == .rc || r.acc == .w1c
    | none => false

/-- Commits accepted before complete in the configuration store (R452): their data-plane parts swap now and stay invisible, as part
(FFh, 0), until data-plane ready. -/
def Dev.dpSwaps (d : Dev) : Dev :=
  let dp := fun (x : Nat × Nat) => dataPlaneArea (x.1 * 0x400)
  let d1 := d.dict.commits.foldl (fun (d : Dev) c =>
    (c.left.filter dp).foldl (fun (d : Dev) x => d.swapPart x.1 x.2 c.epoch) d) d
  let areas := (mkeys d1.dict.banks).filter (fun a => dataPlaneArea (a * 0x400) && (d1.bank a).phase != .idle)
  let d2 := areas.foldl Dev.dropBank d1
  { d2 with
    dict.commits := d2.dict.commits.map (fun c =>
      if c.left.any dp then { c with left := c.left.filter (fun x => !dp x) ++ [(0xFF, 0)] } else c)
    dict.baysNew := []
    dict.oldObj := []
    dict.oldTbl := [] }

/-- The data plane as it restarts: what R450 keeps. A lane counts as never adapted afterwards (DESIGN CHOICE, log entry 119). What ran to
a device time goes on with what is left of it (R87). Reflections that were not delivered are dropped without a count, and RSEQ goes on
(DESIGN CHOICE, log entry 140). -/
def Dev.dpRestart (d : Dev) (k : Clock) : Dev :=
  let exact := fun (k : Nat) => !(tkeyIndex k == 0x3400 || tkeyIndex k == 0x3440)
  let d1 : Dev := { d with
    objs := mfilter (fun k => !d.dpDrops k) d.objs
    tbls := mfilter exact d.tbls
    yard := { nextId := d.yard.nextId, cellErr := d.yard.cellErr, retired := d.yard.retired, noSpare := d.yard.noSpare }
    eg := {}
    ports := []
    lanes := d.lanes.filterMap (fun e =>
      let x : LaneSt := { generic := e.2.generic, cfg := d.laneCfg e.1 }
      if x = {} then none else some (e.1, x))
    plumb := {}
    bays := {}
    flow := { slots := d.flow.slots }
    dram := { drift := mfilter (fun i => d.o 0x5001 1 (i / 2) == 2) d.dram.drift, order := d.dram.order, spared := d.dram.spared, bad := d.dram.bad,
              full := d.dram.full, generic := d.dram.generic }
    joinery := {}
    mon := { exp := d.mon.exp, expIn := d.mon.expIn, expSeq := d.mon.expSeq, bwLen := d.mon.bwLen }
    host.punts := []
    host.inj := []
    inputs := d.inputs.filterMap (fun e =>
      let x : InSt := { raw := e.2.raw, edge := e.2.edge, fired := e.2.fired }
      if x = {} then none else some (e.1, x))
    time := { rseq := d.time.rseq, ppsLast := d.time.ppsLast }
    ev.limits := limitsRestart k.dev d.ev.limits
    uopDrops := d.uopDrops.map (fun x => (x.1, x.2 - k.dev))
    sec.dbgEnd := d.sec.dbgEnd.map (· - k.dev) }
  let d2 := ((d1.setO 0x4000 0xA 0 d.yard.retired.length).setO 0x4302 1 15 d.ev.queue.length).setO 0x3441 2 0 0
  let d3 := (d2.setO 0x1801 3 0 0).setO 0x1820 8 0 0
  -- the pools of SD1 being empty, messages that were held take units of pool 7 (R401)
  let d3 := Dev.sendHeld d3.ev.held d3
  (List.range 672 ++ [675]).foldl (fun (d : Dev) i => d.setO 0x7010 1 i (if i < 512 ∧ !d.oB 0x2400 2 (i % 256) then 0 else 1)) d3

/-- Table operations on 3800h.01 in progress or waiting are answered 0701h (R450). -/
def tableOpsLost : M Unit := do
  let d ← get
  let tasks := d.joinery.tasks.flatMap (fun e => e.2) ++ d.joinery.waiting.map Prod.snd
  for t in tasks do
    match t.work with
    | .table k op _ addr entry => tblFinish k op 0x701 addr (toBytes 120 entry)
    | _ => pure ()

/-- A data-plane reset begins, with its cause and the stalled island, FFFFh for none. -/
def dpBegin (cause island : Nat) : M Unit := do
  let d ← get
  if d.o 0x7000 2 ≠ 2 then return ()
  let now ← runNow
  raiseEv 576 0x7001 3 cause island d.yard.cellsUsed
  setO 0x7000 2 0 3
  setO 0x7000 3 0 2
  setO 0x7000 4 0 cause
  setO 0x7000 5 0 island
  incO 0x7000 6
  modify fun d => { d with power.resetAt := now }
  modify Dev.dpSwaps
  storeDrive
  for a in (← get).dict.banks.filterMap (fun e => if dataPlaneArea (e.1 * 0x400) && e.2.owner != 0 then some e.1 else none) do
    loseBank a
  tableOpsLost
  let k ← read
  let d ← get
  for e in d.eg.express ++ d.eg.preempt do
    match e.2 with
    | some t => if !t.cut ∧ !d.slotted t.copy.port then emit (d.errBlock t k.dev)
    | none => pure ()
  modify fun d => { d.signalsOff.dpRestart k with time.spanFrom := now }

/-- DATA_PLANE_RESET: a commanded data-plane reset begins. -/
def dpCommanded : M Unit := do
  let d ← get
  match d.resetPending 2 with
  | some pl =>
    set (d.resetTaken 2 pl)
    dpBegin (1 + pl) 0xFFFF
  | none => return ()

/-- Device time restarts when a data-plane reset begins (R449). -/
def dpClock (begins : Bool) (d : Dev) (k : Clock) : Clock := if begins && d.o 0x7000 2 == 2 then { k with dev := 0 } else k

/-- The flow table after training and placement (R451): records survive in segments of region 0 that kept their order, their place
and a channel that was not trained again. `old`: the placements before; the number of segments emptied. -/
def Dev.flowSurvive (d : Dev) (kept : Nat → Nat → Bool) : Dev × Nat :=
  let gone := (List.range 2048).filter (fun x => !kept (x / 1024) (x % 1024))
  let d := { d with flow.slots := mfilter (fun a => kept (addrSill a) (a % 67108864 / 65536)) d.flow.slots }
  let count := fun (s : Nat) => (d.flow.slots.filter (fun e => addrSill e.1 == s)).length
  ((d.setO 0x3800 2 0 (count 0)).setO 0x3800 2 1 (count 1), gone.length)

/-- DP_READY: steps 7 to 9 of R448. `dram` as in `trainChannel`. -/
def dpReady (dram : List Nat) : M Unit := do
  let d0 ← get
  if d0.o 0x7000 2 ≠ 3 then return ()
  let now ← runNow
  let again := (List.range 48).filter (fun n => d0.o 0x5001 1 n != 2)
  for n in again do trainChannel dram n
  placeAll
  let d ← get
  let kept := fun (s g : Nat) =>
    let r := regionOf g
    d.o 0x5010 3 r == d.orderOf r && d.segAt s g == d0.segAt s g && !again.contains (d.segAt s g).1
  let (d, emptied) := d.flowSurvive kept
  set { d.takeOrders with flow.scanning := List.range 32 }
  for s in [0, 1] do
    if (List.range 256).any (fun g => !kept s (1024 + g)) then coreUnplanned s 3
    for g in List.range 128 do
      if !kept s (1280 + g) then exportSegmentLost s g
  -- commits that waited for the reset become visible (R452)
  modify fun d => ({ d with
    dict.commits := d.dict.commits.map (fun c => { c with left := c.left.filter (· ≠ (0xFF, 0)) }) } : Dev).settle
  cmTell
  timeResume
  let c ← read
  for p in List.range 256 do setO 0x4030 1 p c.dev
  let d ← get
  bondForm ((List.range 31).filter (fun g => bondPorts (d.o 0x2850 1 g) != [])) []
  pgValidate (← get).pgUsed
  dpReadyTell 2 ((now - d.power.resetAt) / uMs) emptied
  portsStart

/-! ### Meanings -/

/-- PORST_ASSERT (R445). -/
def execPorstAssert (s : State) := run .porstAssert porstAssert s

/-- POWER_UP (R446). -/
def execPowerUp (slots pegs otp cells dram recs rails noClock : List Nat) (s : State) :=
  runClk (.powerUp slots pegs otp cells dram recs rails noClock) (powerOn slots pegs otp cells dram recs rails noClock) powerClock s

/-- DATA_PLANE_RESET (R448). -/
def execDataPlaneReset (s : State) :=
  runClk .dataPlaneReset dpCommanded (fun d => dpClock (d.resetPending 2).isSome d) s

/-- DP_READY (R448). -/
def execDpReady (dram : List Nat) (s : State) := run (.dpReady dram) (dpReady dram) s

/-- WARM_RESTART (R453). -/
def execWarmRestart (s : State) := run .warmRestart warmBegin s

/-- DEVICE_RESET (R444). -/
def execDeviceReset (slots pegs otp cells dram recs noClock : List Nat) (s : State) :=
  runClk (.deviceReset slots pegs otp cells dram recs noClock) (deviceReset slots pegs otp cells dram recs noClock) deviceClock s

end Sys2Proof.Machine
end

