-- ==== Sys2Proof/Machine/Electrical.lean ====
section
/-! DEFINITION. Supplies, temperatures and SMBus (19): rails (R460 to R464), sensors (R467, R468), power (R477), the life estimate
(R466), SMBus commands (R471). -/

namespace Sys2Proof.Machine

/-! ### Trips (R464) -/

/-- The record of a trip is formed and stored at once, ahead of pool 7, whether or not a core is in service. -/
def tripRecord (src code p1 p2 : Nat) : M Unit := do
  let c ← read
  modify fun d => d.raise1 c src code 3
  let d ← get
  let m := mkMsg c d src code 3 p1 p2 0
  if d.anyCore then formRecord m
  else
    let seq := d.o 0x6410 3
    setO 0x6410 3 0 ((seq + 1) % 2 ^ 48)
    if bitOf (d.o 0x6400 2 src) 0 then eventRingWrite 0 (recordBytes m seq)
    storeRecord 3 ⟨seq, ofBytes (recordBytes m seq)⟩

/-- Objects of islands 678 and 679, which go on through a trip (R464): events, the Ledger, resets, supplies and sensors. -/
def tripKeeps (k : Nat) : Bool :=
  let ix := keyIndex k
  (0x6400 ≤ ix && ix < 0x6800) || (0x7000 ≤ ix && ix < 0x7400 && ix != 0x7010 && !(ix == 0x7000 && keySub k == 2))

/-- The device once every island but 678 and 679 has stopped. -/
def Dev.tripped (d : Dev) : Dev :=
  let e : Dev := { d.cold with
    objs := mfilter (fun k => coldKeeps k || tripKeeps k) d.objs
    ev := { d.ev with held := d.ev.held.filter (fun x => decide (576 ≤ x.1 ∧ x.1 < 612)) }
    power := d.power }
  (((e.fuseObjs).setO 0x7010 1 678 2).setO 0x7010 1 679 2).setO 0x4302 1 15 d.ev.queue.length

/-- A supply fault or a thermal shutdown: the record, and on the first trip every island but 678 and 679 stops until PORST_N; a second one
adds its record. -/
def trip (thermal : Bool) (src code p1 p2 : Nat) : M Unit := do
  tripRecord src code p1 p2
  let d ← get
  if !(d.power.supply || d.power.thermal) then
    set { d.tripped with power.supply := !thermal, power.thermal := thermal }

/-! ### Rails (R460, R463) -/

/-- Nominal voltage in mV and operating range in percent. -/
def railSpec (k : Nat) : Nat × Nat :=
  [(800, 3), (750, 3), (1250, 3), (750, 3), (700, 3), (1800, 3), (1050, 3), (900, 3), (500, 3), (900, 2), (800, 3), (1800, 5),
    (2500, 5)].getD k (0, 0)

/-- A rail of group 1 (R462): VDR_ONE, VDD_AON, VDDIO_18, VDD_STORE. -/
def railFirst (k : Nat) : Bool := k == 5 || 10 ≤ k

/-- 0 in the range of `t` percent around nominal, 1 low, 2 high. -/
def railBand (nom t mv : Nat) : Nat := if mv * 100 < nom * (100 - t) then 1 else if nom * (100 + t) < mv * 100 then 2 else 0

/-- The group in which a rail comes up (R462). -/
def railGroup (k : Nat) : Nat := [3, 3, 4, 3, 3, 1, 2, 2, 3, 2, 1, 1, 1].getD k 0

/-- The last sample of rail `k` lies outside its operating range. -/
def Dev.railBad (d : Dev) (k : Nat) : Bool := railBand (railSpec k).1 (railSpec k).2 (d.o 0x7040 1 k) != 0

/-- A rail rises, from 0 mV in the sample before (DESIGN CHOICE, log entry 138): the monitor notes each rail of an earlier group that is not in
range (R463). -/
def railRises (k : Nat) : M Unit := do
  let d ← get
  let bad := (List.range 13).filter fun j => decide (railGroup j < railGroup k) && d.railBad j
  set { d with power.lateRails := d.power.lateRails ++ bad.map (fun j => k * 16 + j) }

/-- The mean power of rail `k` in µW over the last millisecond, or what its last reading gives. -/
def Dev.railPower (d : Dev) (now k : Nat) : Nat :=
  match (mget (dK []) d.power.watts k).filter (fun x => now < x.1 + uMs) with
  | [] => d.o 0x7040 1 k * d.o 0x7040 2 k
  | l => (l.map Prod.snd).sum / l.length

/-- Power of all rails in mW over the last millisecond (7041h.01). -/
def Dev.powerNow (d : Dev) (now : Nat) : Nat := ((List.range 13).map (d.railPower now)).sum / 1000

/-- A sample goes into the power of the last millisecond and its peak. -/
def powerMeter (k mv ma : Nat) : M Unit := do
  let now ← runNow
  modify fun d => { d with
    power.watts := mset (dK []) d.power.watts k (((now, mv * ma) :: (mget (dK []) d.power.watts k).filter (fun x => now < x.1 + uMs)).take 1000) }
  let w := min (2 ^ 32 - 1) ((← get).powerNow now)
  setO 0x7041 1 0 w
  peakO 0x7041 2 0 w

/-- A sample of a rail. While PORST_N holds the device the rails may be coming up, and none of them trips (DEDUCED from R445 and R464, log
entry 138). -/
def railSample (k mv ma : Nat) : M Unit := do
  let was ← getO 0x7040 1 k
  setO 0x7040 1 k mv
  setO 0x7040 2 k ma
  powerMeter k mv ma
  if was = 0 ∧ 0 < mv then railRises k
  let (nom, t) := railSpec k
  let band := railBand nom t mv
  let far := railBand nom 8 mv
  let d ← get
  if railFirst k then
    set { d with power.railOut := nset d.power.railOut k (if band = 0 then 0 else 1) }
    if band = 1 then porstAssert
  else if d.power.porst then
    set { d with power.railOut := nset d.power.railOut k 0, power.railFar := nset d.power.railFar k 0 }
  else
    let nOut := nget d.power.railOut k
    let nFar := nget d.power.railFar k
    let nOut' := if band = 0 then 0 else if far = 0 then nOut + 1 else nOut
    let nFar' := if far = 0 then 0 else nFar + 1
    set { d with power.railOut := nset d.power.railOut k nOut', power.railFar := nset d.power.railFar k nFar' }
    if band = 0 then setO 0x7040 3 k 0
    else if far = 0 ∧ nOut' = 1000 then
      setO 0x7040 3 k band
      incO 0x7040 4 k
      raiseEv 579 0x7040 2 k mv band
    else if nFar' = 10 then
      setO 0x7040 3 k band
      incO 0x7040 4 k
      trip false 579 0x7041 k mv

/-- Power has stood above 7041h.03 for 1 s (R477). -/
def powerWarn : M Unit := do
  let w ← getO 0x7041 1
  let lim ← getO 0x7041 3
  if lim < w then raiseEv 580 0x7044 1 w lim 0

/-! ### Sensors (R467, R468) -/

/-- The offset of a sensor in force, in 2^-16 °C. -/
def Dev.sensorOfs (d : Dev) (k : Nat) : Int :=
  let f := if d.power.generic.contains k then 0 else d.oS 32 0x7840 1 k
  clampI (-327680) 327680 (f + d.oS 32 0x7042 5 k)

/-- Reading of a sensor in 2^-16 °C. -/
def Dev.sensor (d : Dev) (k : Nat) : Int := d.oS 32 0x7042 1 k

/-- The hottest sensor. -/
def Dev.hottest (d : Dev) : Int := (List.range 16).foldl (fun a k => max a (d.sensor k)) (d.sensor 0)

/-- 2^-16 °C as 0.1 °C. -/
def deci (t : Int) : Int := t * 10 / 65536

/-- A reading of a sensor. -/
def sensorSample (k : Nat) (raw : Int) : M Unit := do
  let d ← get
  let ofs := d.sensorOfs k
  let t := clampI (-(2 ^ 31)) (2 ^ 31 - 1) (raw + ofs)
  let d := d.setO 0x7042 1 k (ofS 32 t)
  set (if d.oS 32 0x7042 2 k < t then d.setO 0x7042 2 k (ofS 32 t) else d)
  let d ← get
  let warn := d.o 0x7042 3
  if (warn : Int) * 65536 ≤ t ∧ !d.power.therm then
    set { d with power.therm := true, power.ackTherm := false }
    raiseEv 581 0x7042 2 k (ofS 32 (deci t)) warn
  let d ← get
  let n := if 115 * 65536 ≤ t ∧ !d.power.porst then nget d.power.hot k + 1 else 0
  set { d with power.hot := nset d.power.hot k n }
  if n = 10 then trip true 582 0x7043 k (ofS 32 (deci t))

/-- THERM_N is released, once every sensor reads at least 3 °C below 7042h.03. -/
def thermDeassert : M Unit := do
  let d ← get
  if (List.range 16).all (fun k => decide (d.sensor k + 3 * 65536 ≤ (d.o 0x7042 3 : Int) * 65536)) then
    set { d with power.therm := false, power.ackTherm := false }

/-! ### The life estimate (R466) -/

/-- Terms of the exponential series in 2^-64: `n` terms from term `k`. -/
def expTerms (r : Int) : Nat → Nat → Int → Int
  | 0, _, _ => 0
  | n + 1, k, term => term + expTerms r n (k + 1) (term * r / (2 ^ 64 * (k + 1)))

/-- exp of x × 2^-64, in 2^-64. -/
def exp64 (x : Int) : Nat :=
  let ln2 : Int := 12786308645202655660
  let n := x / ln2
  let y := (expTerms (x % ln2) 30 0 (2 ^ 64)).toNat
  if 0 ≤ n then y * 2 ^ n.toNat else y / 2 ^ (-n).toNat

/-- The acceleration factor at a temperature in 2^-16 °C, in 2^-64: with T in units of 2^-16/20 K, 8,123.5 × (1/363.15 − 1/T) is
162,470 × (T − R) ÷ (7,263 × T), R being 363.15 K. A temperature at or below absolute zero counts as one unit. -/
def lifeFactor (t : Int) : Nat :=
  let tt := max 1 (20 * t + 5463 * 65536)
  exp64 (162470 * 2 ^ 64 * (tt - 7263 * 65536) / (7263 * tt))

/-- The bin of 7050h.02 for a temperature. -/
def lifeBin (t : Int) : Nat := ([70, 85, 95, 105].filter (fun (x : Int) => decide (x * 65536 ≤ t))).length

/-- Follow the swings of the hottest sensor: the turning point followed, and whether a swing of 30 K has ended (DESIGN CHOICE, log entry 107: what a swing
is, the spec does not say). -/
def swingStep (t : Int) : Option (Int × Bool) → (Int × Bool) × Bool
  | none => ((t, true), false)
  | some (x, true) => if x < t then ((t, true), false) else if x - t < 30 * 65536 then ((x, true), false) else ((t, false), true)
  | some (x, false) => if t < x then ((t, false), false) else if t - x < 30 * 65536 then ((x, false), false) else ((t, true), true)

/-- A second of the life estimate. -/
def lifeTick : M Unit := do
  let d ← get
  let t := d.hottest
  let f := d.power.lifeFrac + lifeFactor t * 100 / 78894
  let b := lifeBin t
  let secs := nget d.power.binSecs b + 1
  let (sw, ended) := swingStep t d.power.swing
  let d := d.addO 0x7050 1 0 (f / 2 ^ 64)
  let d := if secs = 3600 then d.addO 0x7050 2 b 1 else d
  let d := if ended then d.addO 0x7050 3 0 1 else d
  set { d with
    power.lifeFrac := f % 2 ^ 64
    power.binSecs := nset d.power.binSecs b (secs % 3600)
    power.swing := some sw }
  let d ← get
  let used := d.o 0x7050 1 * 2 ^ 64 + d.power.lifeFrac
  let share := d.o 0x6410 0xA * 100 * 2 ^ 64 / 1262304
  if 11 * share < 10 * used ∧ !d.power.lifeTold then
    set { d with power.lifeTold := true }
    raiseEv 583 0x7046 2 (d.o 0x7050 1) (share / 2 ^ 64) 0

/-! ### SMBus (R471) -/

/-- One step of the CRC-8 x^8 + x^2 + x + 1, `n` bits. -/
def crc8Step : Nat → Nat → Nat
  | 0, c => c
  | n + 1, c => crc8Step n (if bitOf c 7 then (2 * c) % 256 ^^^ 7 else 2 * c)

/-- The packet error code of an SMBus transaction (PRESUMED: the SMBus CRC-8, log entry 30). -/
def smbPec (b : Bytes) : Nat := b.foldl (fun c x => crc8Step 8 (c ^^^ x.toNat)) 0

/-- The address of the SMBus target (R471). -/
def smbTarget : Nat := 0x58 + Config.smbAddr % 4

/-- Island 679 serves SMBus: it runs, and VDD_AON and VDDIO_18 are within range (R471). -/
def Dev.smbServed (d : Dev) : Bool :=
  decide (d.o 0x7010 1 679 < 3) && nget d.power.railOut 10 == 0 && nget d.power.railOut 11 == 0

/-- What a read of command `cmd` puts on the bus: its data, behind their number in a Block Read, and the code over the whole transaction. -/
def smbRead (cmd : Nat) (block : Bool) (data : Bytes) : Out :=
  let n : Bytes := if block then [BitVec.ofNat 8 data.length] else []
  .smb smbTarget data (smbPec ([BitVec.ofNat 8 (2 * smbTarget), BitVec.ofNat 8 cmd, BitVec.ofNat 8 (2 * smbTarget + 1)] ++ n ++ data))

/-- Two octets on SMBus, low octet first (PRESUMED: the SMBus order, log entry 30). -/
def smbWord (v : Nat) : Bytes := [BitVec.ofNat 8 v, BitVec.ofNat 8 (v / 256)]

/-- A read of command `cmd` is answered, where SMBus is served. -/
def smbAnswer (cmd : Nat) (block : Bool) (f : Dev → Bytes) : M Unit := do
  let d ← get
  if d.smbServed then emit (smbRead cmd block (f d))

/-- FAULT_N as the pin stands (R405, R464). -/
def Dev.faultPin (d : Dev) : Bool := d.faultN || d.power.supply || d.power.thermal

/-- SMB_ALERT_N is asserted. -/
def Dev.smbAlert (d : Dev) : Bool := (d.faultPin && !d.power.ackFault) || (d.power.therm && !d.power.ackTherm)

/-- FAULT_N may have been released: SMB_ALERT_N is armed again. -/
def faultSettle : M Unit := modify fun d => if d.faultPin then d else { d with power.ackFault := false }

/-- The status word. -/
def Dev.smbStatus (d : Dev) : Nat :=
  ofBool d.faultPin + 2 * ofBool d.power.therm + 4 * ofBool d.power.porst + 8 * ofBool d.power.thermal + 16 * ofBool d.power.supply +
    32 * ofBool (d.o 0x7000 2 == 2)

/-! ### Meanings -/

/-- RAIL_SAMPLE (R463). -/
def execRailSample (k mv ma : Nat) (s : State) := run (.railSample k mv ma) (whileRunning 679 (railSample k mv ma)) s

/-- SENSOR_SAMPLE (R467). -/
def execSensorSample (k : Nat) (raw : Int) (s : State) := run (.sensorSample k raw) (whileRunning 679 (sensorSample k raw)) s

/-- THERM_DEASSERT (R468). -/
def execThermDeassert (s : State) := run .thermDeassert thermDeassert s

/-- POWER_WARN_EXCEED (R477). -/
def execPowerWarnExceed (s : State) := run .powerWarnExceed powerWarn s

/-- LIFE_TICK (R466). -/
def execLifeTick (s : State) := run .lifeTick (whileRunning 679 lifeTick) s

/-- SMB_HOTTEST_SENSOR (R471). -/
def execSmbHottestSensor (s : State) := run .smbHottestSensor (smbAnswer 0 false fun d => smbWord (ofS 16 (deci d.hottest))) s

/-- SMB_SENSOR (R471). -/
def execSmbSensor (k : Nat) (s : State) := run (.smbSensor k) (smbAnswer (k + 1) false fun d => smbWord (ofS 16 (deci (d.sensor k)))) s

/-- SMB_RAIL_VOLTAGE (R471). -/
def execSmbRailVoltage (k : Nat) (s : State) := run (.smbRailVoltage k) (smbAnswer (0x20 + k) false fun d => smbWord (d.o 0x7040 1 k)) s

/-- SMB_RAIL_CURRENT (R471): in 0.1 A. -/
def execSmbRailCurrent (k : Nat) (s : State) :=
  run (.smbRailCurrent k) (smbAnswer (0x30 + k) false fun d => smbWord (d.o 0x7040 2 k / 100 % 65536)) s

/-- SMB_TOTAL_POWER (R471): in W. -/
def execSmbTotalPower (s : State) := run .smbTotalPower (smbAnswer 0x40 false fun d => smbWord (d.o 0x7041 1 / 1000 % 65536)) s

/-- SMB_STATUS (R471). -/
def execSmbStatus (s : State) := run .smbStatus (smbAnswer 0x41 false fun d => smbWord d.smbStatus) s

/-- SMB_IDENTITY (R471): the part number, then the serial number. -/
def execSmbIdentity (s : State) :=
  run .smbIdentity (smbAnswer 0x50 true fun d => toBytes 8 (d.o 0x1000 3) ++ toBytes 16 (d.o 0x1000 5)) s

/-- SMB_ALERT_RESPONSE (R471): the target answers with its address while it asserts SMB_ALERT_N, and releases it (PRESUMED: the address in
[7:1] with [0] 0, as SMBus has it, log entry 30). -/
def execSmbAlertResponse (s : State) :=
  run .smbAlertResponse (do
    let d ← get
    if d.smbServed ∧ d.smbAlert then
      let a : Bytes := [BitVec.ofNat 8 (2 * smbTarget)]
      emit (.smb 0x0C a (smbPec (0x19#8 :: a)))
      modify fun d => { d with power.ackFault := d.faultPin, power.ackTherm := d.power.therm }) s

end Sys2Proof.Machine
end

