-- ==== Sys2Proof/Machine/Inputs.lean ====
section
/-! DEFINITION. Filtered inputs (R157 to R160): dwell, chatter, the stuck watchdog, and what each input does. Inputs 0 to 7 are
PROT_REQ_N, 8 PPS_IN, 9 WARMRST_N, 10 to 17 OHP_RDY_N; levels are true when asserted. -/

namespace Sys2Proof.Machine

/-- An input. -/
def Dev.input (d : Dev) (i : Nat) : InSt := mget (dK {}) d.inputs i

/-- Replace it. -/
def Dev.setInput (d : Dev) (i : Nat) (x : InSt) : Dev := { d with inputs := mset (dK {}) d.inputs i x }

/-- Channels routed to an overhead port (R134). -/
def Dev.ohpRouted (d : Dev) (n : Nat) : Nat :=
  (d.objs.filter (fun e => keyIndex e.1 == 0x2870 && keySub e.1 == 1 && e.2 == 2 && d.o 0x2870 2 (keyInst e.1) / 4 == n)).length

/-- The level of an input as used changes: what the input does (R136, R160, R453). -/
def inputLevel (i : Nat) (on : Bool) : M Unit := do
  let d ← get
  if d.oB 0x28E0 6 i ≠ on then
    setO 0x28E0 6 i (ofBool on)
    if i < 8 then pgPin i
    else if i = 9 then
      if on ∧ !(d.input 9).fired then
        modify fun d => d.setInput 9 { d.input 9 with fired := true }
        warmRestart 4
    else if 10 ≤ i then
      let n := i - 10
      setO 0x2871 2 n (ofBool on)
      if !on ∧ 0 < d.ohpRouted n then raiseEv 468 0x280D 1 n (d.ohpRouted n) 0

/-- The raw level of an input changes (R157); too many changes within a second freeze it (R158). -/
def inputRaw (i : Nat) (level : Bool) : M Unit := do
  let d ← get
  let k ← read
  let x := d.input i
  if x.raw ≠ level then
    let ch := (x.changes.filter (fun t => k.run < t + uS)) ++ [k.run]
    set (d.setInput i { x with raw := level, edge := k.net, edgeRun := k.run, changes := ch })
    if d.o 0x28E0 5 i < 2 ∧ d.o 0x28E0 2 i < ch.length then
      setO 0x28E0 5 i 2
      incO 0x28E0 7 i
      raiseEv (618 + i) 0x2817 1 i ch.length 0

/-- A raw level has held for the dwell time: the change is dated by its raw edge (R106, R157). A stuck input keeps the time of its
declaration (R159). -/
def inputDwell (i : Nat) : M Unit := do
  let d ← get
  let x := d.input i
  if x.raw ≠ x.filt then
    let since := if x.raw ∧ d.o 0x28E0 5 i ≠ 3 then x.edgeRun else x.since
    set (d.setInput i { x with filt := x.raw, since := since, fired := x.fired && x.raw })
    if d.o 0x28E0 5 i < 2 then
      setO 0x28E0 5 i (ofBool x.raw)
      inputLevel i x.raw
      if i = 8 ∧ x.raw then ppsConfirmed x.edge

/-- A frozen input is released after a second with no more changes than the limit, and takes its filtered value (R158). -/
def inputRelease (i : Nat) : M Unit := do
  let d ← get
  let now ← runNow
  let x := d.input i
  if d.o 0x28E0 5 i = 2 ∧ (x.changes.filter (fun t => now < t + uS)).length ≤ d.o 0x28E0 2 i then
    setO 0x28E0 5 i (ofBool x.filt)
    inputLevel i x.filt

/-- An input asserted for longer than its watchdog is stuck (R159). -/
def inputStuck (i : Nat) : M Unit := do
  let d ← get
  let now ← runNow
  if d.o 0x28E0 5 i = 1 ∧ d.o 0x28E0 3 i ≠ 0 then
    let x := d.input i
    set (d.setInput i { x with since := now })
    setO 0x28E0 5 i 3
    incO 0x28E0 8 i
    raiseEv (618 + i) 0x2818 2 i ((now - x.since) / uMs) 0
    inputLevel i false

/-- A stuck input that has been inactive for its release time (R159). -/
def inputUnstick (i : Nat) : M Unit := do
  let d ← get
  let now ← runNow
  let x := d.input i
  if d.o 0x28E0 5 i = 3 ∧ !x.filt then
    setO 0x28E0 5 i 0
    raiseEv (618 + i) 0x2819 1 i ((now - x.since) / uMs) 0

/-! ### Meanings -/

/-- INPUT_RAW_CHANGE (R157). -/
def execInputRawChange (i : Nat) (level : Bool) (s : State) := run (.inputRawChange i level) (inputRaw i level) s

/-- INPUT_DWELL_EXPIRY (R157). -/
def execInputDwellExpiry (i : Nat) (s : State) := run (.inputDwellExpiry i) (inputDwell i) s

/-- INPUT_CHATTER_RELEASE (R158). -/
def execInputChatterRelease (i : Nat) (s : State) := run (.inputChatterRelease i) (inputRelease i) s

/-- INPUT_STUCK (R159). -/
def execInputStuck (i : Nat) (s : State) := run (.inputStuck i) (inputStuck i) s

/-- INPUT_STUCK_RELEASE (R159). -/
def execInputStuckRelease (i : Nat) (s : State) := run (.inputStuckRelease i) (inputUnstick i) s

end Sys2Proof.Machine
end

