-- ==== Sys2Proof/Machine/Islands.lean ====
section
/-! DEFINITION. Crossings that stall and recover (R15). -/

namespace Sys2Proof.Machine

/-- The frames of a bay that are not yet admitted are discarded and counted (R15; DESIGN CHOICE, log entry 51: in 3020h.07, the spec names no counter). -/
def bayDiscard (b : Nat) : M Unit := do
  let now ← devNow
  modify fun d => { d with yard.fifos := mset (dK []) d.yard.fifos b [] }
  for e in (← get).yard.frames do
    match e.2 with
    | some f =>
      if f.bay = b ∧ f.phase < 3 then
        incO 0x3020 7 f.port
        modify fun d => d.unpark f.sill f.id
        endFrame f.id { outcome := 3, at0 := now }
    | none => pure ()

/-- What the device does when island `i` is declared stalled, by its kind. -/
def stallAction (i : Nat) : M Unit := do
  if i < 512 then portEval (i % 256)
  else if i < 576 then
    let b := i - 512
    modify fun d => { d with bays.down := b :: d.bays.down.filter (· != b) }
    bayDiscard b
    for k in [0, 1, 2, 3] do portEval (4 * b + k)
  else if i < 592 ∨ i = 675 then dpBegin 3 i
  else if i < 640 then retire (i - 592) 2
  else if i < 672 then coreStall (i - 640)
  else if i < 674 then coreUnplanned (i - 672) 2
  else if i = 674 then hostVanish 4

/-- The crossing from island `src` into island `i` is declared stalled by the watchdog of its sending side, once until the island accepts
data again; a stopped island is exempt (R14). Each crossing has its watchdog; what the device does it does at the first. -/
def crossingStall (i src : Nat) : M Unit := do
  let d ← get
  let st := d.o 0x7010 1 i
  let known := if st = 3 then mget (dK []) d.power.stalledBy i else []
  if (st = 2 ∨ st = 3) ∧ !known.contains src then
    set { d.setO 0x7010 1 i 3 with power.stalledBy := mset (dK []) d.power.stalledBy i (src :: known) }
    incO 0x7010 3 i
    raiseEv 590 0x7031 2 i (← getO 0x7010 3 i) src
    if st = 2 then stallAction i

/-- A stalled island accepts data again. -/
def islandRecover (i : Nat) : M Unit := do
  if (← getO 0x7010 1 i) = 3 then
    modify fun d => { d.setO 0x7010 1 i 2 with power.stalledBy := mset (dK []) d.power.stalledBy i [] }
    if i < 512 then portEval (i % 256)
    else if 640 ≤ i ∧ i < 672 then coreRejoin (i - 640)

/-- A stall of this island starts a data-plane reset. -/
def stallResets (i : Nat) (d : Dev) : Bool := d.o 0x7010 1 i == 2 && ((576 ≤ i && i < 592) || i == 675)

/-! ### Meanings -/

/-- CROSSING_STALL (R15). -/
def execCrossingStall (i src : Nat) (s : State) :=
  runClk (.crossingStall i src) (crossingStall i src) (fun d => dpClock (stallResets i d) d) s

/-- ISLAND_RECOVER (R15). -/
def execIslandRecover (i : Nat) (s : State) := run (.islandRecover i) (islandRecover i) s

end Sys2Proof.Machine
end

