-- ==== Sys2Proof/Machine/Pipeline.lean ====
section
/-! DEFINITION. A frame's way through its bay: reception and its checks (R85, R127, R166), the pre-pipeline FIFO (R162, R163),
injected frames (R366), parsing outcomes (R168), the stages, and the park limit (R222). -/

namespace Sys2Proof.Machine

/-! ### Management frames -/

/-- The offset of the EtherType behind at most two VLAN tags. -/
def etherOfs (b : Bytes) : Nat :=
  if isVlan (beAt b 12 2) then (if isVlan (beAt b 16 2) then 20 else 16) else 12

/-- The offset and length of the UOP message that a received frame carries, if it is taken for UOP (R62). -/
def Dev.uopSpan (d : Dev) (p : Nat) (b : Bytes) : Option (Nat × Nat) :=
  if !d.oB 0x1100 1 p then none
  else
    let o := etherOfs b
    let t := beAt b o 2
    if t = d.o 0x1100 2 ∧ beAt b 0 6 = d.o 0x1100 3 then some (o + 2, b.length - 4 - (o + 2))
    else
      let udp := fun (u : Nat) => if beAt b (u + 2) 2 = d.o 0x1100 6 then some (u + 8, beAt b (u + 4) 2 - 8) else none
      if t = 0x0800 ∧ byteAt b (o + 11) = 17 ∧ d.o 0x1100 4 ≠ 0 ∧ beAt b (o + 18) 4 = d.o 0x1100 4 then
        udp (o + 2 + byteAt b (o + 2) % 16 * 4)
      else if t = 0x86DD ∧ byteAt b (o + 8) = 17 ∧ d.o 0x1100 5 ≠ 0 ∧ beAt b (o + 26) 16 = d.o 0x1100 5 then udp (o + 42)
      else none

/-! ### The pre-pipeline FIFO -/

/-- Frames in the FIFO of a bay. -/
def Dev.fifo (d : Dev) (b : Nat) : List Nat := mget (dK []) d.yard.fifos b

/-- Replace the FIFO of a bay. -/
def Dev.setFifo (d : Dev) (b : Nat) (l : List Nat) : Dev := { d with yard.fifos := mset (dK []) d.yard.fifos b l }

/-- The bay pipeline of a bay is stopped: its island has stalled, or had no clock at start-up (R15, R16). -/
def Dev.bayStopped (d : Dev) (b : Nat) : Bool := decide (3 ≤ d.o 0x7010 1 (512 + b))

/-- Whether a frame that arrives is traced (R386). -/
def traceTag (p : Nat) : M Bool := do
  let d ← get
  let b := p / 4
  if !d.oB 0x6040 1 b ∨ !bitOf (d.o 0x6040 3 b) (p % 4) then return false
  else
    let r ← fresh
    if r % 2 ^ d.o 0x6040 2 b ≠ 0 then return false
    else
      let now ← devNow
      let recent : Bool := match oget d.mon.lastTag b with | some t => decide (now < t + uUs) | none => false
      if recent then
        incO 0x6041 3 b
        return false
      else
        modify fun d => { d with mon.lastTag := oset d.mon.lastTag b (some now) }
        return true

/-- A frame arrives at the FIFO of its bay (R163), with its pre-class: it enters, or is shed. -/
def fifoArrive (f0 : Frame) (pre : Nat) : M Unit := do
  let d ← get
  let c ← read
  let b := f0.bay
  let id := d.yard.nextId
  set { d with yard.nextId := id + 1 }
  let traced ← traceTag f0.port
  let shift : Int := if f0.origin = 0 then d.tsShift f0.port 1 else 0
  let ten := ((((0 : Nat) |> (putFld · 504 8 f0.port)) |> (putFld · 488 16 f0.trib)) |> (putFld · 485 3 pre)) |> (putFld · 378 16 0xFF)
  let f : Frame := { f0 with
    id := id, t0 := shiftTime c.dev shift, tsNet := shiftTime c.net shift, pre := pre, traced := traced
    tenon := if f0.tenon = 0 then ten else f0.tenon }
  let n := (d.fifo b).length
  if f0.origin < 2 ∧ (1024 ≤ n ∨ d.ob (d.bankOf b) 0x3023 (pre + 1) ≤ n) then
    incO 0x3021 1 (f.port * 8 + pre)
    let t := c.dev
    modify fun d => { d with yard.sheds := (b * 8 + pre, t) :: d.yard.sheds.filter (fun x => t < x.2 + uS) }
    let mine := (← get).yard.sheds.filter (fun x => x.1 / 8 == b)
    raiseLim (256 + b) 0x3001 1 b b mine.length (mine.foldl (fun a x => max a (x.1 % 8)) 0) 0
    reportEnd f none { outcome := 1, at0 := c.dev }
  else
    setFrame f
    modify fun d => d.setFifo b (d.fifo b ++ [id])
    peakO 0x3022 1 b (n + 1)

/-- MAX_FRAME and JABBER_LEN of a port. -/
def Dev.limits (d : Dev) (p : Nat) : Nat × Nat := (d.o 0x2400 4 p, d.o 0x2400 5 p)

/-- A frame of an Ethernet port arrives: its first octets, or the whole of it. -/
def portArrive (p : Nat) (data : Bytes) (whole : Bool) : M Unit := do
  let d ← get
  let b := p / 4
  if d.bayStopped b then return ()
  else fifoArrive { bay := b, port := p, data := data, whole := whole, limits := d.limits p } (d.preClass (d.bankOf b) p data % 8)

/-- A port receives frames. -/
def Dev.receives (d : Dev) (p : Nat) : Bool :=
  let s := d.o 0x2400 3 p
  !d.slotted p && s != 0 && s != 6 && s != 7

/-- A frame starts at the receiver of a port: false while the receiver discards after a jabber and no idle block came before (R85). -/
def rxStart (p : Nat) (idle : Bool) : M Bool := do
  let d ← get
  if !(d.port p).jabber then return true
  else if !idle then return false
  else
    set (d.setPort p { d.port p with jabber := false })
    return true

/-- FIFO_ENTRY: the head of a frame of an Ethernet port reaches the FIFO; `idle`: at least one idle block came before it. -/
def fifoEntry (p : Nat) (data : Bytes) (idle : Bool) : M Unit := do
  if (← get).receives p then
    if ← rxStart p idle then
      let d ← get
      if (d.uopSpan p data).isNone ∧ beAt data 12 2 ≠ 0x8808 then portArrive p data false

/-! ### The end of reception -/

/-- A datagram claim beyond the last octet before the FCS (R166, cause 7): the frame's fault, counted. -/
def lateClaim (f : Frame) (len : Nat) (fault : Option Nat) : M (Option Nat) := do
  match fault, f.claim with
  | none, some x =>
    if len - 4 < x ∧ f.tf 291 1 = 0 then
      incO 0x3020 3 f.port
      raiseLim (256 + f.bay) 0x3003 1 f.bay f.port 7 0 3
      return some 4
    else return none
  | y, _ => return y

/-- The checks of R85 on a whole frame, with MAX_FRAME and JABBER_LEN as it started: none when it is good, else its stomp cause;
counted. -/
def macCheck (p : Nat) (data : Bytes) (fecBad : Bool) (lim : Nat × Nat) : M (Option Nat) := do
  let n := data.length
  let body := data.take (n - 4)
  let fcs := data.drop (n - 4)
  if n < 64 then
    incO 0x2420 5 p
    return some 0
  else if lim.2 ≤ n then
    incO 0x2420 7 p
    raiseLim p 0x2405 1 p lim.2 0 0 3
    modify fun d => d.setPort p { d.port p with jabber := true }
    return some 3
  else if lim.1 < n then
    incO 0x2420 6 p
    return some 3
  else if fcs = toBytes 4 (ofBytes (fcsBytes body) ^^^ 0x5A5A5A5A) then
    incO 0x2420 4 p
    return some 1
  else if fecBad ∨ fcs ≠ fcsBytes body then
    incO 0x2420 3 p
    return some 0
  else
    incO 0x2420 1 p
    addO 0x2420 2 p n
    return none

/-- A frame ends in reception with octets and a fault, and stage 9's learning request leaves if it is good (R85, R200). -/
def frameEnds (f : Frame) (data : Bytes) (fault : Option Nat) : M Unit := do
  let late ← lateClaim f data.length fault
  endReception f data late
  match (← get).frame f.id with
  | some f => sendLearn f
  | none => sendLearn { f with fault := late }

/-- The frame of an Ethernet port in reception that `id` names. -/
def Dev.receiving (d : Dev) (p id : Nat) : Option Frame :=
  match d.frame id with
  | some f => if f.port = p ∧ f.origin = 0 ∧ !f.whole then some f else none
  | none => none

/-- A reassembly error discards the frame being reassembled (R327). -/
def reassemblyError (p id : Nat) (data : Bytes) : M Unit := do
  let c ← read
  incO 0x4410 7 p
  modify fun d => { d with eg.reasm := (p, c.dev) :: d.eg.reasm.filter (fun x => c.dev < x.2 + uS) }
  let d ← get
  raiseLim p 0x4404 1 p p ((d.eg.reasm.filter (fun x => x.1 == p)).length) 0 3
  match d.receiving p id with
  | some f => frameEnds f data (some 0)
  | none => return ()

/-- FRAME_RECEIVE: a frame ends at the MAC of an Ethernet port (R85), after `frags` additional fragments. `id` is the frame in reception; a
number that no frame has had names a frame whose head has not reached the FIFO, and `idle` says that an idle block came before it.
`frag` 1: a reassembly error; 2: what is received is no frame but a verification request, which is answered (R327). -/
def frameReceive (p id : Nat) (data : Bytes) (fecBad idle : Bool) (frags frag : Nat) : M Unit := do
  let d ← get
  if !d.receives p then return ()
  let pre := d.oB 0x4410 1 p
  let mine := d.receiving p id
  if frag = 2 then
    if pre ∧ !d.txStopped p then emit (.verify p true)
    return ()
  if mine.isNone then
    if !(← rxStart p idle) then return ()
  let lim := match mine with | some f => f.limits | none => d.limits p
  bwAdd p 0 (min data.length lim.2)
  if pre then addO 0x4410 5 p frags else addO 0x2420 3 p frags
  if frag = 1 ∧ pre then reassemblyError p id data
  else
    let fault ← macCheck p data (fecBad || frag == 1 || (0 < frags && !pre)) lim
    if beAt data 12 2 = 0x8808 ∧ d.frame id = none then
      if fault = none then controlFrame p data
    else
      match mine with
      | some f => frameEnds f (if fault = some 3 then data.take lim.2 else data) fault
      | none =>
        if d.frame id = none ∧ fault = none ∧ d.yard.nextId ≤ id ∧ (d.uopSpan p data).isNone then portArrive p data true

/-- The protection group that pairs the resource on which tributary `e` is demapped, whether that is its protect resource, and the key
under which its frames are processed (R149). -/
def Dev.clientGroup (d : Dev) (e : Nat) : Option (Nat × Bool × Nat) :=
  match d.pgUsed.find? (fun g => d.pgPorts g && (d.o 0x28C0 2 g == e / 160 || d.o 0x28C0 3 g == e / 160)) with
  | some g => some (g, d.o 0x28C0 3 g == e / 160, d.o 0x28C0 2 g * 160 + e % 160)
  | none =>
    (d.pgUsed.find? (fun g => d.pgTribs g && (d.o 0x28C0 2 g == e || d.o 0x28C0 3 g == e))).map
      (fun g => (g, d.o 0x28C0 3 g == e, d.o 0x28C0 2 g))

/-- The key under which frames demapped from tributary `e` are processed: a selector on protect reads the protect resource as the
working one; the resource not selected gives nothing (R149). -/
def Dev.clientKey (d : Dev) (e : Nat) : Option Nat :=
  match d.clientGroup e with
  | some (g, prot, k) => if prot == (d.o 0x28C1 5 g == 1) then some k else none
  | none => some e

/-- A frame that began at device time `start` was in progress when the selector over tributary `e` last moved: on the old input, whose
key is given, it is discarded; on the new one, which is read from the next frame start, it was never begun (none) (R149). -/
def Dev.cutBySelector (d : Dev) (e start : Nat) : Option (Option Nat) :=
  match d.clientGroup e with
  | some (g, prot, k) =>
    if (d.pg g).selAt ≤ start then none else some (if prot == (d.o 0x28C1 5 g == 1) then none else some k)
  | none => none

/-- PC_FRAME_RX: a frame demapped from receive tributary `e` is checked and passed whole to the bay (R127). -/
def clientFrame (e : Nat) (data : Bytes) (bad : Bool) : M Unit := do
  let d ← get
  let now ← devNow
  let r := d.rxTrib e
  if r.mode ≠ 2 ∨ r.slots.isEmpty then return ()
  match d.cutBySelector e (now - tribTime r.slots.length (tribBlocks data.length)) with
  | some (some k) => return (← incO 0x2832 4 k)
  | some none => return ()
  | none => pure ()
  match d.clientKey e with
  | none => return ()
  | some k =>
    let n := data.length
    let body := data.take (n - 4)
    let fcs := data.drop (n - 4)
    bwAdd (k / 160) 0 (min n 16384)
    let sl := r.label.getD 0
    if sl ≠ 1 ∧ sl ≠ 2 then incO 0x2832 7 k
    else if bad then incO 0x2832 4 k
    else if n < 64 ∨ d.o 0x2832 1 k < n then incO 0x2832 6 k
    else if fcs = toBytes 4 (ofBytes (fcsBytes body) ^^^ 0x5A5A5A5A) then incO 0x2832 5 k
    else if fcs ≠ fcsBytes body then incO 0x2832 4 k
    else
      incO 0x2832 2 k
      addO 0x2832 3 k n
      let p := k / 160
      let b := p / 4
      if d.bayStopped b then return ()
      else fifoArrive { bay := b, port := p, trib := k, origin := 1, data := data, whole := true } (d.preClass (d.bankOf b) p data % 8)

/-! ### Injected frames (R366) -/

/-- The Tenon of a direct-mode frame. -/
def directTenon (desc : Bytes) : Nat :=
  let p := beAt desc 12 2
  let t := putFld (putFld (putFld 0 504 8 p) 488 16 0xFFFF) 485 3 (byteAt desc 14)
  let t := putFld (putFld (putFld t 450 4 1) 430 20 p) 426 4 (byteAt desc 15)
  let t := putFld (putFld (putFld t 378 16 0xFF) 376 2 (byteAt desc 16 / 64)) 358 2 (fld (byteAt desc 16) 4 2)
  putFld (putFld (putFld (putFld t 368 8 (byteAt desc 17)) 360 8 (byteAt desc 18)) 326 32 (beAt desc 20 4)) 278 8 (byteAt desc 19)

/-- The first injected frame of a ring enters the FIFO, once there is room below its threshold. -/
def injectEnter (r : Nat) : M Unit := do
  let d ← get
  match mget (dK []) d.host.inj r with
  | [] => return ()
  | x :: rest =>
    let p := beAt x.desc 12 2
    let tc := byteAt x.desc 14
    let b := p / 4
    if (d.fifo b).length < d.ob (d.bankOf b) 0x3023 (tc + 1) ∧ !d.bayStopped b then
      set { d.poolGive 1 x.units with host.inj := mset (dK []) d.host.inj r rest }
      let direct : Bool := byteAt x.desc 11 == 1
      let ten := if direct then directTenon x.desc
        else putFld (putFld (putFld (putFld (putFld 0 504 8 p) 488 16 0xFFFF) 485 3 tc) 378 16 0xFF) 278 8 (byteAt x.desc 19)
      fifoArrive
        { bay := b, port := p, origin := if direct then 3 else 2, ring := r, data := x.data ++ fcsBytes x.data, whole := true
          tenon := ten } tc

/-! ### Parsing and the stages -/

/-- A frame ends at parse, dropped or punted (R168). -/
def parseEnd (f : Frame) (punt : Option Nat) : M Unit := do
  let now ← devNow
  setFrame f
  match punt with
  | none =>
    incO 0x3020 5 f.port
    endFrame f.id { outcome := 2, at0 := now }
  | some r =>
    incO 0x3020 6 f.port
    puntFrame f r
    endFrame f.id { outcome := 2, cause := r, at0 := now }

/-- A frame is parsed: what it becomes, if it goes on to the stages (R165 to R168). -/
def parseFrame (f0 : Frame) : M (Option Frame) := do
  let d ← get
  let now ← devNow
  let p := f0.port
  let b := f0.bay
  let bank := d.bankOf b
  let x := d.parse bank p f0.data
  let f := { f0 with
    bank := bank, phase := 1, fields := x.fields, wofs := x.wofs, presence := x.presence, hdrs := x.hdrs
    ip := d.ipHeader x.hdrs, claim := x.claim, tParsed := some now }
  let f := f.setT 291 1 (d.ob bank 0x3010 4 p)
  if let some s := x.unknown then
    incO 0x3020 4 p
    raiseLim (256 + b) 0x3006 1 b p s 0 3
  if x.incons ≠ 0 then
    incO 0x3020 2 p
    raiseLim (256 + b) 0x3003 1 b p x.incons 0 3
    parseEnd (f.setT 292 1 1) (if d.ob bank 0x3010 3 p = 1 then some 2 else none)
    return none
  else if x.trunc then
    let f := f.setT 293 1 1
    incO 0x3020 1 p
    raiseLim (256 + b) 0x3002 1 b p x.hdrs.length 0 3
    match d.ob bank 0x3010 2 p with
    | 1 =>
      parseEnd f none
      return none
    | 2 =>
      parseEnd f (some 1)
      return none
    | _ => return some f
  else return some f

/-- A parsed frame runs stages 1 to 3, and goes on to stage 9 unless it asks for a flow record first (R170, R217). -/
def stagesFirst (f : Frame) (bad : List Nat) : M Unit := do
  let late ← if f.whole then lateClaim f f.data.length f.fault else pure f.fault
  let f ← stagesRun bad [1, 2, 3] { f with fault := late }
  let f ← stage3End f
  if f.asked then setFrame f
  else
    let f ← stagesRun bad [4, 5, 6, 7, 8] f
    if f.whole then sendLearn f
    stage9Entry f bad

/-- A frame whose flow request has been served runs stages 4 to 8 and reaches stage 9. -/
def stagesRest (f : Frame) (bad : List Nat) : M Unit := do
  let f ← stagesRun bad [4, 5, 6, 7, 8] f
  if f.whole then sendLearn f
  stage9Entry f bad

/-- An older frame of the same flow and port has not reached stage 9 (R11). -/
def Dev.olderBefore9 (d : Dev) (f : Frame) : Bool := d.yard.frames.any fun e => match e.2 with
  | some g => g.aheadOf f && g.phase == 1 && g.tStage9.isNone
  | none => false

/-- FRAME_PIPELINE: the frame at the head of its bay's FIFO is parsed and runs the stages until it has to wait; a frame whose flow
request has been served runs on. -/
def framePipeline (id : Nat) (bad : List Nat) : M Unit := do
  let d ← get
  match d.frame id with
  | none => return ()
  | some f =>
    if d.bayStopped f.bay then return ()
    if f.phase = 0 then
      match d.fifo f.bay with
      | [] => return ()
      | h :: rest =>
        if h ≠ id then return ()
        set (d.setFifo f.bay rest)
        if f.origin = 3 then setFrame { f with phase := 2 }
        else
          match ← parseFrame f with
          | none => return ()
          | some f => stagesFirst f bad
    else if f.phase = 1 ∧ f.asked ∧ f.looked ∧ f.parkedAt = none ∧ f.tStage9 = none ∧ !d.olderBefore9 f then stagesRest f bad

/-- PARK_TIMEOUT: a waiting frame reaches the park limit (R221, R222). -/
def parkTimeout (id : Nat) : M Unit := do
  match (← get).frame id with
  | none => return ()
  | some f =>
    if f.parkedAt.isSome then
      let r ← overflowReply f 0
      modify (·.unpark f.sill id)
      resumeFrame id r

/-! ### Meanings -/

/-- FIFO_ENTRY (R163). -/
def execFifoEntry (p : Nat) (data : Bytes) (idle : Bool) (s : State) := run (.fifoEntry p data idle) (fifoEntry p data idle) s

/-- FRAME_PIPELINE (R170). -/
def execFramePipeline (id : Nat) (bad : List Nat) (s : State) := run (.framePipeline id bad) (framePipeline id bad) s

/-- PARK_TIMEOUT (R222). -/
def execParkTimeout (id : Nat) (s : State) := run (.parkTimeout id) (parkTimeout id) s

/-- FRAME_RECEIVE (R85). -/
def execFrameReceive (p id : Nat) (data : Bytes) (fecBad idle : Bool) (frags frag : Nat) (s : State) :=
  run (.frameReceive p id data fecBad idle frags frag) (frameReceive p id data fecBad idle frags frag) s

/-- PC_FRAME_RX (R127). -/
def execPcFrameRx (e : Nat) (data : Bytes) (fecBad : Bool) (s : State) :=
  run (.pcFrameRx e data fecBad) (clientFrame e data fecBad) s

/-- PAUSE_RX (R336): a MAC control frame, checked as any frame. -/
def execPauseRx (p : Nat) (data : Bytes) (idle : Bool) (s : State) :=
  run (.pauseRx p data idle) (do
    if (← get).receives p then
      if ← rxStart p idle then
        bwAdd p 0 data.length
        let lim := (← get).limits p
        if (← macCheck p data false lim) = none ∧ beAt data 12 2 = 0x8808 then controlFrame p data) s

/-- INJECT_FIFO_ENTER (R366). -/
def execInjectFifoEnter (r : Nat) (s : State) := run (.injectFifoEnter r) (injectEnter r) s

end Sys2Proof.Machine
end

