-- ==== Sys2Proof/Machine/Values.lean ====
section
/-! DEFINITION. What every object reads now: values kept in the map of objects, values computed from the engines, counters that
take what the lines brought (free values, log entry 3), and the counter groups of R378 and R379. -/

namespace Sys2Proof.Machine

/-! ### Computed values -/

/-- The state of a ring of records (6041h.05, 6051h.04): incomplete, full, running, idle. -/
def ringState (lost full on : Bool) : Nat := if lost then 3 else if full then 2 else if on then 1 else 0

/-- A session's state (1140h.07). -/
def Dev.sessState (d : Dev) (s : Nat) : Nat :=
  if !d.oB 0x1140 1 s then 0
  else if d.o 0x1140 2 s = 0 then 1
  else if d.o 0x1140 6 s = 0xFFFFFFFF then 3
  else 2

/-- Where the gate list of a port stands (4432h.01). -/
def Dev.gateState (d : Dev) (p : Nat) : Nat :=
  if (oget d.eg.change p).isSome then 2 else if (d.gateList p false).on then 1 else 0

/-- The layout of a counter group (R379). -/
def groupLayout (g : Nat) : Nat :=
  if g < 256 then 1 else if g < 512 then 2 else if g < 768 then 3 else if g < 1024 then 4 else if g < 1088 then 5
  else if g < 1090 then 6 else if g < 1138 then 7 else if g < 1170 then 8
  else if 4096 ≤ g ∧ g < 4352 then 15 else 0

/-- Values computed from the state of several chapters. -/
def Dev.engineObj (d : Dev) (c : Clock) (ix sub i : Nat) : Option Nat :=
  match ix, sub with
  | 0x1140, 7 => some (d.sessState i)
  | 0x4000, 2 => some d.cellsFree
  | 0x4000, 3 => some d.sharedSize
  | 0x4000, 4 => some d.sharedFree
  | 0x4030, 2 => some (d.wOf i (d.blockBytes i))
  | 0x4030, 3 => some (d.egressPathNs i * 65536)
  | 0x4420, 5 => some (ofS 32 (d.credit c (i / 8) (i % 8) / (byteUnit : Int)))
  | 0x4432, 1 => some (d.gateState i)
  | 0x4432, 5 => some ((d.gateList i false).at c.net).1
  | 0x6000, 3 => some (groupLayout i)
  | 0x7042, 6 => some (ofS 32 (d.sensorOfs i))
  | 0x6041, 5 => some (ringState d.mon.traceLost (d.o 0x6041 1 == 1 && d.mon.traceN == 4194304)
      ((List.range 64).any (fun b => d.oB 0x6040 1 b)))
  | 0x6051, 4 => some (ringState (mget (dK false) d.mon.sampleLost i) (d.o 0x6051 1 i == 1 && nget d.mon.sampleN i == 33554432)
      ((List.range 16).any (fun n => d.oB 0x6050 1 (16 * i + n))))
  | _, _ => none

/-- The first value that a list of readers gives. -/
def firstSome : List (Unit → Option Nat) → Option Nat
  | [] => none
  | f :: r => match f () with | some v => some v | none => firstSome r

/-- What an object instance reads, with no effect: a computed value, or the value at the visible epoch (R35). -/
def Dev.value (d : Dev) (c : Clock) (key : Nat) : Nat :=
  let ix := keyIndex key
  let sub := keySub key
  let i := keyInst key
  (firstSome [fun _ => d.dictObj ix sub i, fun _ => d.ledgerObj ix sub i, fun _ => d.laneObj ix sub i, fun _ => d.timeObj c ix sub i,
    fun _ => d.plumbObj c ix sub i, fun _ => d.forwardObj ix sub i, fun _ => d.joineryObj ix sub i, fun _ => d.secObj c ix sub i,
    fun _ => d.dramObj ix sub i, fun _ => d.engineObj c ix sub i]).getD (d.visibleObj key)

/-! ### Values that the lines and clocks bring -/

/-- Share `n` corrected symbols among lanes: the last takes what the others leave, and theirs are free (log entry 3). -/
def shareSymbols : List Nat → Nat → M Unit
  | [], _ => return ()
  | [l], n => addO 0x2431 1 l n
  | l :: r, n => do
    let k := (← fresh) % (n + 1)
    addO 0x2431 1 l k
    shareSymbols r (n - k)

/-- The codewords that a locked port has received since its FEC counters were last brought up to date (R80, R86): how many had s − 1
symbols corrected, or (s = 17) could not be corrected, is free (log entry 3); all other FEC counts follow. -/
def fecSettle (p : Nat) : M Unit := do
  let d ← get
  if (d.port p).fecLock then
    let mut syms := 0
    for s in List.range 17 do
      let n ← fresh
      addO 0x2432 (s + 1) p n
      addO 0x2430 1 p n
      if s = 16 then addO 0x2430 3 p n
      else if 0 < s then
        addO 0x2430 2 p n
        syms := syms + s * n
    shareSymbols (d.lanesOf p) syms

/-- Bring a counter up to date whose increments the spec leaves to the line: FEC counts, the pattern checker (R79); a preemption that
fell due (R317). -/
def settleObj (key : Nat) : M Unit := do
  let ix := keyIndex key
  let i := keyInst key
  let sub := keySub key
  if ix = 0x2430 ∨ ix = 0x2432 then fecSettle i
  else if ix = 0x2431 then fecSettle (i / 4)
  else if ix = 0x2040 ∧ (sub = 4 ∨ sub = 5) then chkCount i
  else if (ix = 0x4410 ∧ (sub = 4 ∨ sub = 6)) ∨ (ix = 0x4432 ∧ sub = 7) then holdSettle i

/-- What an object instance reads once its counters are up to date. -/
def valueAt (key : Nat) : M Nat := do
  let ix := keyIndex key
  let sub := keySub key
  if sub = 0 ∧ findRow ix 0 = none then return highestSub ix
  else if (ix = 0x6400 ∨ ix = 0x6401) ∧ reservedSource (keyInst key) then return 0
  else if ix = 0x1030 ∧ sub = 3 then return (← get).pegState (keyInst key)
  else if ix = 0x5001 ∧ sub = 5 then return (← get).chUtil (keyInst key) (← read).run
  else if ix = 0x7010 ∧ sub = 2 then return (← fresh) % 2 ^ 32
  else return (← get).value (← read) key

/-- What an object instance reads, with the free parts taken. -/
def valueNow (key : Nat) : M Nat := do
  settleObj key
  valueAt key

/-! ### Counter groups -/

/-- The 64-bit word of an object: signed types are sign-extended (R378). -/
def wordOf (key v : Nat) : Nat :=
  match (findRow (keyIndex key) (keySub key)).map ObjRow.ty with
  | some (.i n) => ofS 64 (toS (8 * n) v)
  | some .q16 => ofS 64 (toS 32 v)
  | _ => v % 2 ^ 64

/-- The class words of group 512 + p: 4420h.06 to 4040h.02 (R379). -/
def classKey (p c k : Nat) : Nat :=
  let i := p * 8 + c
  match k with
  | 0 => okey 0x4420 6 i | 1 => okey 0x4420 7 i
  | 2 => okey 0x4031 8 i | 3 => okey 0x4031 9 i | 4 => okey 0x4031 0xA i | 5 => okey 0x4031 0xB i
  | 6 => okey 0x4031 0xC i | 7 => okey 0x4031 0xD i | 8 => okey 0x4031 0x10 i
  | 9 => okey 0x4452 1 i | 10 => okey 0x4452 2 i | 11 => okey 0x4452 3 i | 12 => okey 0x4452 4 i
  | 13 => okey 0x4451 6 i | 14 => okey 0x4040 1 i | _ => okey 0x4040 2 i

/-- The number of counters of a group (R378, R379). -/
def Dev.groupCount (d : Dev) (g : Nat) : Nat :=
  match groupLayout g with
  | 1 => 39 | 2 => 384 | 3 => 128 | 4 => 132 | 5 => 64 | 6 => 22 | 7 => 9 | 8 => 13
  | 15 => (List.range 511).foldl (fun a w => if d.o 0x6001 1 ((g - 4096) * 511 + w) ≠ 0 then w + 1 else a) 0
  | _ => 0

/-- The key that word `w + 1` of group `g` shows (R379), or none. -/
def Dev.groupKey (d : Dev) (g w : Nat) : Option Nat :=
  match groupLayout g with
  | 1 =>
    if w < 11 then some (okey 0x2420 (w + 1) g)
    else if w < 14 then some (okey 0x2430 (w - 10) g)
    else if w < 18 then some (okey 0x2431 1 (4 * g + (w - 14)))
    else if w < 35 then some (okey 0x2432 (w - 17) g)
    else if w = 35 then some (okey 0x2410 0xA g)
    else if w = 36 then some (okey 0x2410 0xB g)
    else if w = 37 then some (okey 0x2410 0xD g)
    else if w = 38 then some (okey 0x4041 1 g) else none
  | 2 =>
    if w < 384 then
      let q := (g - 256) * 128 + w / 3
      some (okey 0x4010 (if w % 3 = 0 then 0xD else if w % 3 = 1 then 9 else 0xA) q)
    else none
  | 3 => if w < 128 then some (classKey (g - 512) (w / 16) (w % 16)) else none
  | 4 =>
    let p := g - 768
    if w < 2 then some (okey 0x6020 2 (p * 2 + w))
    else if w < 4 then some (okey 0x6020 3 (p * 2 + (w - 2)))
    else if w < 132 then some (okey 0x6021 1 (p * 128 + (w - 4))) else none
  | 5 =>
    let b := g - 1024
    if w < 32 then some (okey 0x3021 1 ((4 * b + w / 8) * 8 + w % 8))
    else if w < 64 then some (okey 0x3020 (w % 8 + 1) (4 * b + (w - 32) / 8)) else none
  | 6 => if w < 22 then some (okey 0x3830 (w + 1) (g - 1088)) else none
  | 7 => if w < 9 then some (okey 0x5002 (w + 1) (g - 1090)) else none
  | 8 =>
    let n := g - 1138
    if w < 9 then some (okey 0x3852 (w + 1) n) else if w < 13 then some (okey 0x3851 1 (n * 4 + (w - 9))) else none
  | 15 =>
    if w < 511 then
      match d.o 0x6001 1 ((g - 4096) * 511 + w) with
      | 0 => none
      | k => some k
    else none
  | _ => none

/-- Bring the counter that word `w` of group `g` shows up to date. -/
def groupSettle (g w : Nat) : M Unit := do
  match (← get).groupKey g (w - 1) with
  | some key => if 0 < w then settleObj key
  | none => return ()

/-- Word `w` of group `g` (R378), its counter being up to date. -/
def groupWordAt (g w : Nat) : M Nat := do
  let d ← get
  if w = 0 then return groupLayout g <<< 48 + d.groupCount g
  else
    match d.groupKey g (w - 1) with
    | some key => return wordOf key (← valueAt key)
    | none => return 0

/-- Word `w` of group `g` (R378). -/
def groupWord (g w : Nat) : M Nat := do
  groupSettle g w
  groupWordAt g w

end Sys2Proof.Machine
end

