-- ==== Sys2Proof/Machine/Monitors.lean ====
section
/-! DEFINITION. Snapshots of counter groups (R381, R382), the trace and sample rings (R388 to R390). -/

namespace Sys2Proof.Machine

/-! ### Snapshots -/

/-- A write of `g` to 6002h.01: the first whole microsecond at least 10 µs later, for one group or for every enabled group. -/
def snapNow (g : Nat) : M Nat := do
  if 16384 ≤ g ∧ g ≠ 0xFFFF then return 0x302
  let d ← get
  let t := ceilDiv (d.instantNow (← read) + 10 * uUs) uUs * uUs
  let gs := if g = 0xFFFF then d.snapGroups else [g]
  set { d with mon.snapSet := d.mon.snapSet ++ gs.map (fun x => (x, t)) }
  return 0

/-- A group latches at an instant, or skips it while its previous snapshot has not swapped (R382). -/
def snapLatch (g t : Nat) : M Unit := do
  let d ← get
  if d.mon.snapLatched.any (fun x => x.1 == g) then
    incO 0x6002 7
    raiseLim 639 0x6001 1 0 g (t / uNs) 0 3
  else
    -- the words of a snapshot are those of one instant
    for w in List.range (d.groupCount g + 1) do groupSettle g w
    let ws ← (List.range (d.groupCount g + 1)).mapM (groupWordAt g)
    modify fun d => { d with mon.snapLatched := d.mon.snapLatched ++ [(g, t, ws)] }

/-- SNAP_INSTANT: the earliest instant that is set. -/
def snapInstant : M Unit := do
  let d ← get
  let per := d.snapPeriodic (d.instantNow (← read))
  let all := d.mon.snapSet.map Prod.snd ++ per.toList
  match all.min? with
  | none => return ()
  | some t =>
    let mine := (d.mon.snapSet.filter (fun x => x.2 == t)).map Prod.fst ++ (if per = some t then d.snapGroups else [])
    set { d with
      mon.snapSet := d.mon.snapSet.filter (fun x => x.2 != t)
      mon.snapLast := if per = some t then t else d.mon.snapLast }
    for g in nub mine do snapLatch g t

/-- SNAP_SWAP: the hidden banks are filled and swap. -/
def snapSwap : M Unit := do
  let d ← get
  set { d with mon.snapLatched := [] }
  for x in d.mon.snapLatched do
    let (g, t, ws) := x
    modify fun d => (List.range 512).foldl (fun d w => d.setO 0x6002 5 (g * 512 + w) (ws.getD w 0)) d
    setO 0x6002 4 g (toT80 t)
    incO 0x6002 6 g

/-! ### Rings of records -/

/-- A write to 6041h.06: the trace ring is empty, its sequence stays (R388). -/
def traceClear : M Unit :=
  modify fun d => { d with mon.trace := [], mon.traceN := 0, mon.traceLost := false, mon.traceFull := false }

/-- Records in a sample ring. -/
def sampleSize : Nat := 2 ^ 25

/-- A write to 6051h.05[s] (R389). -/
def sampleClear (s : Nat) : M Unit :=
  modify fun d => { d with
    mon.samples := mfilter (fun a => a / sampleSize != s) d.mon.samples
    mon.sampleN := nset d.mon.sampleN s 0
    mon.sampleLost := mset (dK false) d.mon.sampleLost s false
    mon.sampleFull := mset (dK false) d.mon.sampleFull s false }

/-- A sample record is written to the ring of Sill `s`, or lost (R388, R389). -/
def sampleWrite (s : Nat) (rec_ : Bytes) : M Unit := do
  let d ← get
  let seq := d.o 0x6051 2 s
  if d.o 0x6051 1 s = 1 ∧ sampleSize ≤ nget d.mon.sampleN s then
    incO 0x6051 3 s
    if !mget (dK false) d.mon.sampleFull s then
      modify fun d => { d with mon.sampleFull := mset (dK false) d.mon.sampleFull s true }
      raiseEv (637 + s) 0x6004 1 s 0 1
  else
    set { d.setO 0x6051 2 s ((seq + 1) % 2 ^ 64) with
      mon.samples := oset d.mon.samples (s * sampleSize + seq % sampleSize) (some (ofBytes rec_))
      mon.sampleN := nset d.mon.sampleN s (min sampleSize (nget d.mon.sampleN s + 1)) }
    let i := seq % sampleSize
    dramAskSeg s (1472 + i / 524288) (i % 524288 / 4) 1 true true

/-- The entry of core `n`'s slot table at a time: the table advances with each cycle of 1.5 GHz from the cycle issued last (R256). -/
def Dev.slotEntry (d : Dev) (n now : Nat) : Nat :=
  let (e, t) := mget (dK (0, 0)) d.joinery.cycle n
  (e + (now - t) * 1500000000 / uS) % 64

/-- A sample record (R390). `th`: the thread, none where no thread issued (its address, kind, class and RETRY are then free values, log
entry 3); `slot`: the slot-table entry of the sampled cycle. -/
def sampleBytes (d : Dev) (c : Clock) (n : Nat) (th : Option Nat) (issued : Bool) (slot open_ : Nat) : Bytes :=
  let (thread, addr, kind, cls, retry) := match th with
    | some t =>
      let x := d.thr (n * 16 + t)
      let k := (d.taskOf (n / 16) x.task).getD {}
      (t * 16 + x.st, x.pc % 32768, k.kind, k.ctrl / 8 % 4, k.retry)
    | none => (0xFF, open_ % 32768, fld open_ 15 8, fld open_ 23 2, fld open_ 25 8)
  let b := toBytes 6 (c.dev / 65536 % 2 ^ 48) ++ toBytes 1 n ++ toBytes 1 thread ++ toBytes 2 (ofBool issued <<< 15 + addr) ++
    toBytes 1 kind ++ toBytes 1 (cls <<< 6 + slot % 64) ++ toBytes 1 retry ++ [0#8]
  b ++ toBytes 2 (crc16 b)

/-- UWORD_SAMPLE: a sampled cycle of core `n`, in which thread `t` issued if it is ready. -/
def uwordSample (n t : Nat) : M Unit := do
  let d ← get
  if d.oB 0x6050 1 n ∧ d.o 0x7010 1 (640 + n) < 3 then
    let c ← read
    let slot := d.slotEntry n c.run
    let issued : Bool := (d.thr (n * 16 + t)).st == 1
    if d.o 0x6050 3 n = 0 then
      let free_ ← if issued then pure 0 else fresh
      sampleWrite (n / 16) (sampleBytes d c n (if issued then some t else none) issued slot free_)
    else
      for x in List.range 16 do
        if (d.thr (n * 16 + x)).st ≠ 0 then
          sampleWrite (n / 16) (sampleBytes d c n (some x) (issued && x == t) slot 0)

/-! ### Meanings -/

/-- SNAP_INSTANT (R381). -/
def execSnapInstant (s : State) := run .snapInstant snapInstant s

/-- SNAP_SWAP (R382). -/
def execSnapSwap (s : State) := run .snapSwap snapSwap s

/-- UWORD_SAMPLE (R389). -/
def execUwordSample (n t : Nat) (s : State) := run (.uwordSample n t) (uwordSample n t) s

end Sys2Proof.Machine
end

