-- ==== Sys2Proof/Machine/Checks.lean ====
section
/-! DEFINITION. The checks an access meets (R33): where an object stands (area, index, sub-index, instance, plane), and the value checks
that the chapters set beside the stated range. -/

namespace Sys2Proof.Machine

/-! ### Orders 1 to 6 of R33 -/

/-- A data-plane reset is in progress, or the data plane has not started: its areas answer 0701h (R33, R449). -/
def Dev.dataPlaneBusy (d : Dev) (ix : Nat) : Bool := dataPlaneArea ix && d.o 0x7000 2 != 2

/-- The object is reserved to the other plane (R417, R443). -/
def otherPlane (pl key : Nat) : Bool :=
  let i := keyInst key
  match keyIndex key, keySub key with
  | 0x6420, 1 | 0x6420, 2 | 0x6420, 3 => i != pl
  | 0x1450, 3 | 0x1450, 4 => i != pl
  | 0x1450, 5 => i / 118 != pl
  | 0x8000, 2 => i / 117 != pl
  | 0x8000, 3 => i != pl
  | _, _ => false

/-- The planes of a row include plane `pl` (R31). -/
def planeListed (r : ObjRow) (pl : Nat) : Bool :=
  match r.planes with
  | .h => pl == 0
  | .m => pl == 1
  | .hm | .f => true

/-- An instance of the row exists (R28): the list of pegged instances ends at their number; 3808h and 4440h begin at 1 (R340). -/
def instOk (r : ObjRow) (i : Nat) : Bool :=
  decide (i < (if r.index = 0x1030 ∧ (r.sub = 2 ∨ r.sub = 3) then pegCount else r.size)) && !((r.index == 0x3808 || r.index == 0x4440) && i == 0)

/-- Orders 1 to 5 of R33 for an access of plane `pl`: a status, or the row. -/
def Dev.locate (d : Dev) (pl key : Nat) : Except Nat ObjRow :=
  let ix := keyIndex key
  if d.dataPlaneBusy ix then .error 0x701
  else if !indexExists ix then .error 0x101
  else match rowOf ix (keySub key) with
    | none => .error 0x102
    | some r =>
      if !instOk r (keyInst key) then .error 0x103
      else if !planeListed r pl || otherPlane pl key || !d.dbgOpen ix then .error 0x201
      else .ok r

/-! ### Order 8: values -/

/-- A key-selector byte is one of R171. -/
def selOk (b : Nat) : Bool := !(0x98 ≤ b && b ≤ 0xFE)

/-- The sum of a staged object over its instances as plane `pl` sees its shadow bank, with `v` at `key` (R286). -/
def Dev.sumWith (d : Dev) (pl key n dflt v : Nat) : Nat :=
  let ix := keyIndex key
  let sub := keySub key
  let mine := d.dict.shadow.filter (fun e => keyIndex e.1 == ix && keySub e.1 == sub)
  let s : Int := mine.foldl (fun (a : Int) e => a + d.shadowObj pl e.1 - mget objDflt d.objs e.1) (d.sumObj ix sub n dflt)
  (s - d.shadowObj pl key + v).toNat

/-- Shared as a staged write of `v` to `key` would leave it (R286). -/
def Dev.sharedWith (d : Dev) (pl key v : Nat) : Int :=
  let at_ := fun (k : Nat) => if k = key then v else d.shadowObj pl k
  let q := okey 0x4010 1 0
  let mins := if keyIndex key = 0x4010 then d.sumWith pl key 32768 4 v else d.sumWith pl q 32768 4 (d.shadowObj pl q)
  (1572864 : Int) - 16384 - at_ (okey 0x4001 1 0) - at_ (okey 0x4001 2 0) - mins - d.cellsRetired

/-- The classes of a port stay within R291 and R298 with `v` staged at `key`: at most four bounded, none of action 1 naming a bounded
class. -/
def Dev.boundedSetOk (d : Dev) (pl key v : Nat) : Bool :=
  let p := keyInst key / 8
  let at_ := fun sub c => let k := okey 0x4031 sub (p * 8 + c); if k = key then v else d.shadowObj pl k
  let bounded := fun c => at_ 1 c == 1
  decide (((List.range 8).filter bounded).length ≤ 4) &&
    (List.range 8).all (fun c => !(bounded c && at_ 4 c == 1 && bounded (at_ 5 c)))

/-- The number of scopes of a monitor's quantity (R384); none: any scope. -/
def scopeCount (q : Nat) : Option Nat :=
  match q with
  | 1 | 2 => some 2048 | 3 => some 32768 | 4 => some 1 | 5 => some 2 | 6 => some 48 | 7 => some 16 | 8 => some 64
  | 9 => some 40960 | _ => none

/-- A scope lies in its quantity's range. -/
def scopeOk (q s : Nat) : Bool := match scopeCount q with | some n => decide (s < n) | none => true

/-- An entry of 6001h.01 names a counter that plane H may read (R379). -/
def Dev.composeOk (d : Dev) (v : Nat) : Bool :=
  v == 0 ||
    (decide (v < 2 ^ 48) && match rowOf (keyIndex v) (keySub v) with
      | some r =>
        instOk r (keyInst v) && r.acc != .wo && planeListed r 0 && !otherPlane 0 v && d.dbgOpen (keyIndex v) &&
          (match r.ty with | .bool | .enum8 | .u _ | .i _ => true | _ => false)
      | none => false)

/-- The edges of a histogram rise with `v` at sub-index or instance `k` of `n` (R237, R385). -/
def risesAt (at_ : Nat → Nat) (n k v : Nat) : Bool :=
  (k == 0 || decide (at_ (k - 1) < v)) && (n ≤ k + 1 || decide (v < at_ (k + 1)))

/-- A data channel on route 2 other than `c` holds time slot `v` (R136). -/
def Dev.slotHeld (d : Dev) (c v : Nat) : Bool :=
  (List.range 256).any (fun x => x != c && d.o 0x2870 1 x == 2 && d.o 0x2870 2 x == v)

/-- The checks of order 8 beside the stated range of the row: staged objects against the shadow bank of plane `pl`. -/
def Dev.fieldOk (d : Dev) (pl key v : Nat) : Bool :=
  let i := keyInst key
  let sub := keySub key
  let b := fun n => toBytes n v
  match keyIndex key with
  | 0x1430 => if sub = 2 then !(d.oB 0x1430 2 && v == 0) else true
  | 0x2400 =>      -- R85
    match sub with
    | 4 => decide (v < d.o 0x2400 5 i)
    | 5 => decide (d.o 0x2400 4 i < v)
    | _ => true
  | 0x2410 =>      -- R86
    match sub with
    | 6 => decide (d.o 0x2410 7 i < v ∧ v ≤ d.o 0x2410 8 i)
    | 7 => decide (v < d.o 0x2410 6 i)
    | 8 => decide (d.o 0x2410 6 i ≤ v)
    | _ => true
  | 0x2850 => (List.range 8).all (fun k => let x := beAt (b 16) (2 * k) 2; decide (x ≤ 255) || x == 0xFFFF)
  | 0x2870 =>      -- R136
    match sub with
    | 1 => !(v == 2 && d.o 0x2870 1 i != 2 && d.slotHeld i (d.o 0x2870 2 i))
    | 2 => !d.slotHeld i v
    | _ => true
  | 0x3110 =>
    match sub with
    | 1 => (b 10).all (fun x => selOk x.toNat)
    | 3 => actionOk (b 64)
    | 4 => (b 20).all (fun x => selOk x.toNat)
    | 5 => v == 0 || [1, 3, 4, 5, 6, 8, 10].contains i      -- stages 2, 4 to 7, 9 and 11 (R170)
    | _ => true
  | 0x3401 =>      -- R192
    let empty := (d.entries 0x3400 (i + 1)).isEmpty
    match sub with
    | 1 =>
      empty && (v == 0 || powerOfTwoIn 1024 131072 v) &&
        decide ((List.range 8).foldl (fun a t => a + 8 * (if t = i then v else d.o 0x3401 1 t)) 0 ≤ 1048576)
    | 2 => empty
    | _ => true
  | 0x3430 =>
    match sub with
    | 1 => (List.range 256).all (fun p => !d.oB 0x3430 2 p)
    | 3 => (b 10).all (fun x => selOk x.toNat)
    | _ => true
  | 0x3450 => if sub = 1 then selOk v else true
  | 0x3460 =>      -- R207
    if sub = 1 then
      let n := v >>> 18
      let base := v % 2 ^ 18
      n == 0 || (decide (6 ≤ n ∧ n ≤ 12) && base % 2 ^ n == 0 && decide (base + 2 ^ n ≤ 262144))
    else true
  | 0x3462 => (v >>> 60 == 1 || v >>> 60 == 3) && decide (fld v 40 20 ≤ 255) && fld v 24 16 == 0
  | 0x3471 =>      -- R208
    v == 0xFFFF || (List.range 4096).all (fun k => k == i || d.o 0x3471 1 k != v)
  | 0x3803 =>      -- R225
    v >>> 62 != 3 && fld v 53 2 != 3 && fld v 48 4 == 0 && decide (fld v 32 16 ≤ 4095) &&
      decide (fld v 15 17 + v % 2 ^ 15 ≤ 131072) && !(v >>> 62 == 2 && fld v 53 2 == 0)
  | 0x3807 => risesAt (fun k => d.o 0x3807 (k + 1)) 7 (sub - 1) v
  | 0x3810 => if sub = 3 then decide (d.o 0x3810 2 i ≤ v) else true
  | 0x3842 => (b 64).all (fun x => decide (x.toNat ≤ 3))
  | 0x4001 =>      -- R286
    let total := fun ix s n dflt => let k := okey ix s 0; d.sumWith pl k n dflt (d.shadowObj pl k)
    decide (65536 ≤ d.sharedWith pl key v) &&
      (if sub = 1 then decide (total 0x4030 4 256 512 ≤ v) else decide (total 0x4020 2 2048 0 ≤ v))
  | 0x4010 =>
    match sub with
    | 1 => decide (65536 ≤ d.sharedWith pl key v)
    | 5 => decide (d.shadowObj pl (okey 0x4010 4 i) < v)
    | _ => true
  | 0x4020 => if sub = 2 then decide (d.sumWith pl key 2048 0 v ≤ d.shadowObj pl (okey 0x4001 2 0)) else true
  | 0x4030 => if sub = 4 then decide (d.sumWith pl key 256 512 v ≤ d.shadowObj pl (okey 0x4001 1 0)) else true
  | 0x4031 => if sub = 1 ∨ sub = 4 ∨ sub = 5 then d.boundedSetOk pl key v else true
  | 0x4050 =>      -- R307
    decide (v >>> 23 ≤ 256) && fld v 18 5 == 0 && decide (v % 2 ^ 18 + v >>> 23 ≤ 262144)
  | 0x4051 => fld v 24 26 == 0
  | 0x4301 =>      -- R312
    match sub with
    | 1 =>
      let k := i / 8 * 8
      (i % 8 != 7 || decide (1024 ≤ v)) &&
        decide ((List.range 8).foldl (fun a j => a + (if k + j = i then v else d.o 0x4301 1 (k + j))) 0 ≤ 28672)
    | 2 => decide (d.o 0x4301 1 i ≤ v ∧ v ≤ 32768)
    | _ => true
  | 0x4430 => v >>> 41 == 0 && decide (10 ≤ v % 2 ^ 32 ∧ v % 2 ^ 32 ≤ 1000000000)      -- R328
  | 0x4440 => if sub = 3 then decide (d.o 0x4440 1 i ≤ v) else true
  | 0x6001 => d.composeOk v
  | 0x6002 => if sub = 3 then v == 0 || d.oB 0x6002 3 i || decide (d.snapGroups.length < 2048) else true
  | 0x6030 =>
    match sub with
    | 1 => scopeOk v (d.o 0x6030 2 i)
    | 2 => scopeOk (d.o 0x6030 1 i) v
    | _ => true
  | 0x6031 => risesAt (fun k => d.o 0x6031 1 (i / 15 * 15 + k)) 15 (i % 15) v
  | 0x6061 => if sub = 2 then d.o 0x6061 1 != 2 || decide (v < 16) else true      -- a ring (R398)
  | 0x6060 =>      -- R391
    match sub with
    | 1 => !(v == 1 && d.o 0x6060 3 i == 1)
    | 2 => d.o 0x6060 1 i != 2 || decide (v < 16)      -- a ring (R398)
    | 3 => !(v == 1 && d.o 0x6060 1 i == 1)
    | _ => true
  | _ => true

/-- Order 8 as a whole: the type's own check, the stated range, the chapter's checks. -/
def Dev.valueOk (d : Dev) (pl : Nat) (r : ObjRow) (key v : Nat) : Bool :=
  r.ty.ok v && r.rng.ok (8 * r.ty.len) v && d.fieldOk pl key v

end Sys2Proof.Machine
end

