-- ==== Sys2Proof/Machine/Swap.lean ====
section
/-! DEFINITION. Acceptance of a commit by the areas it covers, and the swap of an area at its safe boundary (R24, R36), with what the
blocks concerned do at it. -/

namespace Sys2Proof.Machine

/-- The pairs of the commit of epoch `e` that have not swapped. -/
def Dev.leftOf (d : Dev) (e : Nat) : List (Nat × Nat) :=
  ((d.dict.commits.find? (fun c => c.epoch == e)).map Commit.left).getD []

/-- The instances of index `ix` (and sub-index `sub`, unless 0) that the bulk of area `a` brings. -/
def Dev.swapInsts (d : Dev) (a ix sub : Nat) : List Nat :=
  nub (((mkeys d.dict.shadow).filter (fun k => keyIndex k == ix && (sub == 0 || keySub k == sub) && d.inPart a 0 k)).map keyInst)

/-- Tenon tables that a swap makes 320 bits wide lose the entries at addresses 2,048 and above (R175). -/
def dropWide : M Unit := do
  for s in List.range 12 do
    let d ← get
    if d.newObj 0x3110 2 s = 1 ∧ d.o 0x3110 2 s = 0 then
      let lo := tkey 0x3100 (s + 1) 2048
      let hi := tkey 0x3100 (s + 1) 4096
      let ks := (mkeys d.tbls ++ mkeys d.dict.tblShadow).filter (fun k => lo ≤ k && k < hi)
      set { d with dict.tblShadow := ks.foldl (fun m k => oset m k (some none)) d.dict.tblShadow }

/-- AREA_SWAP of the parser and Tenon area in bay `b`. -/
def baySwap (b e : Nat) : M Unit := do
  if (← get).dict.baysNew = [] then dropWide
  modify fun d => d.swapBay b e

/-- The bulk of the ports area swaps: ports whose mode changes are reconfigured (R67); preemption is not active on a port that takes a
slotted mode (R325). -/
def portsSwap (a e : Nat) : M Unit := do
  let d ← get
  for p in d.swapInsts a 0x2400 1 do
    if d.newObj 0x2400 1 p ≠ d.o 0x2400 1 p then
      reconfigStart p
      if 0x10 ≤ d.newObj 0x2400 1 p then setO 0x4410 3 p 0
  modify fun d => (d.swapPart a 0 e).partDone a 0

/-- The bulk of the scheduling area swaps: shapers and credits go on from their present levels. -/
def schedSwap (a e : Nat) : M Unit := do
  let d ← get
  let k ← read
  for p in d.swapInsts a 0x4400 0 do
    modify fun d => { d with eg.shaper := oset d.eg.shaper p (some ⟨d.shaperTokens k p, k.dev, 1⟩) }
  let cs := d.swapInsts a 0x4420 4
  for i in cs do cbsTouch (i / 8) (i % 8)
  modify fun d => (d.swapPart a 0 e).partDone a 0
  for i in cs do
    if (← getO 0x4420 4 i) = 0 then modify fun d => { d with eg.cbs := oset d.eg.cbs i none }
    else cbsTouch (i / 8) (i % 8)

/-- The bulk of the transport area brings connection pages, no slotted port being enabled (R123). -/
def Dev.cmInBulk (d : Dev) : Bool :=
  (d.swapInsts 0x0A 0x2810 0 != [] || d.swapInsts 0x0A 0x2811 0 != []) && (List.range 256).all (fun p => !(d.slotted p && d.oB 0x2400 2 p))

/-- The fields of protection group `g` that a swap changes. -/
def Dev.pgChanges (d : Dev) (g : Nat) : Bool := (List.range 9).any (fun s => d.newObj 0x28C0 s g != d.o 0x28C0 s g)

/-- The bulk of the transport area swaps: connections of ports without a swap instant, bonded groups (R132), protection groups
(R148). With no slotted port enabled it is the whole page swap (R123). -/
def plumbSwap (a e : Nat) : M Unit := do
  let d ← get
  let ports := nub ((d.swapInsts a 0x2810 0).map (· / 160))
  let groups := d.swapInsts a 0x28C0 0
  let changed := groups.filter d.pgChanges
  let bonds := d.swapInsts a 0x2850 0
  let cm := d.cmInBulk
  let olds := ports.map (fun p => (d.lineOf p, d.connSnap (d.lineOf p)))
  let was := bonds.flatMap (fun g => bondPorts (d.o 0x2850 1 g))
  modify fun d => (d.swapPart a 0 e).partDone a 0
  for (l, old, src) in olds do connSwap l old src
  if bonds ≠ [] then bondForm bonds was
  if groups ≠ [] then pgValidate changed
  if cm then modify fun d => { d with plumb.swaps := d.plumb.swaps ++ [(e, d.o 0x2811 1, 0)] }

/-- A commit that has been accepted covers connection memory (R123): a port without a swap instant of its own takes its new page with
the acceptance, so that PAGE is right in the first frame that it sends later; the ports of `left` turn at theirs. -/
def Dev.pageFlip (d : Dev) (left : List (Nat × Nat)) : Dev :=
  if left.any (fun x => x.1 == 0x0A && x.2 != 0) || d.cmInBulk then
    ((List.range 256).filter (fun p => !left.contains (0x0A, 1 + p))).foldl (fun d p => d.setO 0x2800 3 p (1 - d.o 0x2800 3 p)) d
  else d

/-- COMMIT by plane `pl` (R36): status and epoch. Gate changes take their instants (R331) and slotted ports count their frames
(R123) from acceptance; with no slotted port enabled the connection pages swap at acceptance. -/
def commitRun (pl : Nat) : M (Nat × Nat) := do
  let was := (← get).dict.epoch
  let (st, e) ← commitReq pl
  let d ← get
  if d.dict.epoch ≠ was then
    set (d.pageFlip (d.leftOf d.dict.epoch))
    for (a, q) in d.leftOf d.dict.epoch do
      if q ≠ 0 ∧ a = 0x11 then gateAccept (q - 1) d.dict.epoch
      else if q ≠ 0 ∧ a = 0x0A then
        modify fun d => d.setTxLine (q - 1) { d.txLine (q - 1) with since := 0, late := false, deferred := none }
      else if a = 0x0A ∧ d.cmInBulk then
        plumbSwap a d.dict.epoch
        cmTell
  return (st, e)

/-- AREA_SWAP (R24, R36): area `a` (bay `part` of the parser and Tenon area) reaches its safe boundary. -/
def areaSwap (a part : Nat) : M Unit := do
  match (← get).pendingPart a part with
  | none => return ()
  | some e =>
    if a = 0x0C then baySwap part e
    else if part ≠ 0 then return ()
    else if a = 0x09 then portsSwap a e
    else if a = 0x11 then schedSwap a e
    else if a = 0x0A then plumbSwap a e
    else modify fun d => (d.swapPart a 0 e).partDone a 0
    cmTell
    storeDrive

/-- AREA_SWAP (R36). -/
def execAreaSwap (a part : Nat) (s : State) := run (.areaSwap a part) (areaSwap a part) s

end Sys2Proof.Machine
end

