-- ==== Sys2Proof/Machine/Objects.lean ====
section
/-! DEFINITION. Reading and writing objects (R29 to R35, R39): what each write does beside setting the value, W1C and RC, the order of
the checks (R33), and reads of the value at the visible epoch, of the shadow bank and of indeterminate objects. -/

namespace Sys2Proof.Machine

/-! ### What a write does -/

/-- Set a plain object. -/
def putObj (key v : Nat) : M Unit := modify fun d => { d with objs := mset objDflt d.objs key v }

/-- Write a plain object, then act. -/
def putThen (key v : Nat) (f : M Unit) : M Nat := do
  putObj key v
  f
  return 0

/-- Act, with status 0000h. -/
def doing (f : M Unit) : M Nat := do
  f
  return 0

/-- The objects that the table manager writes into the bays (R184): the geometries, and the direct, ECMP and link-aggregation tables. -/
def baysObject (ix : Nat) : Bool :=
  ix == 0x3401 || (0x3451 ≤ ix && ix ≤ 0x3454) || (0x3460 ≤ ix && ix ≤ 0x3462) || (0x3470 ≤ ix && ix ≤ 0x3472)

/-- Write an object that the table manager sends to the bays (R184); a liveness that it changes is reported (R209). -/
def putBays (key v : Nat) : M Nat := do
  let d ← get
  set (d.mgrObj key v)
  livenessChange d
  return 0

/-- A receive-map entry (R124): the page in use refuses. -/
def rxMapWrite (key v : Nat) : M Nat := do
  let d ← get
  let page := (keySub key - 1) / 2
  if d.o 0x2800 2 (keyInst key / 160) = page then return 0x402
  putObj key v
  recheck
  return 0

/-- A session is enabled: it runs on the core that 1140h.05 names, or on the other while that one is out of service (R61). -/
def Dev.sessPlace (d : Dev) (k : Nat) : Dev :=
  let c := d.o 0x1140 5 k
  d.setSess k { d.sessOf k with core := if d.inService c || !d.inService (1 - c) then c else 1 - c }

/-- An offset is written to 1820h.02 by core `c`, or from elsewhere (R95, R443). -/
def offsetWrite (core : Option Nat) (v : Nat) : M Nat := do
  setO 0x1460 6 0 (core.getD 0xFF)
  offsetIn (toS 64 v)
  return 0

/-- 6070h.01 becomes false: the records that wait are lost (R394). -/
def exportOff : M Unit := do
  for k in [0, 1] do
    let d ← get
    set (d.setExp k [])
    for _ in d.expBuf k do expLost k 1

/-- A change of a monitor's quantity or scope restarts its interval (R384). -/
def monConfig (key v : Nat) : M Nat := do
  let old := mget objDflt (← get).objs key
  putObj key v
  if old ≠ v then monRestart (keyInst key)
  return 0

/-- A write of `v` to a plain object by plane `pl` (from a UOP session on `core`), after every check of R33: the status. `fail`: fuses
that stay unblown (R419). -/
def plainWrite (pl : Nat) (core : Option Nat) (key v : Nat) (fail : List Nat) : M Nat := do
  let i := keyInst key
  let put : M Nat := putThen key v (pure ())
  match keyIndex key, keySub key with
  | 0x1020, 1 => if v = 1 then return (← commitRun pl).1 else discardReq pl
  | 0x1020, 6 => bankBreak pl v
  | 0x1420, 5 => updCommand pl v fail
  | 0x1420, s => updWrite pl s i v
  | 0x1430, 3 => doing (zeroize pl)
  | 0x1450, 2 => doing (modify fun d => d.extend 6 (toBytes 32 v))
  | 0x1450, 3 => attRequest pl v
  | 0x1460, 4 => coreRestartCmd i
  | 0x1801, 1 => stepRequest pl false v
  | 0x1801, 2 => stepRequest pl true (ofT80 v)
  | 0x1820, 2 => offsetWrite core v
  | 0x1820, 9 => putThen key v freqSet
  | 0x2040, 1 => doing (generatorWrite i v)
  | 0x2040, 2 => doing (checkerWrite i v)
  | 0x2040, 6 => doing (errInject i v)
  | 0x2400, 2 => putThen key v (adminChanged i)
  | 0x2410, 3 => putThen key v (if v = 0 then dampOff i else pure ())
  | 0x2410, 5 =>
    dampRebase i (figUnit * (← getO 0x2410 8 i))
    put
  | 0x2410, 8 =>
    dampRebase i (figUnit * v)
    put
  | 0x2820, _ => rxMapWrite key v
  | 0x28C1, 1 => pgCommand i v
  | 0x4060, 1 => doing (flushQueue i)
  | 0x4060, 2 => doing (flushBounded i)
  | 0x4440, 5 => put
  | 0x4440, _ =>      -- R333: both credits are refilled
    putThen key v (modify fun d => { d with yard.polTc := oset d.yard.polTc i none, yard.polTp := oset d.yard.polTp i none })
  | 0x5001, 4 => doing (do if (← get).chOn i then retire i 0)
  | 0x5440, _ => putThen key v (msixCheck i)
  | 0x6002, 1 => snapNow v
  | 0x6002, 2 => putThen key v (do let t := (← get).instantNow (← read); modify fun d => { d with mon.snapLast := t })
  | 0x6030, 1 | 0x6030, 2 => monConfig key v
  | 0x6041, 6 => doing traceClear
  | 0x6051, 5 => doing (sampleClear i)
  | 0x6420, 4 => whileServed 678 (ledgerClear pl v)
  | 0x7000, 1 => resetCmd pl v
  | 0x8000, 2 => doing (modify fun d => { d with sec.token := oset d.sec.token i (some (toBytes 256 v)) })
  | 0x8000, 3 => dbgSubmit pl v
  | 0x8400, 1 => whileServed 677 (doing (dbgHalt i (v == 1)))
  | 0x8400, 2 => whileServed 677 (dbgAbandon i)
  | 0x8400, 3 => whileServed 677 (dbgAbort i)
  | 0x8400, 4 => whileServed 677 (dbgReg (i / 32) (i % 32) v)
  | ix, _ => if baysObject ix then putBays key v else put

/-- The bits of a W1C write are cleared; a source latch may release FAULT_N (R30, R405). -/
def clearWrite (key v : Nat) : M Nat := do
  modify fun d => { d with objs := mset objDflt d.objs key (clearBits (mget objDflt d.objs key) v) }
  if keyIndex key = 0x6400 then faultSettle
  return 0

/-- What follows a new value of a pegged object without flag S. -/
def peggedThen (key old v : Nat) : M Unit := do
  let i := keyInst key
  match keyIndex key, keySub key with
  | 0x1140, 1 => if old = 0 ∧ v = 1 then modify (·.sessPlace i)
  | 0x1140, 2 => modify (·.sessKeyed i)
  | 0x1802, 1 => refSelect 2
  | 0x1820, 1 => servoMode v
  | 0x28E1, _ => if old ≠ v then pgPin i
  | 0x6070, 1 => if v = 0 then exportOff
  | 0x4301, _ => modify fun d => Dev.sendHeld d.ev.held d      -- pool 7 may have gained room (R401)
  | 0x6400, 2 | 0x6402, 2 => faultSettle
  | _, _ => return ()

/-- A write of a pegged object without flag S (R39, R41), while the store runs (R15): the status; copies in `fail` fail their
read-back. -/
def peggedWrite (pl key v : Nat) (fail : List Nat) : M Nat := whileServed 678 do
  let old := mget objDflt (← get).objs key
  let st ← pegWrite pl key v fail
  let now := mget objDflt (← get).objs key
  if now = v ∧ (st = 0 ∨ old ≠ v) then peggedThen key old v
  if st = 0 ∧ keyIndex key = 0x1140 ∧ keySub key = 2 then incO 0x1430 4
  return st

/-- A staged write (R32): the shadow bank of its area must be free for the plane. -/
def stagedWrite (pl key v : Nat) : M Nat := do
  let a := areaOfKey key
  if (← get).bankFree a pl then
    stageObj a pl key v
    return 0x401
  else return 0x402

/-! ### The operations -/

/-- The key of a write passes through the commit point while four commits are in progress (R33, order 1). -/
def Dev.commitBusy (d : Dev) (key : Nat) : Bool :=
  match findRow (keyIndex key) (keySub key) with
  | some r => d.commitsFull && r.pegged && !r.staged
  | none => false

/-- A session key or 1430h.01 that this plane may not write (R437). -/
def Dev.keyDenied (d : Dev) (pl key : Nat) : Bool :=
  ((keyIndex key == 0x1140 && keySub key == 2) || (keyIndex key == 0x1430 && keySub key == 1)) && !d.keyPlane pl

/-- Orders 1 to 8 of R33 for a write: a status, or the row. -/
def Dev.writeCheck (d : Dev) (pl key : Nat) (data : Bytes) : Except Nat ObjRow :=
  if d.dataPlaneBusy (keyIndex key) || d.commitBusy key then .error 0x701
  else match d.locate pl key with
    | .error e => .error e
    | .ok r =>
      if d.keyDenied pl key then .error 0x201
      else if r.planes == .f || r.acc == .const || r.acc == .ro || r.acc == .rc then .error 0x202
      else if r.ty == .table || data.length != r.ty.len then .error 0x301
      else if !d.valueOk pl r key (ofBytes data) then .error 0x302
      else .ok r

/-- A write that the table manager executes after the learning requests that reached it earlier (R184): the learning table, or one that the
bays take. -/
def managerFirst (key : Nat) : M Unit :=
  if baysObject (keyIndex key) ∨ (keyIndex key = 0x3430 ∧ keySub key = 1) then drainLearn else pure ()

/-- WRITE of an object by plane `pl` (R33): the status. -/
def objWrite (pl : Nat) (core : Option Nat) (key : Nat) (data : Bytes) (fail : List Nat) : M Nat := do
  match (← get).writeCheck pl key data with
  | .error e => return e
  | .ok r =>
    managerFirst key
    -- the table must still be empty once those have run (R192)
    match (← get).writeCheck pl key data with
    | .error e => return e
    | .ok _ =>
      let v := ofBytes data
      if r.staged then stagedWrite pl key v
      else if r.pegged then peggedWrite pl key v fail
      else if r.acc = .w1c then clearWrite key v
      else plainWrite pl core key v fail

/-- Orders 1 to 7 of R33 for a read: a status, or the row. -/
def Dev.readCheck (d : Dev) (pl key : Nat) : Except Nat ObjRow :=
  match d.locate pl key with
  | .error e => .error e
  | .ok r =>
    if r.acc == .wo then .error 0x203
    else if r.ty == .table then .error 0x301
    else .ok r

/-- The value a read returns, with what reading does: RC (R30), the Ledger window (R412), the pegged state (1030h.03). -/
def readValue (pl key : Nat) (r : ObjRow) : M Nat := do
  match keyIndex key, keySub key with
  | 0x1030, 3 => pegStateRead (keyInst key)
  | 0x6420, 2 => ledgerRead pl
  | _, _ =>
    let v ← valueNow key
    if r.acc = .rc then putObj key (objDflt key)
    return v

/-- READ of an object by plane `pl` (R33): status and value. -/
def objRead (pl key : Nat) : M (Nat × Bytes) := do
  let d ← get
  match d.readCheck pl key with
  | .error e => return (e, [])
  | .ok r =>
    -- the record window of the Ledger is a function of the store (R15; log entry 51)
    if keyIndex key = 0x6420 ∧ keySub key = 2 ∧ 3 ≤ d.o 0x7010 1 678 then return (0x701, [])
    let v ← readValue pl key r
    return (if d.dict.pegIndet.contains key then 0x702 else 0, toBytes r.ty.len v)

/-- READ_SHADOW by plane `pl` (R35): the shadow value of a staged object, with status 0702h while the object is indeterminate (R33); any
other object reads as READ. -/
def objReadShadow (pl key : Nat) : M (Nat × Bytes) := do
  let d ← get
  match d.readCheck pl key with
  | .error e => return (e, [])
  | .ok r =>
    if r.staged then return (if d.dict.pegIndet.contains key then 0x702 else 0, toBytes r.ty.len (d.shadowObj pl key))
    else objRead pl key

end Sys2Proof.Machine
end

