-- ==== Sys2Proof/Machine/Tables.lean ====
section
/-! DEFINITION. Table operations (R53): the order of their checks (R33), the field checks of each table's entries (R164, R175, R178,
R186, R194), addressed tables (R176), the Prism, exact-match tables (R196), the trie (R186, R187), the flow table (R239) and the
capture rings that are only walked (R388). Operations: 1 find, 2 insert, 3 delete, 4 next, 5 update. -/

namespace Sys2Proof.Machine

/-- What a table operation returns: status, address if it returns one, entry (for a find or a walk). -/
structure TblRes where
  status : Nat
  addr : Option Nat := none
  entry : Bytes := []
  deriving DecidableEq, Repr

/-- A table operation as it is asked for. -/
structure TblOp where
  /-- Plane, operation, and whether it reads the shadow bank. -/
  pl : Nat
  op : Nat
  shadow : Bool
  ix : Nat
  sub : Nat
  /-- Cursor or address, and the entry. -/
  addr : Nat
  entry : Bytes
  /-- The instance named, and whether the value given is shorter than a cursor. -/
  inst : Nat := 0
  cut : Bool := false
  deriving DecidableEq, Repr

/-- The entry length of a table. -/
def entryLen (ix : Nat) : Nat :=
  match ix with
  | 0x3000 => 204 | 0x3100 => 148 | 0x3200 => 180 | 0x3400 => 60 | 0x3440 => 36 | 0x3800 => 120 | 0x6042 => 128 | _ => 16

/-- Tables whose operations name the entry by the address given (R176). -/
def addressed (ix : Nat) : Bool := ix == 0x3000 || ix == 0x3100 || ix == 0x3200

/-- The operation changes the table. -/
def TblOp.writes (x : TblOp) : Bool := x.op == 2 || x.op == 3 || x.op == 5

/-! ### Field checks (R33, order 8) -/

/-- Every octet is zero. -/
def zeros (b : Bytes) : Bool := b.all (· == 0#8)

/-- A next-state field (R164). -/
def nextOk (v : Nat) : Bool := fld v 8 6 == 0

/-- A parser state entry (R164). -/
def graphOk (e : Bytes) : Bool :=
  let c := byteAt e 1
  byteAt e 0 != 0xFF && fld c 4 3 ≤ 5 && c % 16 == 0 && zeros (slice e 5 3) &&
    bitOf (beAt e 8 2) 14 && nextOk (beAt e 8 2) && beAt e 10 2 % 64 ≤ 32 &&
    (List.range 16).all (fun k => nextOk (beAt e (20 + 10 * k) 2)) &&
    (List.range 8).all (fun k => let x := 172 + 4 * k
      beAt e x 2 ≤ 2047 && byteAt e (x + 2) ≤ 32 && byteAt e (x + 3) ≤ 127)

/-- A Tenon table entry (R173, R175); `wide`: keys of 320 bits. -/
def tenonOk (wide : Bool) (e : Bytes) : Bool :=
  byteAt e 0 % 128 == 0 && byteAt e 1 == 0 && (wide || zeros (slice e 24 20)) && actionOk (slice e 84 64)

/-- A Prism entry for an address (R178). -/
def prismOk (addr : Nat) (e : Bytes) : Bool :=
  let c := byteAt e 0
  let w := prismRows e
  fld c 4 2 != 3 && c % 4 != 3 && fld c 2 2 == 0 && zeros (slice e 1 3) &&
    zeros (slice e (4 + 20 * w) (80 - 20 * w)) && zeros (slice e (84 + 20 * w) (80 - 20 * w)) && addr % w == 0

/-- An exact-match entry (R194). -/
def exactOk (wide ins : Bool) (e : Bytes) : Bool :=
  let c := byteAt e 0
  (!ins || bitOf c 7) && c % 8 == 0 && zeros (slice e 1 3) && (wide || zeros (slice e 24 20))

/-- A trie entry (R186). -/
def trieOk (ins : Bool) (e : Bytes) : Bool :=
  let c := byteAt e 0
  let v6 := bitOf c 6
  let w := if v6 then 128 else 32
  let len := byteAt e 1
  (!ins || bitOf c 7) && c % 64 == 0 && len ≤ w && fld (beAt e 2 2) 12 4 == 0 && (v6 || zeros (slice e 8 12)) &&
    beAt e 4 (w / 8) % 2 ^ (w - len) == 0

/-- A flow record as an entry (R213). -/
def flowOk (e : Bytes) : Bool := fld (byteAt e 43) 6 2 != 3 && beAt e 67 2 ≤ 4095

/-- A Tenon table has keys of 320 bits, as plane `pl` sees its shadow bank. -/
def Dev.tenonWide (d : Dev) (pl sub : Nat) : Bool := d.shadowObj pl (okey 0x3110 2 (sub - 1)) == 1

/-- The field checks of an insertion or an update. -/
def Dev.entryOk (d : Dev) (x : TblOp) : Bool :=
  let ins := x.op == 2
  match x.ix with
  | 0x3000 => graphOk x.entry
  | 0x3100 => tenonOk (d.tenonWide x.pl x.sub) x.entry
  | 0x3200 => prismOk x.addr x.entry
  | 0x3400 => exactOk (d.emWide (x.sub - 1)) ins x.entry
  | 0x3440 => trieOk ins x.entry
  | 0x3800 => flowOk x.entry
  | _ => true

/-- Orders 1 to 9 of R33 for a table operation: a status, or nothing. -/
def Dev.tableCheck (d : Dev) (x : TblOp) : Option Nat :=
  match d.locate x.pl (okey x.ix x.sub x.inst) with
  | .error e => some e
  | .ok r =>
    let n := entryLen x.ix
    let short := x.entry.isEmpty && (x.op == 4 || (x.op == 3 && addressed x.ix))
    if r.planes == .f || (x.writes && (r.acc == .ro || r.acc == .const || r.acc == .rc)) || (r.acc == .ro && r.ty == .table && x.op != 4) then some 0x202
    else if !x.writes && r.acc == .wo then some 0x203
    else if r.ty != .table || x.cut || !(short || x.entry.length == n) then some 0x301
    else if (x.op == 2 || x.op == 5) && !d.entryOk x then some 0x302
    else if r.staged && x.writes && !d.bankFree (areaOf x.ix |>.getD 0) x.pl then some 0x402
    else none

/-! ### Walks -/

/-- The lowest address of a table, as `look` reads it, whose entry satisfies `p`. -/
def Dev.tblLowest (d : Dev) (ix sub : Nat) (look : Nat → Option Nat) (p : Nat → Nat → Bool) : Option (Nat × Nat) :=
  let ks := mkeys d.tbls ++ d.dict.tblPrev.map (·.2.1) ++ mkeys d.dict.tblShadow
  ks.foldl (fun (b : Option (Nat × Nat)) k =>
    if tkeyTable k = ix * 256 + sub then
      match look k, b with
      | some v, some y => if k % 2 ^ 32 < y.1 ∧ p (k % 2 ^ 32) v then some (k % 2 ^ 32, v) else b
      | some v, none => if p (k % 2 ^ 32) v then some (k % 2 ^ 32, v) else none
      | none, _ => b
    else b) none

/-- What a walk or a find answers. -/
def foundAt (op n : Nat) : Option (Nat × Nat) → TblRes
  | some (a, v) => { status := 0, addr := some a, entry := toBytes n v }
  | none => { status := 0x103, addr := resAddr op 0x103 0 }

/-! ### Addressed tables (R176) -/

/-- The parser graph and the Tenon tables: staged. The key of an entry is its KEY and MASK; a parser state has none. -/
def stagedTable (x : TblOp) : M TblRes := do
  let d ← get
  let n := entryLen x.ix
  let key := tkey x.ix x.sub x.addr
  let limit := if x.ix = 0x3000 then 256 else if d.tenonWide x.pl x.sub then 2048 else 4096
  let look : Nat → Option Nat := fun k => if x.shadow then d.shadowTbl x.pl k else d.visibleTbl k
  let same : Bytes → Bytes → Bool := fun a b => x.ix == 0x3000 || slice a 4 80 == slice b 4 80
  let write : Bool → M TblRes := fun full => do
    stageTbl (areaOf x.ix |>.getD 0) x.pl key (if full then some (ofBytes x.entry) else none)
    return { status := 0x401, addr := some x.addr }
  let valid := bitOf (byteAt x.entry (if x.ix = 0x3000 then 1 else 0)) 7
  match x.op with
  | 1 => return foundAt 1 n (d.tblLowest x.ix x.sub look (fun _ v => same (toBytes n v) x.entry))
  | 2 => if limit ≤ x.addr then return { status := 0x103 } else write valid
  | 3 => if limit ≤ x.addr ∨ (d.shadowTbl x.pl key).isNone then return { status := 0x103 } else write false
  | 4 => return foundAt 4 n (d.tblLowest x.ix x.sub look (fun a _ => decide (x.addr ≤ a)))
  | _ => match (if limit ≤ x.addr then none else d.shadowTbl x.pl key) with
    | none => return { status := 0x103 }
    | some v => if same (toBytes n v) x.entry then write valid else return { status := 0x302 }

/-- A Prism entry as a read returns it: DISABLED while a bay has it disabled (R178). -/
def Dev.prismRead (d : Dev) (a v : Nat) : Nat :=
  setBit v (179 * 8 + 6) (d.bays.prismOff.any (fun x => x % 16384 == a))

/-- An entry of `w` rows at `a` would overlap the rows of another entry. -/
def Dev.prismOverlap (d : Dev) (a w : Nat) : Bool := (d.entries 0x3200 1).any fun e =>
  e.1 != a && decide (e.1 < a + w ∧ a < e.1 + prismRows (toBytes 180 e.2))

/-- The Prism. -/
def prismTable (x : TblOp) : M TblRes := do
  let d ← get
  let key := tkey 0x3200 1 x.addr
  let write : Bool → M TblRes := fun full => do
    set (d.mgrTbl key (if full then some (setBit (ofBytes x.entry) (179 * 8 + 6) false) else none))
    return { status := 0, addr := some x.addr }
  let kind : Bytes → Nat × Nat × Bytes := fun b => (prismRows b, byteAt b 0 % 4, slice b 4 160)
  let read : Option (Nat × Nat) → Option (Nat × Nat) := fun y => y.map (fun z => (z.1, d.prismRead z.1 z.2))
  let valid := bitOf (byteAt x.entry 0) 7
  match x.op with
  | 1 => return foundAt 1 180 (read ((d.entries 0x3200 1).find? (fun e => kind (toBytes 180 e.2) == kind x.entry)))
  | 2 =>
    if 16384 ≤ x.addr then return { status := 0x103 }
    else if d.prismOverlap x.addr (prismRows x.entry) then return { status := 0x302 }
    else write valid
  | 3 => if (oget d.tbls key).isNone ∨ 16384 ≤ x.addr then return { status := 0x103 } else write false
  | 4 => return foundAt 4 180 (read ((d.entries 0x3200 1).find? (fun e => decide (x.addr ≤ e.1))))
  | _ => match (if 16384 ≤ x.addr then none else oget d.tbls key) with
    | none => return { status := 0x103 }
    | some v => if kind (toBytes 180 v) = kind x.entry then write valid else return { status := 0x302 }

/-! ### Exact-match tables (R194, R196) -/

/-- Exact-match table `t`. -/
def exactTable (t : Nat) (x : TblOp) : M TblRes := do
  drainLearn
  let d ← get
  let key := d.emKey t (ofBytes x.entry)
  let at_ := fun a => tkey 0x3400 (t + 1) a
  match x.op with
  | 1 => return foundAt 1 60 (d.emFind t key (d.emMaster t))
  | 2 =>
    let (st, a) ← emInsert t (emWithCtrl (ofBytes x.entry) (byteAt x.entry 0 &&& 0xC0))
    if st = 0x501 then insertFailed t 0
    return { status := st, addr := resAddr 2 st a }
  | 3 => match d.emFind t key (d.emMaster t) with
    | none => return { status := 0x103 }
    | some (a, _) =>
      let d := d.mgrTbl (at_ a) none
      set (if d.learnTable = t then { d with bays.marks := d.bays.marks.filter (· ≠ key) } else d)
      return { status := 0, addr := some a }
  | 4 => return foundAt 4 60 ((d.entries 0x3400 (t + 1)).find? (fun e => decide (x.addr ≤ e.1)))
  | _ => match d.emMaster t x.addr with
    | none => return { status := 0x103 }
    | some v =>
      if d.emKey t v ≠ key then return { status := 0x302 }
      else
        let v' := putFld v 0 128 (ofBytes x.entry % 2 ^ 128)
        let v' := if d.learnTable = t then emWithCtrl v' (setBit (emCtrl v) 6 (bitOf (byteAt x.entry 0) 6)) else v'
        set (d.mgrTbl (at_ x.addr) (some v'))
        return { status := 0, addr := some x.addr }

/-! ### The trie (R186, R187) -/

/-- The key of a trie entry: family, length, VRF, address. -/
def trieKey (v : Nat) : Bool × Nat × Nat × Nat := let p := prefixOf v; (p.v6, p.len, p.vrf, p.addr)

/-- The lowest number that a rising list does not hold. -/
def firstFree : List Nat → Nat → Nat
  | [], n => n
  | x :: r, n => if x = n then firstFree r (n + 1) else n

/-- The trie. -/
def trieTable (x : TblOp) : M TblRes := do
  drainLearn
  let d ← get
  let l := d.entries 0x3440 1
  let v := ofBytes x.entry
  let key := trieKey v
  let at_ := fun a => tkey 0x3440 1 a
  match x.op with
  | 1 => return foundAt 1 36 (l.find? (fun e => trieKey e.2 == key))
  | 2 => match l.find? (fun e => trieKey e.2 == key) with
    | some e => return { status := 0x502, addr := some e.1 }
    | none =>
      if 2097152 < (d.forwardObj 0x3440 2 0).getD 0 + (prefixOf v).units then
        incO 0x3440 5
        insertFailed 0xFF 0
        return { status := 0x501 }
      else
        let a := firstFree (l.map Prod.fst) 0
        set (d.mgrTbl (at_ a) (some v))
        return { status := 0, addr := some a }
  | 3 => match l.find? (fun e => trieKey e.2 == key) with
    | some e =>
      set (d.mgrTbl (at_ e.1) none)
      return { status := 0, addr := some e.1 }
    | none => return { status := 0x103 }
  | 4 => return foundAt 4 36 (l.find? (fun e => decide (x.addr ≤ e.1)))
  | _ => match oget d.tbls (at_ x.addr) with
    | none => return { status := 0x103 }
    | some w =>
      if trieKey w ≠ key then return { status := 0x302 }
      else
        set (d.mgrTbl (at_ x.addr) (some (putFld w 0 128 (v % 2 ^ 128))))
        return { status := 0, addr := some x.addr }

/-! ### The flow table and the rings -/

/-- The Sill on which an operation on the flow table runs (R239): the key's home; a walk's cursor names it. -/
def flowHome (op addr : Nat) (entry : Bytes) : Nat :=
  if op = 4 then min 1 (addrSill addr) else homeOf (flowEntryKey (ofBytes entry)).1

/-- A walk of the trace ring (6042h.01) or of a sample ring (6052h). -/
def Dev.ringWalk (d : Dev) (x : TblOp) : TblRes :=
  let l := if x.ix = 0x6042 then d.mon.trace else
    d.mon.samples.filterMap (fun e => if e.1 / sampleSize = x.sub - 1 then some (e.1 % sampleSize, e.2) else none)
  foundAt 4 (entryLen x.ix) (l.findSome? (fun e => if x.addr ≤ e.1 then e.2.map (fun v => (e.1, v)) else none))

/-- A table operation (R33, R53), but for one on the flow table, which runs as a task (R239). -/
def tableOp (x : TblOp) : M TblRes := do
  let d ← get
  match d.tableCheck x with
  | some e => return { status := e }
  | none =>
    match x.ix with
    | 0x3000 | 0x3100 => stagedTable x
    | 0x3200 => prismTable x
    | 0x3400 => exactTable (x.sub - 1) x
    | 0x3440 => trieTable x
    | 0x3800 => return { status := 0x701 }
    | _ => return d.ringWalk x

end Sys2Proof.Machine
end

