-- ==== Sys2Proof/Machine/Lists.lean ====
section
/-! DEFINITION. Operation lists (R45 to R47), as batches and UOP carry them: the parsing of entries, the three rules that stop a list,
and result entries. -/

namespace Sys2Proof.Machine

/-- An operation entry (R45). -/
structure Entry where
  op : Nat
  shadow : Bool
  key : Nat
  value : Bytes
  deriving DecidableEq, Repr

/-- The operation codes of R45. -/
def opKnown (op : Nat) : Bool := (1 ≤ op && op ≤ 5) || (0x10 ≤ op && op ≤ 0x14)

/-- The first entry of a list and the rest of it, or none if it is not well formed (R45). -/
def parseEntry (b : Bytes) : Option (Entry × Bytes) :=
  let len := beAt b 2 2
  let next := ceilDiv (12 + len) 4 * 4
  if b.length < 12 then none
  else if !opKnown (byteAt b 0) || 2 ≤ byteAt b 1 || beAt b 10 2 != 0 || 516 < len || b.length < next ||
      !zeros (slice b (12 + len) (next - 12 - len)) then none
  else some (⟨byteAt b 0, byteAt b 1 == 1, okey (beAt b 4 2) (byteAt b 6) (beAt b 7 3), slice b 12 len⟩, b.drop next)

/-- Round up to a multiple of 4. -/
def pad4 (n : Nat) : Nat := ceilDiv n 4 * 4

/-- The key of an entry names a table. -/
def Entry.onTable (e : Entry) : Bool := (rowOf (keyIndex e.key) (keySub e.key)).any (fun r => r.ty == .table)

/-- The largest result entry that an operation can produce (R47). -/
def maxResult : Option Entry → Nat
  | none => 8
  | some e =>
    let row := rowOf (keyIndex e.key) (keySub e.key)
    8 + pad4 (
      if e.op = 1 ∨ e.op = 3 then (if e.onTable then 0 else (row.map (fun r => r.ty.len)).getD 0)
      else if e.op = 4 then 8
      else if 0x10 ≤ e.op ∧ e.onTable then 4 + entryLen (keyIndex e.key)
      else 0)

/-- A result entry (R46). -/
def resultEntry (op status : Nat) (v : Bytes) : Bytes :=
  padTo 4 (toBytes 1 op ++ [0#8] ++ toBytes 2 status ++ toBytes 2 v.length ++ [0#8, 0#8] ++ v)

/-- A read that carries a value: the checks that come first, then 0301h (R45). -/
def Dev.readWithValue (d : Dev) (pl key : Nat) : Nat := match d.readCheck pl key with | .error e => e | .ok _ => 0x301

/-- The table operation of an entry. -/
def Entry.tblOp (e : Entry) (pl : Nat) : TblOp :=
  { pl := pl, op := match e.op with | 0x10 => 1 | 0x11 => 2 | 0x12 => 3 | 0x13 => 4 | _ => 5
    shadow := e.shadow, ix := keyIndex e.key, sub := keySub e.key, addr := beAt e.value 0 4, entry := e.value.drop 4
    inst := keyInst e.key, cut := decide (e.value.length < 4) }

/-- Execute an operation for plane `pl` (a UOP session runs on `core`): status and returned value, nothing for a table operation
on a key that names no table (R47). A COMMIT with a value is answered 0301h (R45) before its commit point is asked (R33): DESIGN CHOICE,
log entry 140. -/
def runEntry (pl : Nat) (core : Option Nat) (e : Entry) : M (Nat × Bytes) := do
  let empty := e.value.isEmpty
  let d ← get
  match e.op with
  | 1 => if empty then objRead pl e.key else return (d.readWithValue pl e.key, [])
  | 2 => return (← objWrite pl core e.key e.value [], [])
  | 3 => if empty then objReadShadow pl e.key else return (d.readWithValue pl e.key, [])
  | 4 =>
    if !empty then return (0x301, [])
    let (st, epoch) ← commitRun pl
    return (st, if st = 0 then toBytes 8 epoch else [])
  | 5 => if empty then return (← discardReq pl, []) else return (0x301, [])
  | _ =>
    let r ← tableOp (e.tblOp pl)
    if e.onTable then return (r.status, toBytes 4 (← addrField r.addr) ++ r.entry) else return (r.status, [])

/-- A status that counts as success. -/
def succeeded (st : Nat) : Bool := st == 0 || st == 0x401

/-- A run with one more result. -/
def ListRun.put (r : ListRun) (op st : Nat) (v : Bytes) : ListRun :=
  { r with results := r.results ++ resultEntry op st v, executed := r.executed + 1
           failed := if succeeded st ∨ r.failed.isSome then r.failed else some (r.executed, st) }

/-- An operation on the flow table that passes its checks: it runs as a task (R239). -/
def Entry.flowOp (e : Entry) (d : Dev) (pl : Nat) : Bool :=
  decide (0x10 ≤ e.op) && keyIndex e.key == 0x3800 && e.onTable && (d.tableCheck (e.tblOp pl)).isNone

/-- Execute up to `n` operations of list `id` (R47): `stop` on error, `space` octets for results. An operation on the flow table is
submitted as a task, and the list waits. Octets after the last of the `n` entries are not looked at (DESIGN CHOICE, log entry 114). -/
def runList (id pl : Nat) (core : Option Nat) (stop : Bool) (space : Nat) : Nat → Bytes → ListRun → M ListRun
  | 0, _, r => return r
  | n + 1, b, r => do
    if b.isEmpty then return { r with early := true }
    let p := parseEntry b
    if space < r.results.length + maxResult (p.map Prod.fst) then return { r with early := true }
    match p with
    | none => return { r.put (byteAt b 0) 0x301 [] with early := true }
    | some (e, rest) =>
      if e.flowOp (← get) pl then
        let x := e.tblOp pl
        submitOrWait (flowHome x.op x.addr x.entry) (2 + pl) (.table (32 + id) x.op pl x.addr (ofBytes x.entry))
        return { r with wait := some (n, rest, e.op) }
      let (st, v) ← runEntry pl core e
      let r := r.put e.op st v
      if stop ∧ !succeeded st then return { r with early := true }
      else runList id pl core stop space n rest r

/-- A list whose operation is complete goes on. -/
def ListWait.go (x : ListWait) (id st : Nat) (v : Bytes) : M ListRun :=
  match x.run.wait with
  | none => return x.run
  | some (n, rest, op) =>
    let r := { x.run with wait := none }.put op st v
    if x.stop ∧ !succeeded st then return { r with early := true }
    else runList id x.pl x.core x.stop x.space n rest r

end Sys2Proof.Machine
end

