-- ==== Sys2Proof/Machine/Windows.lean ====
section
/-! DEFINITION. BAR0 and BAR2 (R358, R359, R370): object windows (R48, R49), table windows (R55), the batch registers (R50), rings
(R360), the MSI-X table (R368), host control (R371), user counter pages; and object batches (R51, R52). A window 4 × function +
window belongs to plane H on function 0 and to plane M on function 1 (R31). -/

namespace Sys2Proof.Machine

/-! ### Object windows -/

/-- A window. -/
def Dev.win (d : Dev) (w : Nat) : ObjWin := mget (dK {}) d.objWins w

/-- Replace it. -/
def Dev.setWin (d : Dev) (w : Nat) (x : ObjWin) : Dev := { d with objWins := mset (dK {}) d.objWins w x }

/-- The data of a write stand in window `w`. -/
def Dev.winBegin (d : Dev) (w : Nat) (data : Bytes) : Dev := d.setWin w { d.win w with data := overlay (d.win w).data 0 data }

/-- An operation of window `w` has ended with a status and a value: the window's registers, and the operation counted. -/
def Dev.winEnd (d : Dev) (w key ctrl st : Nat) (v : Bytes) : Dev :=
  (d.setWin w { key := key, ctrl := ctrl, status := st, epoch := d.o 0x1020 3, data := overlay (d.win w).data 0 v }).addO 0x5410 2 w 1

/-- An operation of window `w`: `f` answers status and value; it takes no time here, so BUSY is never seen (log entry 22). A function
that does not serve its plane answers 0701h (R373). -/
def winRun (w key ctrl : Nat) (f : M (Nat × Bytes)) : M Unit := do
  let d ← get
  if d.pcieUp then
    let (st, v) ← if d.hostOk (w / 4) then f else pure (0x701, [])
    modify fun d => d.winEnd w key ctrl st v

/-- OW_CTRL of an operation. -/
def owCtrl (op len : Nat) : Nat := len <<< 16 + op

/-- READ through window `w`. -/
def winRead (w key : Nat) : M Unit := winRun w key (owCtrl 1 0) (objRead (w / 4) key)

/-- READ_SHADOW through window `w`. -/
def winReadShadow (w key : Nat) : M Unit := winRun w key (owCtrl 3 0) (objReadShadow (w / 4) key)

/-- WRITE through window `w`; `fail`: copies or fuses that cannot be written. -/
def winWriteFail (w key : Nat) (data : Bytes) (fail : List Nat) : M Unit :=
  if 256 < data.length then return ()
  else winRun w key (owCtrl 2 data.length) (do
    modify fun d => d.winBegin w data
    return (← objWrite (w / 4) none key data fail, []))

/-- WRITE through window `w`. -/
def winWrite (w key : Nat) (data : Bytes) : M Unit := winWriteFail w key data []

/-- A write of a number of `n` octets to an object. -/
def winPut (w ix sub i n v : Nat) : M Unit := winWrite w (okey ix sub i) (toBytes n v)

/-! ### Table windows -/

/-- A table window, 16 × function + window. -/
def Dev.tblWin (d : Dev) (k : Nat) : TblWin := mget (dK {}) d.tblWins k

/-- Replace it. -/
def Dev.setTblWin (d : Dev) (k : Nat) (x : TblWin) : Dev := { d with tblWins := mset (dK {}) d.tblWins k x }

/-- TW_STATUS while an operation on the flow table waits for its task or runs. -/
def twBusy : Nat := 2 ^ 31

/-- A write to a busy table window is ignored (R48, R55). -/
def twDrop (k : Nat) : M Unit := incO 0x5410 3 k

/-- An operation of table window `k` has ended: result, address field and next cursor stand in the window (R53, R55). -/
def Dev.tblEnd (d : Dev) (k op a : Nat) (r : TblRes) : Dev := d.setTblWin k { d.tblWin k with
  status := r.status, addr := a, entry := overlay (d.tblWin k).entry 0 r.entry
  cursor := if op = 4 ∧ r.status = 0 then (a + 1) % 2 ^ 32 else (d.tblWin k).cursor }

/-- The registers of table window `k` as an operation finds them. -/
def Dev.tblLoad (d : Dev) (k ix sub op : Nat) (shadow : Bool) (addr : Nat) (entry : Bytes) : Dev := d.setTblWin k { d.tblWin k with
  table := ix <<< 16 + sub <<< 8, ctrl := shadow.toNat <<< 7 + op, cursor := addr, entry := overlay (d.tblWin k).entry 0 (entry.take 516) }

/-- An operation of table window `k` begins, with the window's registers as they stand. One on the flow table runs as a task of the
key's home Sill (R239); if the dispatcher holds too many it waits for 50 µs (R267). -/
def tblRun (k : Nat) : M Unit := do
  let d ← get
  let x := d.tblWin k
  let op := x.ctrl % 8
  let pl := k / 16
  let t : TblOp := { pl := pl, op := op, shadow := bitOf x.ctrl 7, ix := x.table >>> 16, sub := fld x.table 8 8, addr := x.cursor
                     entry := fitTo (entryLen (x.table >>> 16)) x.entry }
  if !d.hostOk pl then tblFinish k op 0x701 0 []
  else if op = 0 ∨ 5 < op then tblFinish k op 0x301 0 []
  else match d.tableCheck t with
    | some e => tblFinish k op e 0 []
    | none =>
      if t.ix = 0x3800 then
        let s := flowHome op t.addr t.entry
        modify fun d => d.setTblWin k { d.tblWin k with status := twBusy }
        submitOrWait s (2 + pl) (Work.table k op pl t.addr (ofBytes t.entry))
      else
        let r ← tableOp t
        let a ← addrField r.addr
        modify fun d => d.tblEnd k op a r

/-- An operation of table window `k` whose registers are all written first. -/
def tblCommand (k ix sub op : Nat) (shadow : Bool) (addr : Nat) (entry : Bytes) : M Unit := do
  let d ← get
  if d.pcieUp then
    if (d.tblWin k).status = twBusy then twDrop k
    else
      set (d.tblLoad k ix sub op shadow addr entry)
      tblRun k

/-- An operation that has waited 50 µs for the dispatcher (R267). -/
def tblTimeout (k : Nat) : M Unit := do
  let d ← get
  match d.joinery.waiting.find? (fun e => match e.2.work with | .table j .. => j == k | _ => false) with
  | none => return ()
  | some e =>
    set { d with joinery.waiting := d.joinery.waiting.erase e }
    sourceQuiet e.1 e.2.kind
    match e.2.work with
    | .table _ op .. => tblFinish k op 0x701 0 []
    | _ => return ()

/-! ### Batches -/

/-- The batch engine of a function. -/
def Dev.batch (d : Dev) (f : Nat) : BatchEng := mget (dK {}) d.host.batch f

/-- Replace it. -/
def Dev.setBatch (d : Dev) (f : Nat) (x : BatchEng) : Dev := { d with host.batch := mset (dK {}) d.host.batch f x }

/-- A batch ring size is one of R50. -/
def batchSizeOk (n : Nat) : Bool := powerOfTwoIn 16 4096 n

/-- The vector of a batch engine (R368). -/
def batchVector (f : Nat) : Nat := if f = 0 then 34 else 65

/-- BATCH_CTRL [1:0] with the engine enabled (R50). -/
def batchEnable (f : Nat) (ie : Bool) : M Unit := do
  let d ← get
  if d.pcieUp then
    let x := { d.batch f with ie := ie }
    if !batchSizeOk x.size then set (d.setBatch f { x with en := false, err := true })
    else set (d.setBatch f { x with en := d.hostOk f })
    if ie then msixCheck (batchVector f)

/-- BATCH_CTRL [31]. -/
def batchClear (f : Nat) : M Unit := do
  let d ← get
  if d.pcieUp then set (d.setBatch f { d.batch f with err := false })

/-- The results of a batch (R51): the header and the entries. -/
def batchResults (r : ListRun) : Bytes :=
  let (p, st) := r.failed.getD (0xFFFFFFFF, 0)
  toBytes 4 r.executed ++ toBytes 4 p ++ toBytes 2 st ++ List.replicate 6 0#8 ++ r.results

/-- The commit that flag [1] of a descriptor asks for, after a list that did not stop early (R51). -/
def batchCommit (f : Nat) (desc : Bytes) (r : ListRun) : M ListRun := do
  if bitOf (byteAt desc 28) 1 ∧ !r.early ∧ r.results.length + 16 ≤ beAt desc 24 4 - 16 then do
    let (st, e) ← commitRun f
    return r.put 4 st (if st = 0 then toBytes 8 e else [])
  else return r

/-- A descriptor is done: DONE is written, HEAD moves on, the interrupt is counted (R50, R51). -/
def batchDone (f done : Nat) : M Unit := do
  let x := (← get).batch f
  emit (.dma (x.base + x.head * 32 + 29) [BitVec.ofNat 8 done])
  modify fun d => d.setBatch f { d.batch f with head := (x.head + 1) % x.size }
  msixCount (batchVector f)

/-- The list of a descriptor has stopped: it waits for the flow table, or its results are written. -/
def batchEnd (f : Nat) (desc : Bytes) (writeErr : Bool) (r : ListRun) : M Unit := do
  if r.wait.isSome then
    modify fun d => { d with lists := oset d.lists f (some
      { pl := f, core := none, stop := byteAt desc 28 % 2 == 1, space := beAt desc 24 4 - 16, run := r, desc, writeErr }) }
  else
    let r ← batchCommit f desc r
    if !writeErr then emit (.dma (beAt desc 16 8) (batchResults r))
    batchDone f (if writeErr then 2 else 1)

/-- BATCH_DESCRIPTOR (R51, R52): the engine has read the descriptor at HEAD and the list it names (`readErr` 1 to 3: the read of the
list failed; `writeErr`: the write of the results failed). The list is read whole before its first operation runs, and BATCH_TAIL counts
modulo the ring size (DESIGN CHOICE, log entry 117). -/
def batchRun (f : Nat) (desc ops : Bytes) (readErr : Nat) (writeErr : Bool) : M Unit := do
  let d ← get
  let x := d.batch f
  if d.pcieUp ∧ x.en ∧ d.hostOk f ∧ x.size ≠ 0 ∧ x.head ≠ x.tail % x.size ∧ oget d.lists f = none then
    let len := beAt desc 8 4
    let space := beAt desc 24 4
    if 0 < readErr then
      dmaReadError f (readErr - 1) 0x1000
      batchDone f 2
    else if 2 ^ 20 < len ∨ space < 16 then batchDone f 2
    else
      let r ← runList f f none (byteAt desc 28 % 2 == 1) (space - 16) (beAt desc 12 4) (fitTo len ops) {}
      batchEnd f desc writeErr r

/-- The batch of function `f` goes on once its operation on the flow table is complete; one whose engine was stopped is dropped. -/
def batchGo (f : Nat) : M Unit := do
  let d ← get
  match oget d.lists f with
  | none => return ()
  | some w =>
    match w.res with
    | none => return ()
    | some (st, v) =>
      set { d with lists := oset d.lists f none }
      if d.pcieUp ∧ (d.batch f).en ∧ d.hostOk f then
        let r ← w.go f st v
        batchEnd f w.desc w.writeErr r

/-! ### The registers of BAR0 -/

/-- A register as BAR0 shows it: a number of 4 or 8 octets, or octets at an offset of a buffer. -/
inductive Reg where
  | num (len v : Nat)
  | bytes (b : Bytes) (o : Nat)
  deriving DecidableEq, Repr

/-- A 64-bit register `v` at offset `base` read at `o`: whole, or its upper half (log entry 23). -/
def reg64 (o base v : Nat) : Option Reg := if o = base then some (.num 8 v) else if o = base + 4 then some (.num 4 (v >>> 32)) else none

/-- The first that is present. -/
def firstReg : List (Option Reg) → Option Reg
  | [] => none
  | some x :: _ => some x
  | none :: r => firstReg r

/-- A 32-bit register at offset `base`. -/
def reg32 (o base v : Nat) : Option Reg := if o = base then some (.num 4 v) else none

/-- A 64-bit register after a write of `data` at `o` (R48: 8 octets, or 4 to a half). -/
def write64 (o base old : Nat) (data : Bytes) : Nat :=
  if data.length = 8 then ofBytes data % 2 ^ 64 else putFld old (if o = base then 0 else 32) 32 (ofBytes data % 2 ^ 32)

/-- RING_CTRL. -/
def Ring.ctrl (x : Ring) : Nat := x.err.toNat <<< 31 + x.running.toNat <<< 30 + x.ie.toNat <<< 1 + x.en.toNat

/-- The ring block that an offset lies in, for function `f` (R359). -/
def ringAt (f o : Nat) : Option (Nat × Nat) :=
  if f = 1 then (if 0x23000 ≤ o ∧ o < 0x23040 then some (34, o - 0x23000) else none)
  else if 0x20000 ≤ o ∧ o < 0x20400 then some ((o - 0x20000) / 0x40, o % 0x40)
  else if 0x21000 ≤ o ∧ o < 0x21400 then some (16 + (o - 0x21000) / 0x40, o % 0x40)
  else if 0x22000 ≤ o ∧ o < 0x22040 then some (32, o - 0x22000)
  else if 0x23000 ≤ o ∧ o < 0x23040 then some (33, o - 0x23000)
  else none

/-- Vectors of a function. -/
def vectorCount (f : Nat) : Nat := if f = 0 then 64 else 4

/-- A vector. -/
def Dev.vector (d : Dev) (i : Nat) : Vector := mget (dK {}) d.host.vectors i

/-- Replace it. -/
def Dev.setVector (d : Dev) (i : Nat) (v : Vector) : Dev := { d with host.vectors := mset (dK {}) d.host.vectors i v }

/-- What BAR0 of function `f` shows at an offset, or none: the map does not name it. -/
def Dev.barReg (d : Dev) (f o : Nat) : Option Reg :=
  if o < 0x1000 then
    let x := d.win (f * 4 + o / 0x400)
    let r := o % 0x400
    if 0x100 ≤ r ∧ r < 0x200 then some (.bytes (fitTo 256 x.data) (r - 0x100))
    else firstReg [reg64 r 0 x.key, reg32 r 8 x.ctrl, reg32 r 0xC x.status, reg64 r 0x10 x.epoch]
  else if o < 0x2000 then
    let x := d.batch f
    firstReg [reg64 o 0x1000 x.base, reg32 o 0x1008 x.size, reg32 o 0x100C x.tail, reg32 o 0x1010 x.head,
      reg32 o 0x1014 (x.err.toNat <<< 31 + x.ie.toNat <<< 1 + x.en.toNat)]
  else if o < 0x6000 then
    let x := d.tblWin (f * 16 + (o - 0x2000) / 0x400)
    let r := o % 0x400
    if 0x100 ≤ r ∧ r < 0x304 then some (.bytes (fitTo 516 x.entry) (r - 0x100))
    else firstReg [reg32 r 0 x.table, reg32 r 4 x.ctrl, reg32 r 8 x.status, reg32 r 0xC x.cursor, reg32 r 0x10 x.addr]
  else if 0x10000 ≤ o ∧ o < 0x10010 then
    if o = 0x10008 then some (.num 4 (d.o 0x5400 2 * 16 + d.o 0x5400 1))
    else if f = 1 then none
    else firstReg [reg32 o 0x10000 0, reg32 o 0x10004 0, reg32 o 0x1000C (d.o 0x5400 3)]
  else if 0xF0000 ≤ o ∧ o < 0xF0000 + 16 * vectorCount f then
    let v := d.vector (f * 64 + (o - 0xF0000) / 16)
    let r := o % 16
    firstReg [reg64 r 0 v.addr, reg32 r 8 v.data, reg32 r 0xC v.masked.toNat]
  else if 0xF8000 ≤ o ∧ o < 0xF8008 then
    reg64 o 0xF8000 ((List.range (vectorCount f)).foldl (fun a v => a + (d.vector (f * 64 + v)).pending.toNat <<< v) 0)
  else match ringAt f o with
    | some (r, i) =>
      let x := d.ring r
      firstReg [reg64 i 0 x.base, reg32 i 8 x.size, reg32 i 0xC x.tail, reg32 i 0x10 x.head, reg32 i 0x14 x.ctrl, reg64 i 0x18 x.headWb,
        reg32 i 0x20 x.limit]
    | none => none

/-- A read of BAR0 (R358): the completion. A buffer is read 8 octets at a time. -/
def barRead (f o : Nat) : M Unit := do
  let d ← get
  if d.pcieUp then
    match d.barReg f o with
    | some (.num n v) => emit (.mmio (toBytes n v))
    | some (.bytes b i) => emit (.mmio (slice b i 8))
    | none =>
      incO 0x5402 4
      emit (.mmio (toBytes 4 0))

/-- A write of a register of an object window. -/
def owWrite (w r : Nat) (data : Bytes) : M Unit := do
  let d ← get
  let x := d.win w
  let v := ofBytes data
  if r = 0 ∨ r = 4 then set (d.setWin w { x with key := write64 r 0 x.key data % 2 ^ 48 })
  else if 0x100 ≤ r then set (d.setWin w { x with data := overlay (fitTo 256 x.data) (r - 0x100) (data.take (0x200 - r)) })
  else if r = 8 then
    let len := fld v 16 9
    let c := owCtrl (v % 16) len
    set (d.setWin w { x with ctrl := c })
    if bitOf v 31 then
      -- a length beyond the buffer fits no type: it fails at order 7 of R33
      let got := fitTo len (fitTo 256 x.data)
      match v % 16 with
      | 1 => winRun w x.key c (objRead (w / 4) x.key)
      | 2 => winRun w x.key c (do return (← objWrite (w / 4) none x.key got [], []))
      | 3 => winRun w x.key c (objReadShadow (w / 4) x.key)
      | _ => winRun w x.key c (pure (0x301, []))

/-- A write of a register of a table window. -/
def twWrite (k r : Nat) (data : Bytes) : M Unit := do
  let d ← get
  let x := d.tblWin k
  let v := ofBytes data % 2 ^ 32
  if x.status = twBusy then twDrop k
  else if r = 0 then set (d.setTblWin k { x with table := v / 256 * 256 })
  else if r = 0xC then set (d.setTblWin k { x with cursor := v })
  else if 0x100 ≤ r then set (d.setTblWin k { x with entry := overlay (fitTo 516 x.entry) (r - 0x100) (data.take (0x304 - r)) })
  else if r = 4 then
    set (d.setTblWin k { x with ctrl := v &&& 0x87 })
    if bitOf v 31 then tblRun k

/-- A write of a batch register (R50). -/
def batchWrite (f o : Nat) (data : Bytes) : M Unit := do
  let d ← get
  let x := d.batch f
  let v := ofBytes data % 2 ^ 32
  if o = 0x1000 ∨ o = 0x1004 then set (d.setBatch f { x with base := write64 o 0x1000 x.base data / 4096 * 4096 })
  else if o = 0x1008 then
    set (d.setBatch f (if batchSizeOk v then { x with size := v } else { x with size := v, en := false, err := true }))
  else if o = 0x100C then set (d.setBatch f { x with tail := v })
  else if o = 0x1014 then
    if bitOf v 31 then batchClear f
    if bitOf v 0 then batchEnable f (bitOf v 1)
    else modify fun d => d.setBatch f { d.batch f with en := false, ie := bitOf v 1 }

/-- A write of a ring register (R360). -/
def ringWrite (r i : Nat) (data : Bytes) : M Unit := do
  let d ← get
  let x := d.ring r
  let v := ofBytes data % 2 ^ 32
  if i = 0 ∨ i = 4 then ringConfigWrite r 0 (write64 i 0 x.base data)
  else if i = 8 then ringConfigWrite r 1 v
  else if i = 0xC then set (d.setRing r { x with tail := v })
  else if i = 0x14 then
    if bitOf v 31 then ringErrorClear r
    if bitOf v 0 then
      if x.en then ringInterrupt r (bitOf v 1) else ringEnable r (bitOf v 1)
    else
      ringDisable r
      ringInterrupt r (bitOf v 1)
  else if i = 0x18 ∨ i = 0x1C then set (d.setRing r { x with headWb := write64 i 0x18 x.headWb data / 8 * 8 })
  else if i = 0x20 then ringConfigWrite r 2 v

/-- A write of an MSI-X table entry: unmasking sends what is pending (R368). -/
def vectorWrite (i r : Nat) (data : Bytes) : M Unit := do
  let d ← get
  let v := d.vector i
  let n := ofBytes data % 2 ^ 32
  if r = 0 ∨ r = 4 then set (d.setVector i { v with addr := write64 r 0 v.addr data })
  else if r = 8 then set (d.setVector i { v with data := n })
  else
    set (d.setVector i { v with masked := bitOf n 0 })
    if v.masked ∧ !bitOf n 0 ∧ v.pending then msixSend i

/-- A write of host control (R371). -/
def controlWrite (o : Nat) (data : Bytes) : M Unit := do
  let v := ofBytes data % 2 ^ 32
  if o = 0x10000 then
    if v = 1 then hostAttach else if v = 2 then hostVanish 5
  else if o = 0x10004 then
    let now ← runNow
    modify fun d => { d with host.beat := now }
  else if o = 0x1000C then
    let _ ← objWrite 0 none (okey 0x5400 3 0) (toBytes 4 v) []

/-- A write of BAR0 (R358). -/
def barWrite (f o : Nat) (data : Bytes) : M Unit := do
  let d ← get
  if d.pcieUp then
    match d.barReg f o with
    | none => incO 0x5402 4
    | some _ =>
      if o < 0x1000 then owWrite (f * 4 + o / 0x400) (o % 0x400) data
      else if o < 0x2000 then batchWrite f o data
      else if o < 0x6000 then twWrite (f * 16 + (o - 0x2000) / 0x400) (o % 0x400) data
      else if o < 0x10010 then controlWrite o data
      else if 0xF8000 ≤ o then return ()
      else if 0xF0000 ≤ o then vectorWrite (f * 64 + (o - 0xF0000) / 16) (o % 16) data
      else match ringAt f o with
        | some (r, i) => ringWrite r i data
        | none => return ()

/-- A read of word `w` of the user page of group `g` (R370): it clears nothing, and reads zero while the group is not marked. -/
def pageRead (g w : Nat) : M Unit := do
  if (← get).pcieUp then
    let v ← if (← getB 0x6000 2 g) then groupWord g w else pure 0
    emit (.mmio (toBytes 8 v))

/-- A 4-byte read of half `h` of a user page: half a counter (R370). -/
def pageHalf (g h : Nat) : M Unit := do
  if (← get).pcieUp then
    let v ← if (← getB 0x6000 2 g) then groupWord g (h / 2) else pure 0
    emit (.mmio (toBytes 4 (fld v (h % 2 * 32) 32)))

/-- READ of a target. -/
def readTarget : Target → M Unit
  | .obj w key => winRead w key
  | .bar f o => barRead f o
  | .page g w => pageRead g w
  | .half g h => pageHalf g h

/-- WRITE of a target: a write of a user page is ignored and counted (R370). -/
def writeTarget (t : Target) (data : Bytes) : M Unit :=
  match t with
  | .obj w key => winWrite w key data
  | .bar f o => barWrite f o data
  | .page _ _ | .half _ _ => do if (← get).pcieUp then incO 0x5402 4

end Sys2Proof.Machine
end

