-- ==== Sys2Proof/Machine/Uop.lean ====
section
/-! DEFINITION. The Uluash Object Protocol (R56 to R65): the checks of a message (R58), sequences (R59), execution and the response
(R60), and its transports: frames of a port (R62), HDLC frames of a data channel (R63). A session runs for the management plane. -/

namespace Sys2Proof.Machine

/-! ### Rate limits (R64) -/

/-- The number of a source: port p, or 256 + channel. -/
def uopSource (chan : Bool) (num : Nat) : Nat := if chan then 256 + num else num

/-- A message of a source is dropped before its session is known: counted (R58, R63, R64). -/
def uopDrop (chan : Bool) (num : Nat) : M Unit := if chan then incO 0x1180 3 num else incO 0x1180 2 num

/-- Step 1 of R58: the rate limits. `kind` of 1104h: 0 port, 1 channel, 2 device. -/
def uopRate (chan : Bool) (num : Nat) : M Bool := do
  let d ← get
  let now ← runNow
  let s := uopSource chan num
  let rate := if chan then d.o 0x1100 8 else d.o 0x1100 7
  let all := d.o 0x1100 9
  let (ok1, b1) := bucketTake rate rate now (oget d.uopRate s)
  let (ok2, b2) := bucketTake all all now (oget d.uopRate 512)
  if ok1 ∧ ok2 then
    set { d with uopRate := oset (oset d.uopRate s b1) 512 b2 }
    return true
  else
    let t : Int ← devNow
    let drops := (d.uopDrops.filter (fun x => t < x.2 + uS)) ++ [(s, t)]
    set { d with uopDrops := drops }
    uopDrop chan num
    let n := (drops.filter (fun x => x.1 == s)).length
    raiseLim 545 0x1104 1 s num (if !ok1 then chan.toNat else 2) n 0
    return false

/-! ### Sessions (R58 to R61) -/

/-- A message fails step 3, 4 or 5 of R58: its status is kept and the failure recorded. -/
def uopRefuse (sess num seq status code sev : Nat) : M Unit := do
  let d ← get
  if 1 ≤ sess ∧ sess ≤ 64 then setO 0x1140 0xB (sess - 1) status
  let sup := match findLimit d.ev.limits code sess with | some x => x.suppressed | none => 0
  raiseLim 544 code sev sess sess num seq (if sup = 0 then 0 else 3)

/-- Step 3: the session is enabled, keyed, and bound to this source or to none (R58, R64). -/
def Dev.uopSession (d : Dev) (chan : Bool) (num k : Nat) : Bool :=
  d.oB 0x1140 1 k && d.o 0x1140 2 k != 0 &&
    (match d.o 0x1140 3 k with
     | 0 => true
     | 1 => !chan && d.o 0x1140 4 k == num
     | _ => chan && d.o 0x1140 4 k == num)

/-- Step 5: a sequence that may be accepted (R59). -/
def seqOk (h mask seq : Nat) : Bool :=
  h != 0xFFFFFFFF && seq != 0 && (decide (h < seq) || (decide (seq < h ∧ h ≤ seq + 63) && !bitOf mask (h - seq)))

/-- The request is accepted: H and the record of sequences; H is recorded every 4,096 accepted messages (R59, R61). -/
def Dev.uopAccept (d : Dev) (k seq : Nat) : Dev :=
  let x := d.sessOf k
  let h := d.o 0x1140 6 k
  let mask := if h < seq then (x.mask <<< (seq - h) + 1) % 2 ^ 64 else x.mask ||| 1 <<< (h - seq)
  let h := max h seq
  let n := x.sinceRec + 1
  let d := ((d.setO 0x1140 6 k h).addO 0x1140 8 k 1)
  let d := if n = 4096 ∧ x.core = 0 then d.storeAsk 1 else d
  d.setSess k { x with mask := mask, sinceRec := n % 4096, recH := if n = 4096 then h else x.recH }

/-- The tag of a message (R57). -/
def uopTag (key : Nat) (b : Bytes) : Bytes := kmac256 (toBytes 32 key) b "ULUASH-UOP" 16

/-! ### Frames of a port (R62) -/

/-- The UDP checksum of a frame whose UDP header begins at `u`, over `n` octets, holds (R62). `v6`: an IPv6 frame with its header at
`ip`. -/
def udpSumOk (b : Bytes) (v6 : Bool) (ip u n : Nat) : Bool :=
  let addrs := if v6 then slice b (ip + 8) 32 else slice b (ip + 12) 8
  let sum := beAt b (u + 6) 2
  (!v6 && sum == 0) || (sum != 0 && inetChecksum (addrs ++ toBytes 4 17 ++ toBytes 4 n ++ slice b u n) == 0)

/-- The frame that answers a frame taken for UOP (R62): its addresses and ports exchanged, its VLAN tags kept; fields of the IP header
that the spec does not give are free. `udp`: the request came over UDP. -/
def uopReply (udp : Bool) (b : Bytes) (o : Nat) (resp : Bytes) : M Bytes := do
  let l2 := slice b 6 6 ++ slice b 0 6 ++ slice b 12 (o - 12 + 2)
  let t := beAt b o 2
  let ip := o + 2
  let body ←
    if udp ∧ t ≠ 0x86DD then do
      let u := ip + byteAt b ip % 16 * 4
      let udp := slice b (u + 2) 2 ++ slice b u 2 ++ toBytes 2 (8 + resp.length)
      let addrs := slice b (ip + 16) 4 ++ slice b (ip + 12) 4
      let tos := (← fresh) % 256
      let id := (← fresh) % 65536
      let ttl := 1 + (← fresh) % 255
      let head := [0x45#8] ++ toBytes 1 tos ++ toBytes 2 (28 + resp.length) ++ toBytes 2 id ++ toBytes 2 0 ++ toBytes 1 ttl ++ [17#8]
      let h := head ++ toBytes 2 (inetChecksum (head ++ [0#8, 0#8] ++ addrs)) ++ addrs
      let ck := inetChecksum (addrs ++ toBytes 4 17 ++ toBytes 4 (8 + resp.length) ++ udp ++ resp)
      pure (h ++ udp ++ toBytes 2 (if ck = 0 then 0xFFFF else ck) ++ resp)
    else if udp then do
      let u := ip + 40
      let udp := slice b (u + 2) 2 ++ slice b u 2 ++ toBytes 2 (8 + resp.length)
      let addrs := slice b (ip + 24) 16 ++ slice b (ip + 8) 16
      let cls := (← fresh) % 2 ^ 28
      let hop := 1 + (← fresh) % 255
      let ck := inetChecksum (addrs ++ toBytes 4 17 ++ toBytes 4 (8 + resp.length) ++ udp ++ resp)
      pure (toBytes 4 (6 <<< 28 + cls) ++ toBytes 2 (8 + resp.length) ++ [17#8] ++ toBytes 1 hop ++ addrs ++ udp ++
        toBytes 2 (if ck = 0 then 0xFFFF else ck) ++ resp)
    else pure resp
  let f := fitTo (max 60 (l2.length + body.length)) (l2 ++ body)
  return f ++ fcsBytes f

/-! ### Data channels (R63) -/

/-- Octets after unescaping, or none if a 7Dh ends the frame (an abort). -/
def hdlcUnescape : Bytes → Option Bytes
  | [] => some []
  | 0x7D#8 :: [] => none
  | 0x7D#8 :: x :: r => (hdlcUnescape r).map (fun l => (x ^^^ 0x20#8) :: l)
  | x :: r => (hdlcUnescape r).map (fun l => x :: l)

/-- Octets escaped. -/
def hdlcEscape (b : Bytes) : Bytes := b.flatMap fun x => if x = 0x7E#8 ∨ x = 0x7D#8 then [0x7D#8, x ^^^ 0x20#8] else [x]

/-- A message in an HDLC frame. -/
def hdlcWrap (msg : Bytes) : Bytes :=
  let b := [0xFF#8, 0x03#8, 0x88#8, 0xB5#8] ++ msg
  [0x7E#8] ++ hdlcEscape (b ++ fcsBytes b) ++ [0x7E#8]

/-! ### The two pools of UOP (R311, R313) -/

/-- The octets of the frame that carries a message in pools 3 and 4: of a port, or of a data channel without flags and escapes. -/
def UopReq.size (q : UopReq) (msg frame : Bytes) : Nat := if q.chan then msg.length + 8 else frame.length

/-- A response takes pool 4 and leaves by the port or the channel of its request (R62, R63), or its core waits with it. -/
def uopPut (q : UopReq) (resp frame : Bytes) : M Unit := do
  poolDrain 4
  let n := poolUnits (q.size resp frame)
  if ← poolTakeOrStall 4 n then
    poolKeep 4 n
    emit (.uop q.chan.toNat q.num resp)
    if q.chan then
      modify fun d => { d with plumb.dccMgmt := mset (dK []) d.plumb.dccMgmt q.num (mget (dK []) d.plumb.dccMgmt q.num ++ hdlcWrap resp) }
    else emit (.frame q.num frame)
  else modify fun d => { d with yard.uopOut := some (q, resp, frame) }

/-- A response is sent in the frame that answers its request. -/
def uopSend (q : UopReq) (resp : Bytes) : M Unit := do
  let frame ← if q.chan then pure [] else uopReply q.exact_ q.frame (etherOfs q.frame) resp
  uopPut q resp frame

/-- The list of an accepted message has stopped: it waits for the flow table, or its response is sent, and kept for the request at H
unless the request wrote its own session's key (R57, R59, R60). -/
def uopEnd (q : UopReq) (key : Nat) (r : ListRun) : M Unit := do
  let msg := q.msg.take (28 + beAt q.msg 10 2)
  let sess := beAt msg 2 2
  let k := sess - 1
  let seq := beAt msg 4 4
  let d ← get
  if r.wait.isSome then
    set { d with lists := oset d.lists 2 (some
      { pl := 1, core := some (d.sessOf k).core, stop := bitOf (byteAt msg 1) 6, space := 1444, run := r, req := some q, key }) }
  else
    let flags := 128 + (if r.executed < beAt msg 8 2 then 32 else 0)
    let head := [1#8] ++ toBytes 1 flags ++ toBytes 2 sess ++ toBytes 4 seq ++ toBytes 2 r.executed ++ toBytes 2 r.results.length ++ r.results
    let resp := head ++ uopTag key head
    set (if d.o 0x1140 6 k = seq then d.setSess k { d.sessOf k with req := msg, resp := resp } else d)
    uopSend q resp

/-- Steps 2 to 5 of R58, and the operations. -/
def uopAnswer (q : UopReq) : M Unit := do
  let msg := q.msg
  let len := beAt msg 10 2
  let size := 28 + len
  if q.badSum ∨ byteAt msg 0 ≠ 1 ∨ bitOf (byteAt msg 1) 7 ∨ msg.length < 28 ∨ 1444 < len ∨ msg.length < size ∨
      (q.exact_ ∧ msg.length ≠ size) then
    uopDrop q.chan q.num
    return ()
  let msg := msg.take size
  let sess := beAt msg 2 2
  let seq := beAt msg 4 4
  if sess = 0 ∨ 64 < sess then
    incO 0x1180 1
    uopRefuse sess q.num seq 0x601 0x1101 2
    return ()
  let k := sess - 1
  let d ← get
  if !d.uopSession q.chan q.num k then
    uopRefuse sess q.num seq 0x601 0x1101 2
    return ()
  let key := d.o 0x1140 2 k
  if slice msg (12 + len) 16 ≠ uopTag key (msg.take (12 + len)) then
    incO 0x1140 9 k
    uopRefuse sess q.num seq 0x602 0x1102 2
    return ()
  let x := d.sessOf k
  let h := d.o 0x1140 6 k
  if seq = h ∧ h ≠ 0xFFFFFFFF ∧ x.req = msg ∧ !x.resp.isEmpty then
    uopSend q x.resp
    return ()
  if !seqOk h x.mask seq then
    incO 0x1140 0xA k
    uopRefuse sess q.num seq 0x603 0x1103 1
    return ()
  set (d.uopAccept k seq)
  storeDrive
  uopEnd q key (← runList 2 1 (some x.core) (bitOf (byteAt msg 1) 6) 1444 (beAt msg 8 2) (slice msg 12 len) {})

/-- A message leaves pool 3: a core answers it, or it is dropped and counted while none is in service (R454). -/
def uopServe (q : UopReq) : M Unit := do
  poolGive 3 (poolUnits (q.size q.msg q.frame))
  if !(← get).anyCore then incO 0x4302 3 3
  else uopAnswer q

/-- A response waits for pool 4, or a message for the flow table: the messages behind it wait in pool 3. -/
def Dev.uopBusy (d : Dev) : Bool := d.yard.uopOut.isSome || (oget d.lists 2).isSome

/-- Messages of pool 3 in turn, up to one whose response has to wait. -/
def uopServeAll : List UopReq → M Unit
  | [] => modify fun d => { d with yard.uopIn := [] }
  | q :: rest => do
    if (← get).uopBusy then modify fun d => { d with yard.uopIn := q :: rest }
    else
      uopServe q
      uopServeAll rest

/-- A message is delivered by a transport: step 1 of R58, then pool 3. -/
def uopTake (q : UopReq) : M Unit := do
  if !(← get).anyCore then incO 0x4302 3 3
  else if ← uopRate q.chan q.num then
    if ← poolTakeOrDrop 3 (poolUnits (q.size q.msg q.frame)) then
      uopServeAll ((← get).yard.uopIn ++ [q])

/-- Pool 4 lets its producers go on: the waiting response is sent, then the messages that wait in pool 3 are answered. -/
def uopResume : M Unit := do
  let d ← get
  match d.yard.uopOut with
  | some (q, resp, frame) =>
    if oget d.yard.poolStall 4 = none then
      set { d with yard.uopOut := none }
      if d.anyCore then uopPut q resp frame
      uopServeAll (← get).yard.uopIn
  | none => return ()

/-- The UOP message that waited for the flow table goes on once its operation is complete. -/
def uopGo : M Unit := do
  let d ← get
  match oget d.lists 2 with
  | none => return ()
  | some w =>
    match w.res, w.req with
    | some (st, v), some q =>
      set { d with lists := oset d.lists 2 none }
      if d.anyCore then uopEnd q w.key (← w.go 2 st v)
      uopServeAll (← get).yard.uopIn
    | _, _ => return ()

/-! ### Deliveries -/

/-- A good frame of port `p` that is taken for UOP (log entries 123, 124). -/
def uopFrame (p : Nat) (b : Bytes) : M Unit := do
  let d ← get
  let n := b.length
  if !d.receives p ∨ n < 64 ∨ fcsBytes (b.take (n - 4)) ≠ b.drop (n - 4) then return ()
  match d.uopSpan p b with
  | none => return ()
  | some (s, len) =>
    let o := etherOfs b
    let t := beAt b o 2
    let udp : Bool := t != d.o 0x1100 2 || beAt b 0 6 != d.o 0x1100 3
    let badSum : Bool := udp && !udpSumOk b (t == 0x86DD) (o + 2) (s - 8) (len + 8)
    uopTake { chan := false, num := p, exact_ := udp, badSum := badSum, msg := slice b s len, frame := b }

/-- A message of data channel `c`. -/
def uopChannel (c : Nat) (msg : Bytes) : M Unit :=
  uopTake { chan := true, num := c, exact_ := true, badSum := false, msg := msg, frame := [] }

/-- HDLC_FRAME (R63): the octets between two flags of data channel `c`, which ends in the management plane (R134). -/
def hdlcFrame (c : Nat) (octets : Bytes) : M Unit := do
  if (← getO 0x2870 1 c) ≠ 1 ∨ octets.isEmpty then return ()
  match hdlcUnescape octets with
  | none => uopDrop true c
  | some b =>
    let n := b.length
    if n < 8 ∨ 1480 < n ∨ slice b 0 4 ≠ [0xFF#8, 0x03#8, 0x88#8, 0xB5#8] ∨ fcsBytes (b.take (n - 4)) ≠ b.drop (n - 4) then uopDrop true c
    else uopChannel c (slice b 4 (n - 8))

/-- UOP_REQUEST (R58, R62): a frame of a port, or a message of a data channel. -/
def uopRequest (chan : Bool) (num : Nat) (data : Bytes) : M Unit :=
  if !chan then uopFrame num data
  else do
    if (← getO 0x2870 1 num) = 1 then uopChannel num data

end Sys2Proof.Machine
end

