-- ==== Sys2Proof/Machine/Commands.lean ====
section
/-! DEFINITION. The commands that are operations of the dictionary: reads and writes through object windows, table operations through
table windows, batches, UOP, and the writes that have a row of their own (each is a write of its object through window `w`). -/

namespace Sys2Proof.Machine

/-! ### The dictionary (02) -/

/-- READ (R33). -/
def execRead (t : Target) (s : State) := run (.read t) (readTarget t) s

/-- WRITE (R33). -/
def execWrite (t : Target) (data : Bytes) (s : State) := run (.write t data) (writeTarget t data) s

/-- READ_SHADOW (R35). -/
def execReadShadow (w key : Nat) (s : State) := run (.readShadow w key) (winReadShadow w key) s

/-- COMMIT (R36): 1020h.01 written with 1. -/
def execCommit (w : Nat) (s : State) := run (.commit w) (winPut w 0x1020 1 0 1 1) s

/-- DISCARD (R37): 1020h.01 written with 2. -/
def execDiscard (w : Nat) (s : State) := run (.discard w) (winPut w 0x1020 1 0 1 2) s

/-- PEGGED_WRITE (R41). -/
def execPeggedWrite (w key : Nat) (data : Bytes) (fail : List Nat) (s : State) :=
  run (.peggedWrite w key data fail) (winWriteFail w key data fail) s

/-- BANK_BREAK (R38): a write of 1020h.06. -/
def execBankBreak (w a : Nat) (s : State) := run (.bankBreak w a) (winPut w 0x1020 6 0 1 a) s

/-- TBL_FIND (R53). -/
def execTblFind (k ix sub : Nat) (shadow : Bool) (entry : Bytes) (s : State) :=
  run (.tblFind k ix sub shadow entry) (tblCommand k ix sub 1 shadow 0 entry) s

/-- TBL_INSERT (R53). -/
def execTblInsert (k ix sub : Nat) (shadow : Bool) (addr : Nat) (entry : Bytes) (s : State) :=
  run (.tblInsert k ix sub shadow addr entry) (tblCommand k ix sub 2 shadow addr entry) s

/-- TBL_DELETE (R53). -/
def execTblDelete (k ix sub : Nat) (shadow : Bool) (addr : Nat) (entry : Bytes) (s : State) :=
  run (.tblDelete k ix sub shadow addr entry) (tblCommand k ix sub 3 shadow addr entry) s

/-- TBL_NEXT (R53). -/
def execTblNext (k ix sub : Nat) (shadow : Bool) (cursor : Nat) (s : State) :=
  run (.tblNext k ix sub shadow cursor) (tblCommand k ix sub 4 shadow cursor []) s

/-- TBL_UPDATE (R53). -/
def execTblUpdate (k ix sub : Nat) (shadow : Bool) (addr : Nat) (entry : Bytes) (s : State) :=
  run (.tblUpdate k ix sub shadow addr entry) (tblCommand k ix sub 5 shadow addr entry) s

/-- WINDOW_WRITE_IGNORED (R48, R55): a write while BUSY. -/
def execWindowWriteIgnored (table : Bool) (w : Nat) (s : State) :=
  run (.windowWriteIgnored table w) (if table then twDrop w else incO 0x5410 1 w) s

/-- Lists whose operation on the flow table is complete go on (R239). -/
def listsGo : M Unit := do
  batchGo 0
  batchGo 1
  uopGo

/-- TABLE_OP_SUBMIT_TIMEOUT (R267). -/
def execTableOpSubmitTimeout (k : Nat) (s : State) :=
  run (.tableOpSubmitTimeout k) (do
    tblTimeout k
    listsGo) s

/-- BATCH_ENABLE (R50). -/
def execBatchEnable (f : Nat) (ie : Bool) (s : State) := run (.batchEnable f ie) (batchEnable f ie) s

/-- BATCH_ERROR_CLEAR (R50). -/
def execBatchErrorClear (f : Nat) (s : State) := run (.batchErrorClear f) (batchClear f) s

/-- BATCH_DESCRIPTOR (R51, R52). -/
def execBatchDescriptor (f : Nat) (desc ops : Bytes) (readErr : Nat) (writeErr : Bool) (s : State) :=
  run (.batchDescriptor f desc ops readErr writeErr) (batchRun f desc ops readErr writeErr) s

/-- UOP_REQUEST (R58, R62). -/
def execUopRequest (chan : Bool) (num : Nat) (data : Bytes) (s : State) := run (.uopRequest chan num data) (uopRequest chan num data) s

/-- HDLC_FRAME (R63). -/
def execHdlcFrame (c : Nat) (octets : Bytes) (s : State) := run (.hdlcFrame c octets) (hdlcFrame c octets) s

/-- SESSION_KEY_WRITE (R59): a write of 1140h.02. -/
def execSessionKeyWrite (w k : Nat) (key : Bytes) (s : State) := run (.sessionKeyWrite w k key) (winWrite w (okey 0x1140 2 k) key) s

/-! ### Lanes, ports, time, transport (03 to 06) -/

/-- ERR_INJECT (R78): a write of 2040h.06. -/
def execErrInject (w l n : Nat) (s : State) := run (.errInject w l n) (winPut w 0x2040 6 l 2 n) s

/-- PORT_ADMIN (R81): a write of 2400h.02. -/
def execPortAdmin (w p : Nat) (on : Bool) (s : State) := run (.portAdmin w p on) (winPut w 0x2400 2 p 1 on.toNat) s

/-- DAMP_DISABLE (R84): 2410h.03 written false. -/
def execDampDisable (w p : Nat) (s : State) := run (.dampDisable w p) (winPut w 0x2410 3 p 1 0) s

/-- OFFSET_IN (R95): a write of 1820h.02. -/
def execOffsetIn (w o : Nat) (s : State) := run (.offsetIn w o) (winPut w 0x1820 2 0 8 o) s

/-- SERVO_MODE_WRITE (R94): a write of 1820h.01. -/
def execServoModeWrite (w mode : Nat) (s : State) := run (.servoModeWrite w mode) (winPut w 0x1820 1 0 1 mode) s

/-- STEP_DELTA (R98): a write of 1801h.01. -/
def execStepDelta (w d : Nat) (s : State) := run (.stepDelta w d) (winPut w 0x1801 1 0 8 d) s

/-- STEP_SET (R98): a write of 1801h.02. -/
def execStepSet (w t : Nat) (s : State) := run (.stepSet w t) (winPut w 0x1801 2 0 10 t) s

/-- RX_MAP_WRITE (R124): a write of 2820h. -/
def execRxMapWrite (w sub e v : Nat) (s : State) :=
  run (.rxMapWrite w sub e v) (winPut w 0x2820 sub e (if sub % 2 = 1 then 1 else 2) v) s

/-- PG_CLEAR (R156): 28C1h.01 written with 0. -/
def execPgClear (w g : Nat) (s : State) := run (.pgClear w g) (winPut w 0x28C1 1 g 1 0) s

/-- PG_LOCKOUT (R156). -/
def execPgLockout (w g : Nat) (s : State) := run (.pgLockout w g) (winPut w 0x28C1 1 g 1 1) s

/-- PG_FORCED_SWITCH (R156). -/
def execPgForcedSwitch (w g : Nat) (s : State) := run (.pgForcedSwitch w g) (winPut w 0x28C1 1 g 1 2) s

/-- PG_MANUAL_PROTECT (R156). -/
def execPgManualProtect (w g : Nat) (s : State) := run (.pgManualProtect w g) (winPut w 0x28C1 1 g 1 3) s

/-- PG_MANUAL_WORKING (R156). -/
def execPgManualWorking (w g : Nat) (s : State) := run (.pgManualWorking w g) (winPut w 0x28C1 1 g 1 4) s

/-! ### Forwarding, Joinery, Yard, scheduling, DRAM (08 to 13) -/

/-- LPM_READY_WRITE (R190): a write of 3441h.02. -/
def execLpmReadyWrite (w : Nat) (on : Bool) (s : State) := run (.lpmReadyWrite w on) (winPut w 0x3441 2 0 1 on.toNat) s

/-- DBG_HALT (R277): 8400h.01 written true. -/
def execDbgHalt (w n t : Nat) (s : State) := run (.dbgHalt w n t) (winPut w 0x8400 1 (n * 16 + t) 1 1) s

/-- DBG_RESUME (R277): 8400h.01 written false. -/
def execDbgResume (w n t : Nat) (s : State) := run (.dbgResume w n t) (winPut w 0x8400 1 (n * 16 + t) 1 0) s

/-- DBG_REG_WRITE (R277): a write of 8400h.04. -/
def execDbgRegWrite (w n t r v : Nat) (s : State) := run (.dbgRegWrite w n t r v) (winPut w 0x8400 4 ((n * 16 + t) * 32 + r) 8 v) s

/-- DBG_ABANDON (R278): 8400h.02 written with 1. -/
def execDbgAbandon (w n t : Nat) (s : State) := run (.dbgAbandon w n t) (winPut w 0x8400 2 (n * 16 + t) 1 1) s

/-- DBG_ABORT (R278): 8400h.03 written with 1. -/
def execDbgAbort (w n t : Nat) (s : State) := run (.dbgAbort w n t) (winPut w 0x8400 3 (n * 16 + t) 1 1) s

/-- FLUSH_QUEUE (R305): 4060h.01 written with 1. -/
def execFlushQueue (w q : Nat) (s : State) := run (.flushQueue w q) (winPut w 0x4060 1 q 1 1) s

/-- FLUSH_BOUNDED (R305): 4060h.02 written with 1. -/
def execFlushBounded (w p : Nat) (s : State) := run (.flushBounded w p) (winPut w 0x4060 2 p 1 1) s

/-- POLICER_WRITE (R333): a write of 4440h.01 to 4440h.04. -/
def execPolicerWrite (w sub i v : Nat) (s : State) := run (.policerWrite w sub i v) (winPut w 0x4440 sub i 4 v) s

/-- CH_RETIRE (R354): 5001h.04 written with 1. -/
def execChRetire (w n : Nat) (s : State) := run (.chRetire w n) (winPut w 0x5001 4 n 1 1) s

/-! ### Monitors, events, the Ledger (15, 16) -/

/-- GROUP_COMPOSE_WRITE (R379): a write of 6001h.01. -/
def execGroupComposeWrite (w i key : Nat) (s : State) := run (.groupComposeWrite w i key) (winPut w 0x6001 1 i 8 key) s

/-- SNAP_NOW (R382): a write of 6002h.01. -/
def execSnapNow (w g : Nat) (s : State) := run (.snapNow w g) (winPut w 0x6002 1 0 2 g) s

/-- MON_CONFIG_WRITE (R384): a write of 6030h.01 or 6030h.02. -/
def execMonConfigWrite (w sub m v : Nat) (s : State) :=
  run (.monConfigWrite w sub m v) (winPut w 0x6030 sub m (if sub = 1 then 1 else 4) v) s

/-- TRACE_CLEAR (R388): 6041h.06 written with 1. -/
def execTraceClear (w : Nat) (s : State) := run (.traceClear w) (winPut w 0x6041 6 0 1 1) s

/-- SAMPLE_CLEAR (R389): 6051h.05 written with 1. -/
def execSampleClear (w k : Nat) (s : State) := run (.sampleClear w k) (winPut w 0x6051 5 k 1 1) s

/-- LEDGER_READ (R412): a read of the window's own plane's 6420h.02. -/
def execLedgerRead (w : Nat) (bad : List Nat) (s : State) := run (.ledgerRead w bad) (do modify (·.rot bad); winRead w (okey 0x6420 2 (w / 4))) s

/-- LEDGER_CLEAR (R413): a write of 6420h.04. -/
def execLedgerClear (w v : Nat) (s : State) := run (.ledgerClear w v) (winPut w 0x6420 4 0 1 v) s

/-- SRC_LATCH_CLEAR (R405): a write of 6400h.03. -/
def execSrcLatchClear (w i v : Nat) (s : State) := run (.srcLatchClear w i v) (winPut w 0x6400 3 i 1 v) s

/-! ### Security, start-up (17, 18) -/

/-- UPD_CHUNK (R429): a write of 1420h.03. -/
def execUpdChunk (w k : Nat) (data : Bytes) (s : State) := run (.updChunk w k data) (winWrite w (okey 0x1420 3 k) data) s

/-- UPD_VERIFY (R429): 1420h.05 written with 1. -/
def execUpdVerify (w : Nat) (s : State) := run (.updVerify w) (winPut w 0x1420 5 0 1 1) s

/-- UPD_ACTIVATE (R430): 1420h.05 written with 2. -/
def execUpdActivate (w : Nat) (s : State) := run (.updActivate w) (winPut w 0x1420 5 0 1 2) s

/-- UPD_CONFIRM (R431): 1420h.05 written with 3; `fail`: fuses that stay unblown. -/
def execUpdConfirm (w : Nat) (fail : List Nat) (s : State) :=
  run (.updConfirm w fail) (winWriteFail w (okey 0x1420 5 0) (toBytes 1 3) fail) s

/-- UPD_ABORT (R429): 1420h.05 written with 4. -/
def execUpdAbort (w : Nat) (s : State) := run (.updAbort w) (winPut w 0x1420 5 0 1 4) s

/-- CORE_RESTART_CMD (R433): 1460h.04 written with 1. -/
def execCoreRestartCmd (w c : Nat) (s : State) := run (.coreRestartCmd w c) (winPut w 0x1460 4 c 1 1) s

/-- ZEROIZE (R437): 1430h.03 written with 1. -/
def execZeroize (w : Nat) (s : State) := run (.zeroize w) (winPut w 0x1430 3 0 1 1) s

/-- KEY_LOCK (R437): 1430h.02 written true. -/
def execKeyLock (w : Nat) (s : State) := run (.keyLock w) (winPut w 0x1430 2 0 1 1) s

/-- USER_EXTEND (R439): a write of 1450h.02. -/
def execUserExtend (w : Nat) (data : Bytes) (s : State) := run (.userExtend w data) (winWrite w (okey 0x1450 2 0) data) s

/-- ATT_REQUEST (R440): a write of 1450h.03. -/
def execAttRequest (w pl : Nat) (nonce : Bytes) (s : State) := run (.attRequest w pl nonce) (winWrite w (okey 0x1450 3 pl) nonce) s

/-- DBG_SUBMIT (R441): 8000h.03 written with 1. -/
def execDbgSubmit (w pl : Nat) (s : State) := run (.dbgSubmit w pl) (winPut w 0x8000 3 pl 1 1) s

/-- DBG_LOCK (R442): 8000h.03 written with 2. -/
def execDbgLock (w pl : Nat) (s : State) := run (.dbgLock w pl) (winPut w 0x8000 3 pl 1 2) s

/-- WARM_RESTART_CMD (R444): 7000h.01 written with 1. -/
def execWarmRestartCmd (w : Nat) (s : State) := run (.warmRestartCmd w) (winPut w 0x7000 1 0 1 1) s

/-- DP_RESET_CMD (R444): 7000h.01 written with 2. -/
def execDpResetCmd (w : Nat) (s : State) := run (.dpResetCmd w) (winPut w 0x7000 1 0 1 2) s

/-- DEVICE_RESET_CMD (R444): 7000h.01 written with 3. -/
def execDeviceResetCmd (w : Nat) (s : State) := run (.deviceResetCmd w) (winPut w 0x7000 1 0 1 3) s

/-! ### Waiting pools (11) -/

/-- POOL_PRODUCER_RESUME (R313): the producers of a waiting pool go on. -/
def poolGo (i : Nat) : M Unit := do
  poolResume i
  if i = 4 then uopResume
  if i % 8 = 5 then submitWaiting (i / 8)
  if i % 8 = 6 then linkDrive (i / 8)
  if i = 6 then storeDrive

/-- POOL_PRODUCER_RESUME (R313). -/
def execPoolProducerResume (k : Nat) (s : State) := run (.poolProducerResume k) (poolGo k) s

/-! ### Threads (10): a task may be complete, and a list that waited for it goes on -/

/-- MICROWORD_ISSUE (R245, R256): the cycle of slot-table entry `entry` on core `n`, in which it issues from thread `t`; `late`: the
core's threads whose last microword has not completed. It is no issue of the core's while R256 picks another thread. -/
def execMicrowordIssue (n t err entry : Nat) (late : List Nat) (s : State) :=
  run (.microwordIssue n t err entry late) (do
    issueCycle n t err entry late
    listsGo) s

/-- WAIT_END (R252). -/
def execWaitEnd (n t : Nat) (s : State) :=
  run (.waitEnd n t) (do
    waitEnd (n * 16 + t)
    listsGo) s

/-- DOVETAIL_RELEASE (R266). -/
def execDovetailRelease (k d : Nat) (s : State) :=
  run (.dovetailRelease k d) (do
    dovetailRelease k d
    listsGo) s

/-- SPAWN_TIMEOUT (R267). -/
def execSpawnTimeout (n t : Nat) (s : State) :=
  run (.spawnTimeout n t) (do
    spawnTimeout (n * 16 + t)
    listsGo) s

/-- DEADLOCK_DETECT (R274). -/
def execDeadlockDetect (n : Nat) (s : State) :=
  run (.deadlockDetect n) (do
    deadlockDetect n
    listsGo) s

/-- CLAMP_WAIT_LIMIT (R275). -/
def execClampWaitLimit (n t : Nat) (s : State) :=
  run (.clampWaitLimit n t) (do
    clampWaitLimit (n * 16 + t)
    listsGo) s

end Sys2Proof.Machine
end

