-- ==== Sys2Proof/Machine/Dispatch.lean ====
section
/-! DEFINITION. One arm per command: a direct call of its meaning. -/

namespace Sys2Proof.Machine

def exec (i : Instr) (s : State) : Host.Outcome State Fault Refusal :=
  match i with
  | .read t => Sys2Proof.Machine.execRead t s
  | .write t data => Sys2Proof.Machine.execWrite t data s
  | .readShadow w key => Sys2Proof.Machine.execReadShadow w key s
  | .commit w => Sys2Proof.Machine.execCommit w s
  | .discard w => Sys2Proof.Machine.execDiscard w s
  | .peggedWrite w key data fail => Sys2Proof.Machine.execPeggedWrite w key data fail s
  | .areaSwap a part => Sys2Proof.Machine.execAreaSwap a part s
  | .shadowCopyStart a => Sys2Proof.Machine.execShadowCopyStart a s
  | .shadowCopyDone a => Sys2Proof.Machine.execShadowCopyDone a s
  | .bankBreak w a => Sys2Proof.Machine.execBankBreak w a s
  | .pegScrubPass bad => Sys2Proof.Machine.execPegScrubPass bad s
  | .tblFind k ix sub shadow entry => Sys2Proof.Machine.execTblFind k ix sub shadow entry s
  | .tblInsert k ix sub shadow addr entry => Sys2Proof.Machine.execTblInsert k ix sub shadow addr entry s
  | .tblDelete k ix sub shadow addr entry => Sys2Proof.Machine.execTblDelete k ix sub shadow addr entry s
  | .tblUpdate k ix sub shadow addr entry => Sys2Proof.Machine.execTblUpdate k ix sub shadow addr entry s
  | .tblNext k ix sub shadow cursor => Sys2Proof.Machine.execTblNext k ix sub shadow cursor s
  | .windowWriteIgnored table w => Sys2Proof.Machine.execWindowWriteIgnored table w s
  | .batchEnable f ie => Sys2Proof.Machine.execBatchEnable f ie s
  | .batchErrorClear f => Sys2Proof.Machine.execBatchErrorClear f s
  | .batchDescriptor f desc ops readErr writeErr => Sys2Proof.Machine.execBatchDescriptor f desc ops readErr writeErr s
  | .uopRequest chan num data => Sys2Proof.Machine.execUopRequest chan num data s
  | .hdlcFrame c octets => Sys2Proof.Machine.execHdlcFrame c octets s
  | .sessionKeyWrite w k key => Sys2Proof.Machine.execSessionKeyWrite w k key s
  | .crossingStall j src => Sys2Proof.Machine.execCrossingStall j src s
  | .islandRecover j => Sys2Proof.Machine.execIslandRecover j s
  | .reconfigureDone p => Sys2Proof.Machine.execReconfigureDone p s
  | .laneSignalDetect l => Sys2Proof.Machine.execLaneSignalDetect l s
  | .laneAdaptDone l ctle dfe snr => Sys2Proof.Machine.execLaneAdaptDone l ctle dfe snr s
  | .losDeclare l => Sys2Proof.Machine.execLosDeclare l s
  | .losClear l => Sys2Proof.Machine.execLosClear l s
  | .cdrLockChange l locked => Sys2Proof.Machine.execCdrLockChange l locked s
  | .fecLockChange p locked => Sys2Proof.Machine.execFecLockChange p locked s
  | .deskewFault p on => Sys2Proof.Machine.execDeskewFault p on s
  | .remoteFaultRx p on => Sys2Proof.Machine.execRemoteFaultRx p on s
  | .localFaultRx p on => Sys2Proof.Machine.execLocalFaultRx p on s
  | .rxPpmMeasure p ofs => Sys2Proof.Machine.execRxPpmMeasure p ofs s
  | .errInject w l n => Sys2Proof.Machine.execErrInject w l n s
  | .chkLockLoss l => Sys2Proof.Machine.execChkLockLoss l s
  | .portAdmin w p on => Sys2Proof.Machine.execPortAdmin w p on s
  | .upHoldExpiry p => Sys2Proof.Machine.execUpHoldExpiry p s
  | .downHoldoffExpiry p => Sys2Proof.Machine.execDownHoldoffExpiry p s
  | .dampTick p => Sys2Proof.Machine.execDampTick p s
  | .dampDisable w p => Sys2Proof.Machine.execDampDisable w p s
  | .frameReceive p id data fecBad idle frags frag => Sys2Proof.Machine.execFrameReceive p id data fecBad idle frags frag s
  | .refFail r cause => Sys2Proof.Machine.execRefFail r cause s
  | .refGood r => Sys2Proof.Machine.execRefGood r s
  | .refRevertExpiry => Sys2Proof.Machine.execRefRevertExpiry s
  | .offsetIn w o => Sys2Proof.Machine.execOffsetIn w o s
  | .feedTimeout => Sys2Proof.Machine.execFeedTimeout s
  | .servoModeWrite w mode => Sys2Proof.Machine.execServoModeWrite w mode s
  | .stepDelta w d => Sys2Proof.Machine.execStepDelta w d s
  | .stepSet w t => Sys2Proof.Machine.execStepSet w t s
  | .stepApply => Sys2Proof.Machine.execStepApply s
  | .tsReflDeliver p => Sys2Proof.Machine.execTsReflDeliver p s
  | .ppsOutEdge rise => Sys2Proof.Machine.execPpsOutEdge rise s
  | .ppsInAbsent => Sys2Proof.Machine.execPpsInAbsent s
  | .plumbFrameRx p blocks => Sys2Proof.Machine.execPlumbFrameRx p blocks s
  | .plumbFrameTx p => Sys2Proof.Machine.execPlumbFrameTx p s
  | .cmPageSwap p => Sys2Proof.Machine.execCmPageSwap p s
  | .rxMapWrite w sub e v => Sys2Proof.Machine.execRxMapWrite w sub e v s
  | .pcFrameRx e data fecBad => Sys2Proof.Machine.execPcFrameRx e data fecBad s
  | .ohpFrame n rx => Sys2Proof.Machine.execOhpFrame n rx s
  | .berWindowEnd trib id => Sys2Proof.Machine.execBerWindowEnd trib id s
  | .pmSecond trib id => Sys2Proof.Machine.execPmSecond trib id s
  | .pmBinClose trib id day => Sys2Proof.Machine.execPmBinClose trib id day s
  | .pgHoldoffExpiry g prot => Sys2Proof.Machine.execPgHoldoffExpiry g prot s
  | .pgWtrExpiry g => Sys2Proof.Machine.execPgWtrExpiry g s
  | .apsFopTimer g => Sys2Proof.Machine.execApsFopTimer g s
  | .pgClear w g => Sys2Proof.Machine.execPgClear w g s
  | .pgLockout w g => Sys2Proof.Machine.execPgLockout w g s
  | .pgForcedSwitch w g => Sys2Proof.Machine.execPgForcedSwitch w g s
  | .pgManualProtect w g => Sys2Proof.Machine.execPgManualProtect w g s
  | .pgManualWorking w g => Sys2Proof.Machine.execPgManualWorking w g s
  | .inputRawChange j level => Sys2Proof.Machine.execInputRawChange j level s
  | .inputDwellExpiry j => Sys2Proof.Machine.execInputDwellExpiry j s
  | .inputChatterRelease j => Sys2Proof.Machine.execInputChatterRelease j s
  | .inputStuck j => Sys2Proof.Machine.execInputStuck j s
  | .inputStuckRelease j => Sys2Proof.Machine.execInputStuckRelease j s
  | .fifoEntry p data idle => Sys2Proof.Machine.execFifoEntry p data idle s
  | .framePipeline id bad => Sys2Proof.Machine.execFramePipeline id bad s
  | .prismScrubPass b bad => Sys2Proof.Machine.execPrismScrubPass b bad s
  | .bayTableApply b => Sys2Proof.Machine.execBayTableApply b s
  | .bayCopyRepair b kind addr => Sys2Proof.Machine.execBayCopyRepair b kind addr s
  | .lpmReadyWrite w on => Sys2Proof.Machine.execLpmReadyWrite w on s
  | .trieRebuildDone b => Sys2Proof.Machine.execTrieRebuildDone b s
  | .learnRequest => Sys2Proof.Machine.execLearnRequest s
  | .moveRequest => Sys2Proof.Machine.execMoveRequest s
  | .moveSecondEnd => Sys2Proof.Machine.execMoveSecondEnd s
  | .freezeExpiry addr => Sys2Proof.Machine.execFreezeExpiry addr s
  | .learnAgingPass => Sys2Proof.Machine.execLearnAgingPass s
  | .flowLookup id bad => Sys2Proof.Machine.execFlowLookup id bad s
  | .flowFetchDone k wait bad => Sys2Proof.Machine.execFlowFetchDone k wait bad s
  | .parkTimeout id => Sys2Proof.Machine.execParkTimeout id s
  | .flowCommit id => Sys2Proof.Machine.execFlowCommit id s
  | .flowSample id => Sys2Proof.Machine.execFlowSample id s
  | .flowAgingPass k => Sys2Proof.Machine.execFlowAgingPass k s
  | .poolScanDone n => Sys2Proof.Machine.execPoolScanDone n s
  | .taskDispatch k => Sys2Proof.Machine.execTaskDispatch k s
  | .microwordIssue n t err entry late => Sys2Proof.Machine.execMicrowordIssue n t err entry late s
  | .waitEnd n t => Sys2Proof.Machine.execWaitEnd n t s
  | .dovetailRelease k d => Sys2Proof.Machine.execDovetailRelease k d s
  | .preemptPost k => Sys2Proof.Machine.execPreemptPost k s
  | .taskRetryReady k => Sys2Proof.Machine.execTaskRetryReady k s
  | .spawnTimeout n t => Sys2Proof.Machine.execSpawnTimeout n t s
  | .deadlockDetect n => Sys2Proof.Machine.execDeadlockDetect n s
  | .clampWaitLimit n t => Sys2Proof.Machine.execClampWaitLimit n t s
  | .dbgHalt w n t => Sys2Proof.Machine.execDbgHalt w n t s
  | .dbgResume w n t => Sys2Proof.Machine.execDbgResume w n t s
  | .dbgRegWrite w n t r v => Sys2Proof.Machine.execDbgRegWrite w n t r v s
  | .dbgAbandon w n t => Sys2Proof.Machine.execDbgAbandon w n t s
  | .dbgAbort w n t => Sys2Proof.Machine.execDbgAbort w n t s
  | .frameAdmit id => Sys2Proof.Machine.execFrameAdmit id s
  | .residueExpiry q => Sys2Proof.Machine.execResidueExpiry q s
  | .flushQueue w q => Sys2Proof.Machine.execFlushQueue w q s
  | .flushBounded w p => Sys2Proof.Machine.execFlushBounded w p s
  | .cellRemap cell => Sys2Proof.Machine.execCellRemap cell s
  | .poolProducerResume k => Sys2Proof.Machine.execPoolProducerResume k s
  | .transmitOpportunity p e err cell gran => Sys2Proof.Machine.execTransmitOpportunity p e err cell gran s
  | .frameTxEnd p e => Sys2Proof.Machine.execFrameTxEnd p e s
  | .gateEvent p => Sys2Proof.Machine.execGateEvent p s
  | .gateChangeSwap p => Sys2Proof.Machine.execGateChangeSwap p s
  | .verifyAttempt p => Sys2Proof.Machine.execVerifyAttempt p s
  | .verifyResponse p => Sys2Proof.Machine.execVerifyResponse p s
  | .verifyTimeout p => Sys2Proof.Machine.execVerifyTimeout p s
  | .policerWrite w sub j v => Sys2Proof.Machine.execPolicerWrite w sub j v s
  | .pauseRx p data idle => Sys2Proof.Machine.execPauseRx p data idle s
  | .pauseExpiry p c => Sys2Proof.Machine.execPauseExpiry p c s
  | .fcEval p c => Sys2Proof.Machine.execFcEval p c s
  | .pfcRepeat p => Sys2Proof.Machine.execPfcRepeat p s
  | .fcWatchdogTrip p c => Sys2Proof.Machine.execFcWatchdogTrip p c s
  | .fcWatchdogEnd p c => Sys2Proof.Machine.execFcWatchdogEnd p c s
  | .dramRequest n lat err => Sys2Proof.Machine.execDramRequest n lat err s
  | .refreshTick n bank => Sys2Proof.Machine.execRefreshTick n bank s
  | .dramTempRead n temp => Sys2Proof.Machine.execDramTempRead n temp s
  | .driftTrack n lane rd wr rw ww => Sys2Proof.Machine.execDriftTrack n lane rd wr rw ww s
  | .scrubBurst n burst err => Sys2Proof.Machine.execScrubBurst n burst err s
  | .chRetire w n => Sys2Proof.Machine.execChRetire w n s
  | .segmentFillDone k seg => Sys2Proof.Machine.execSegmentFillDone k seg s
  | .ringConfigWrite r reg v => Sys2Proof.Machine.execRingConfigWrite r reg v s
  | .ringEnable r ie => Sys2Proof.Machine.execRingEnable r ie s
  | .ringDisable r => Sys2Proof.Machine.execRingDisable r s
  | .ringInterruptEnable r on => Sys2Proof.Machine.execRingInterruptEnable r on s
  | .ringErrorClear r => Sys2Proof.Machine.execRingErrorClear r s
  | .ringTailPoll r err => Sys2Proof.Machine.execRingTailPoll r err s
  | .puntDeliver r desc => Sys2Proof.Machine.execPuntDeliver r desc s
  | .injectTake r desc data err => Sys2Proof.Machine.execInjectTake r desc data err s
  | .injectFifoEnter r => Sys2Proof.Machine.execInjectFifoEnter r s
  | .ledgerRecord => Sys2Proof.Machine.execLedgerRecord s
  | .msixHoldoffExpiry j => Sys2Proof.Machine.execMsixHoldoffExpiry j s
  | .pcieError f kind aer => Sys2Proof.Machine.execPcieError f kind aer s
  | .barUnmappedAccess => Sys2Proof.Machine.execBarUnmappedAccess s
  | .linkRetrain rate width => Sys2Proof.Machine.execLinkRetrain rate width s
  | .hostAttach ready => Sys2Proof.Machine.execHostAttach ready s
  | .hostDetach => Sys2Proof.Machine.execHostDetach s
  | .hostHeartbeat => Sys2Proof.Machine.execHostHeartbeat s
  | .hostWdogExpiry => Sys2Proof.Machine.execHostWdogExpiry s
  | .pcieLinkDown => Sys2Proof.Machine.execPcieLinkDown s
  | .functionLevelReset f => Sys2Proof.Machine.execFunctionLevelReset f s
  | .busMasterDisable => Sys2Proof.Machine.execBusMasterDisable s
  | .d3hotEntry => Sys2Proof.Machine.execD3hotEntry s
  | .perstAssert => Sys2Proof.Machine.execPerstAssert s
  | .perstRelease rate width => Sys2Proof.Machine.execPerstRelease rate width s
  | .groupComposeWrite w j key => Sys2Proof.Machine.execGroupComposeWrite w j key s
  | .snapNow w g => Sys2Proof.Machine.execSnapNow w g s
  | .snapInstant => Sys2Proof.Machine.execSnapInstant s
  | .snapSwap => Sys2Proof.Machine.execSnapSwap s
  | .bwWindowEnd p tx => Sys2Proof.Machine.execBwWindowEnd p tx s
  | .monConfigWrite w sub m v => Sys2Proof.Machine.execMonConfigWrite w sub m v s
  | .monSample m v => Sys2Proof.Machine.execMonSample m v s
  | .monIntervalEnd m => Sys2Proof.Machine.execMonIntervalEnd m s
  | .traceClear w => Sys2Proof.Machine.execTraceClear w s
  | .uwordSample n t => Sys2Proof.Machine.execUwordSample n t s
  | .sampleClear w k => Sys2Proof.Machine.execSampleClear w k s
  | .exportFlushExpiry k => Sys2Proof.Machine.execExportFlushExpiry k s
  | .exportTemplateSend => Sys2Proof.Machine.execExportTemplateSend s
  | .limiterSecond => Sys2Proof.Machine.execLimiterSecond s
  | .ledgerDiscardSummary => Sys2Proof.Machine.execLedgerDiscardSummary s
  | .ledgerRead w bad => Sys2Proof.Machine.execLedgerRead w bad s
  | .ledgerClear w v => Sys2Proof.Machine.execLedgerClear w v s
  | .srcLatchClear w j v => Sys2Proof.Machine.execSrcLatchClear w j v s
  | .operatingTimeTick => Sys2Proof.Machine.execOperatingTimeTick s
  | .updChunk w k data => Sys2Proof.Machine.execUpdChunk w k data s
  | .updVerify w => Sys2Proof.Machine.execUpdVerify w s
  | .updVerifyDone => Sys2Proof.Machine.execUpdVerifyDone s
  | .updActivate w => Sys2Proof.Machine.execUpdActivate w s
  | .updConfirm w fail => Sys2Proof.Machine.execUpdConfirm w fail s
  | .updAbort w => Sys2Proof.Machine.execUpdAbort w s
  | .updTrialExpiry => Sys2Proof.Machine.execUpdTrialExpiry s
  | .coreBoot c => Sys2Proof.Machine.execCoreBoot c s
  | .coreInService c => Sys2Proof.Machine.execCoreInService c s
  | .coreWdogExpiry c => Sys2Proof.Machine.execCoreWdogExpiry c s
  | .coreRestartCmd w c => Sys2Proof.Machine.execCoreRestartCmd w c s
  | .zeroize w => Sys2Proof.Machine.execZeroize w s
  | .keyLock w => Sys2Proof.Machine.execKeyLock w s
  | .userExtend w data => Sys2Proof.Machine.execUserExtend w data s
  | .attRequest w pl nonce => Sys2Proof.Machine.execAttRequest w pl nonce s
  | .attSignDone pl ms => Sys2Proof.Machine.execAttSignDone pl ms s
  | .dbgSubmit w pl => Sys2Proof.Machine.execDbgSubmit w pl s
  | .dbgVerifyDone => Sys2Proof.Machine.execDbgVerifyDone s
  | .dbgLock w pl => Sys2Proof.Machine.execDbgLock w pl s
  | .dbgUnlockExpiry => Sys2Proof.Machine.execDbgUnlockExpiry s
  | .porstAssert => Sys2Proof.Machine.execPorstAssert s
  | .powerUp slots pegs otp cells dram recs rails noClock => Sys2Proof.Machine.execPowerUp slots pegs otp cells dram recs rails noClock s
  | .warmRestartCmd w => Sys2Proof.Machine.execWarmRestartCmd w s
  | .dpResetCmd w => Sys2Proof.Machine.execDpResetCmd w s
  | .deviceResetCmd w => Sys2Proof.Machine.execDeviceResetCmd w s
  | .dataPlaneReset => Sys2Proof.Machine.execDataPlaneReset s
  | .dpReady dram => Sys2Proof.Machine.execDpReady dram s
  | .warmRestart => Sys2Proof.Machine.execWarmRestart s
  | .deviceReset slots pegs otp cells dram recs noClock => Sys2Proof.Machine.execDeviceReset slots pegs otp cells dram recs noClock s
  | .railSample k mv ma => Sys2Proof.Machine.execRailSample k mv ma s
  | .sensorSample k raw => Sys2Proof.Machine.execSensorSample k raw s
  | .thermDeassert => Sys2Proof.Machine.execThermDeassert s
  | .powerWarnExceed => Sys2Proof.Machine.execPowerWarnExceed s
  | .lifeTick => Sys2Proof.Machine.execLifeTick s
  | .smbHottestSensor => Sys2Proof.Machine.execSmbHottestSensor s
  | .smbSensor k => Sys2Proof.Machine.execSmbSensor k s
  | .smbRailVoltage k => Sys2Proof.Machine.execSmbRailVoltage k s
  | .smbRailCurrent k => Sys2Proof.Machine.execSmbRailCurrent k s
  | .smbTotalPower => Sys2Proof.Machine.execSmbTotalPower s
  | .smbStatus => Sys2Proof.Machine.execSmbStatus s
  | .smbIdentity => Sys2Proof.Machine.execSmbIdentity s
  | .smbAlertResponse => Sys2Proof.Machine.execSmbAlertResponse s
  | .fatalFirmwareFault c => Sys2Proof.Machine.execFatalFirmwareFault c s
  | .tableOpSubmitTimeout k => Sys2Proof.Machine.execTableOpSubmitTimeout k s
  | .chkLockAcquire l => Sys2Proof.Machine.execChkLockAcquire l s

end Sys2Proof.Machine
end

