-- ==== Sys2Proof/Safety.lean ====
section
/-! DEFINITION. What a safe run is: no command stops the block. -/

namespace Sys2Proof

/-- A safe state: every waiting command names resources that exist. -/
def Safe (s : Machine.State) : Prop := ∀ c ∈ s.pending, c.wf = true

/-- `n` steps, up to the first that stops. -/
def steps : Nat → Machine.State → Host.Outcome Machine.State Machine.Fault Machine.Refusal
  | 0, s => .next s
  | n + 1, s => match Machine.step s with
    | .next t => steps n t
    | o => o

/-- The clock's parts are in their ranges: a TIME80 has nanoseconds below 10^9 and 48-bit seconds (R87, R29), the fraction is 16 bits,
and the rate accumulator carries less than one unit. -/
def Machine.Clock.inRange (c : Machine.Clock) : Prop :=
  c.ns < 1000000000 ∧ c.secs < 2 ^ 48 ∧ c.frac < 65536 ∧ c.carry < 1000000000 * 2 ^ 32

/-- The state with another device: queue and clock are as before. -/
def Machine.State.on (s : Machine.State) (d : Machine.Dev) : Machine.State := { s with dev := d }

/-- A write of `data` to object `key` through window `w` passes every check: the function is reached, it serves its plane (R373), the
buffer holds the data, and no check of R33 refuses. -/
def Machine.State.writable (s : Machine.State) (w key : Nat) (data : Bytes) : Prop :=
  s.dev.pcieUp = true ∧ s.dev.hostOk (w / 4) = true ∧ data.length ≤ 256 ∧
    ∃ r, (s.dev.winBegin w data).writeCheck (w / 4) key data = .ok r

/-- The state after a write of `data` to object `key` through window `w`: the data stand in the window, `f` is what the write does, and
the operation ends with status `st`. Queue and clock are as before. -/
def Machine.State.wrote (s : Machine.State) (w key : Nat) (data : Bytes) (st : Nat) (f : Machine.Dev → Machine.Dev) : Machine.State :=
  { s with dev := (f (s.dev.winBegin w data)).winEnd w key (Machine.owCtrl 2 data.length) st [] }

end Sys2Proof
end

