-- ==== Sys2Proof/Certificates/Slice0/Obligations.lean ====
section
/-! DEFINITION. The statements for the provers. A statement about a write through a window has as its premise that the write passes
every check (`State.writable`), and names what it leaves (`State.wrote`). -/

open Sys2Proof Sys2Proof.Machine

/-! ### The queue, the clock, reset -/

/-- A step takes the command at the front of the queue and runs it with the queue's rest. -/
def Obligations.StepRunsFrontCommand : Prop :=
  ∀ (c : Instr) (rest : List Instr) (s : State), s.pending = c :: rest → step s = exec c { s with pending := rest }

/-- With no command waiting a step is one nanosecond: the always-on count gains 2^16 units, and without a correction device time and network
time gain as much, network time within its 48-bit seconds (the model's choice, log entry 1). The device is as before but for what time ends
by itself: PPS_OUT falls at its width, within 2 ns (R105); the writes of a Ledger slot and of a boot record are done; and a core that hands
over restarts. -/
def Obligations.IdleStepPassesOneNanosecond : Prop :=
  ∀ s : State, s.pending = [] → s.clk.inRange →
    ∃ t, step s = .next t ∧ t.pending = [] ∧ t.clk.run = s.clk.run + 65536 ∧
      { t.dev with objs := s.dev.objs, time.ppsOut := s.dev.time.ppsOut, ev.storing := s.dev.ev.storing,
                   sec.bootWriting := s.dev.sec.bootWriting } = s.dev ∧
      t.dev.ev.storing = none ∧ t.dev.sec.bootWriting = none ∧
      (t.dev.time.ppsOut = true ↔
        s.dev.time.ppsOut = true ∧ t.clk.run < s.dev.time.ppsRise + s.dev.o 0x1840 3 * uUs + 2 * uNs) ∧
      (∀ c, c < 2 → t.dev.o 0x1460 1 c = if s.dev.o 0x1460 1 c = 3 then 4 else s.dev.o 0x1460 1 c) ∧
      (∀ k, k ≠ okey 0x1460 1 0 → k ≠ okey 0x1460 1 1 → mget objDflt t.dev.objs k = mget objDflt s.dev.objs k) ∧
      (s.dev.time.freq = 0 → t.clk.dev = s.clk.dev + 65536 ∧ t.clk.net = (s.clk.net + 65536) % (2 ^ 48 * 1000000000 * 65536))

/-- A command that names resources which exist answers a next state and leaves the commands behind it in the queue; any other command stops
the block with `noSuchResource` (the model's choice, log entry 4). -/
def Obligations.WellFormedCommandsComplete : Prop :=
  ∀ (c : Instr) (s : State),
    (c.wf = true → ∃ t, exec c s = .next t ∧ t.pending = s.pending) ∧ (c.wf = false → exec c s = .fault .noSuchResource)

/-- The commands that move the clock: a step of network time, and the resets that restart device time. -/
def Obligations.OnlyStepsAndResetsMoveClock : Prop :=
  ∀ (c : Instr) (s t : State), exec c s = .next t →
    match c with
    | .stepApply => t.clk.dev = s.clk.dev ∧ t.clk.run = s.clk.run ∧ t.clk.carry = s.clk.carry
    | .crossingStall _ _ | .dataPlaneReset => t.clk = s.clk ∨ t.clk = { s.clk with dev := 0 }
    | .powerUp .. | .deviceReset .. => t.clk = s.clk ∨ t.clk = {}
    | _ => t.clk = s.clk

/-- Every step keeps the parts of the clock in their ranges. -/
def Obligations.ClockStaysInRange : Prop :=
  ∀ s t : State, s.clk.inRange → step s = .next t → t.clk.inRange

/-- Right after reset the clock is in range, no command waits, PORST_N is asserted, every object reads its default, and every table is empty. -/
def Obligations.ResetReadsDefaults : Prop :=
  State.reset.clk.inRange ∧ State.reset.pending = [] ∧ State.reset.dev.power.porst = true ∧
    (∀ ix sub i, State.reset.dev.o ix sub i = objDflt (okey ix sub i)) ∧ (∀ ix sub a, State.reset.dev.tbl ix sub a = none) ∧
    (∀ p, State.reset.dev.o 0x2400 2 p = 0 ∧ State.reset.dev.o 0x2400 3 p = 0) ∧
    State.reset.dev.o 0x1020 4 = 0 ∧ State.reset.dev.o 0x1820 3 = 32768 ∧ (∀ a, (State.reset.dev.bank a).owner = 0)

/-- A queue of commands that name resources which exist is worked off, one command a step, with no stop. -/
def Obligations.SafeQueueDrains : Prop :=
  ∀ s : State, Safe s → ∃ t, steps s.pending.length s = .next t ∧ t.pending = []

/-! ### Counters, events, pools -/

/-- A counter of 64 bits wraps to 0; a narrower one stays at its largest value. -/
def Obligations.CountersWrapOrSaturate : Prop :=
  ∀ (d : Dev) (ix sub i n : Nat) (r : ObjRow), findRow ix sub = some r →
    (d.addO ix sub i n).o ix sub i =
      (if r.ty.len = 8 then (d.o ix sub i + n) % 2 ^ 64 else min (2 ^ (8 * r.ty.len) - 1) (d.o ix sub i + n)) ∧
    (∀ ix' sub' i', okey ix' sub' i' ≠ okey ix sub i → (d.addO ix sub i n).o ix' sub' i' = d.o ix' sub' i')

/-- A raise counts, latches its severity and notes its code and time, whatever follows; a disabled source below critical does no more; and a
raise changes nothing but its source's objects, the occupancy and peak of pool 7 (4302h.01 and .02, instance 15), and the event messages. -/
def Obligations.RaiseCountsLatchesAndNotes : Prop :=
  ∀ (c : Clock) (d : Dev) (src code sev p1 p2 p3 : Nat), src < 640 → reservedSource src = false →
    let e := d.after c (raiseEv src code sev p1 p2 p3)
    e.o 0x6400 4 src = (d.o 0x6400 4 src + 1) % 2 ^ 64 ∧ e.o 0x6400 3 src = d.o 0x6400 3 src ||| 2 ^ sev ∧
      e.o 0x6400 7 src = code ∧ e.o 0x6400 8 src = c.t80 ∧
      (d.oB 0x6400 1 src = false → sev ≠ 3 → e = d.raise1 c src code sev) ∧
      (∀ ix sub i, sub < 256 → i < 2 ^ 24 → ¬(ix = 0x6400 ∧ 3 ≤ sub ∧ sub ≤ 8 ∧ i = src) → ¬(ix = 0x4302 ∧ (sub = 1 ∨ sub = 2) ∧ i = 15) →
        e.o ix sub i = d.o ix sub i) ∧
      { e with objs := d.objs, ev := d.ev } = d

/-- A raise that passes its limiter sends one message: into pool 7 where it has room, and otherwise the source holds it; a source that holds a
message loses the new one, except that a critical message takes the place of one that is not. A raise under the limit of one record a
second of device time: with one recorded less than a second ago and a severity below critical, nothing is sent and the number suppressed
goes up by one; the counts and latches of the raise are kept. With none recorded in that second, a raise that the source limiter does not
limit, at a source that holds no message, is recorded at this instant and the count begins anew. -/
def Obligations.MessagesAreQueuedOrSuppressed : Prop :=
  (∀ (c : Clock) (d : Dev) (m : EvMsg), m.src < 640 →
    let e := d.after c (sendMsg m)
    (oget d.ev.held m.src = none → d.poolRoom 15 1 = true →
      e.ev.queue = d.ev.queue ++ [m] ∧ oget e.ev.held m.src = none ∧ e.o 0x4302 1 15 = d.o 0x4302 1 15 + 1) ∧
    (oget d.ev.held m.src = none → d.poolRoom 15 1 = false → e.ev.queue = d.ev.queue ∧ oget e.ev.held m.src = some m ∧ e.objs = d.objs) ∧
    (∀ h, oget d.ev.held m.src = some h →
      e.ev.queue = d.ev.queue ∧ e.o 0x6400 6 m.src = countUp 4 (d.o 0x6400 6 m.src) 1 ∧
        oget e.ev.held m.src = some (if m.sev = 3 ∧ h.sev ≠ 3 then m else h))) ∧
  (∀ (c : Clock) (d : Dev) (src code sev inst p1 p2 p3 pos : Nat) (l : CodeLimit), reservedSource src = false →
    findLimit d.ev.limits code inst = some l → (c.dev : Int) < l.last + uS → d.oB 0x6400 1 src = true → sev ≠ 3 →
    let e := d.after c (raiseLim src code sev inst p1 p2 p3 pos)
    findLimit e.ev.limits code inst = some ⟨code, inst, l.last, l.suppressed + 1⟩ ∧ e.ev.queue = d.ev.queue ∧ e.ev.held = d.ev.held ∧
      e.objs = (d.raise1 c src code sev).objs) ∧
  (∀ (c : Clock) (d : Dev) (src code sev inst p1 p2 p3 pos : Nat), src = 610 ∨ src = 611 →
    (∀ l, findLimit d.ev.limits code inst = some l → l.last + uS ≤ c.dev) → d.oB 0x6400 1 src = true → oget d.ev.held src = none →
    findLimit (d.after c (raiseLim src code sev inst p1 p2 p3 pos)).ev.limits code inst = some ⟨code, inst, c.dev, 0⟩)

/-! ### Reads and writes of objects (02) -/

/-- The first check that fails decides the status of a write, in the order of R33: busy, index, sub-index, instance, plane, access, length,
value. A write that a check refuses returns that check's status and changes nothing but its window and the count of its operations; on a
function that does not serve its plane the status is 0701h. -/
def Obligations.WritesAreCheckedInOrder : Prop :=
  (∀ (d : Dev) (pl key : Nat) (data : Bytes),
    let ix := keyIndex key
    let busy : Bool := d.dataPlaneBusy ix || d.commitBusy key
    (busy = true → d.writeCheck pl key data = .error 0x701) ∧
    (busy = false → indexExists ix = false → d.writeCheck pl key data = .error 0x101) ∧
    (busy = false → indexExists ix = true → rowOf ix (keySub key) = none → d.writeCheck pl key data = .error 0x102) ∧
    (∀ r, busy = false → indexExists ix = true → rowOf ix (keySub key) = some r →
      let listed : Bool := planeListed r pl && !otherPlane pl key && d.dbgOpen ix && !d.keyDenied pl key
      let noWrite : Bool := r.planes == .f || r.acc == .const || r.acc == .ro || r.acc == .rc
      (instOk r (keyInst key) = false → d.writeCheck pl key data = .error 0x103) ∧
      (instOk r (keyInst key) = true → listed = false → d.writeCheck pl key data = .error 0x201) ∧
      (instOk r (keyInst key) = true → listed = true → noWrite = true → d.writeCheck pl key data = .error 0x202) ∧
      (instOk r (keyInst key) = true → listed = true → noWrite = false → (r.ty = .table ∨ data.length ≠ r.ty.len) →
        d.writeCheck pl key data = .error 0x301) ∧
      (instOk r (keyInst key) = true → listed = true → noWrite = false → r.ty ≠ .table → data.length = r.ty.len →
        d.writeCheck pl key data = (if d.valueOk pl r key (ofBytes data) then .ok r else .error 0x302)))) ∧
  (∀ (s : State) (w key : Nat) (data : Bytes), w < 8 → key < 2 ^ 48 → s.dev.pcieUp = true → data.length ≤ 256 →
    (∀ e, s.dev.hostOk (w / 4) = true → (s.dev.winBegin w data).writeCheck (w / 4) key data = .error e →
      exec (.write (.obj w key) data) s = .next (s.wrote w key data e id)) ∧
    (s.dev.hostOk (w / 4) = false →
      exec (.write (.obj w key) data) s = .next { s with dev := s.dev.winEnd w key (owCtrl 2 data.length) 0x701 [] }))

/-- A read returns the value in the window with status 0000h, or 0702h while the object is indeterminate; an object that clears on reading
holds its default afterwards, and any other object of that kind is as before. `value` is what the object reads. READ_SHADOW of a staged
object returns the shadow value to the plane that owns the bank and the lit value to the other, with the same two statuses; no object but
the count of the window's operations changes. -/
def Obligations.ReadsReturnLitOrShadow : Prop :=
  (∀ (s : State) (w key : Nat) (r : ObjRow), w < 8 → key < 2 ^ 48 → s.dev.pcieUp = true → s.dev.hostOk (w / 4) = true →
    s.dev.readCheck (w / 4) key = .ok r → ¬(keyIndex key = 0x1030 ∧ keySub key = 3) →
    ¬(keyIndex key = 0x6420 ∧ keySub key = 2) →
    let x : Nat × Dev := ((valueNow key).run s.clk).run s.dev
    let d := if r.acc = .rc then { x.2 with objs := mset objDflt x.2.objs key (objDflt key) } else x.2
    exec (.read (.obj w key)) s = .next { s with
      dev := d.winEnd w key (owCtrl 1 0) (if s.dev.dict.pegIndet.contains key then 0x702 else 0) (toBytes r.ty.len x.1) } ∧
    (r.acc = .rc → mget objDflt d.objs key = objDflt key)) ∧
  (∀ (s : State) (w key : Nat) (r : ObjRow), w < 8 → key < 2 ^ 48 → s.dev.pcieUp = true → s.dev.hostOk (w / 4) = true →
    s.dev.readCheck (w / 4) key = .ok r → r.staged = true →
    ∃ v, exec (.readShadow w key) s = .next { s with
        dev := s.dev.winEnd w key (owCtrl 3 0) (if s.dev.dict.pegIndet.contains key then 0x702 else 0) (toBytes r.ty.len v) } ∧
      ((s.dev.bank (areaOfKey key)).owner ≠ w / 4 + 1 → v = mget objDflt s.dev.objs key) ∧
      (∀ x, (s.dev.bank (areaOfKey key)).owner = w / 4 + 1 → oget s.dev.dict.shadow key = some x → v = x))

/-- A write of a staged object goes to the shadow bank of its area where that bank is free for the plane, which then owns it, and returns
0401h; the lit value stays. Where the bank is not free it returns 0402h and changes nothing. A write of 1s clears those bits of a W1C
object and no others; the source latches may also release FAULT_N. -/
def Obligations.StagedAndClearingWrites : Prop :=
  (∀ (s : State) (w key : Nat) (data : Bytes) (r : ObjRow), w < 8 → key < 2 ^ 48 → s.writable w key data →
    rowOf (keyIndex key) (keySub key) = some r → r.staged = true →
    (s.dev.bankFree (areaOfKey key) (w / 4) = true → ∃ t, exec (.write (.obj w key) data) s = .next t ∧ (t.dev.win w).status = 0x401 ∧
      oget t.dev.dict.shadow key = some (ofBytes data) ∧ (t.dev.bank (areaOfKey key)).owner = w / 4 + 1 ∧
      (∀ k, k ≠ okey 0x5410 2 w → mget objDflt t.dev.objs k = mget objDflt s.dev.objs k) ∧
      (∀ k, k ≠ key → oget t.dev.dict.shadow k = oget s.dev.dict.shadow k)) ∧
    (s.dev.bankFree (areaOfKey key) (w / 4) = false →
      exec (.write (.obj w key) data) s = .next (s.wrote w key data 0x402 id))) ∧
  (∀ (s : State) (w key : Nat) (data : Bytes) (r : ObjRow), w < 8 → key < 2 ^ 48 → s.writable w key data →
    rowOf (keyIndex key) (keySub key) = some r → r.staged = false → r.pegged = false → r.acc = .w1c →
    exec (.write (.obj w key) data) s = .next (s.wrote w key data 0 fun d =>
      let e := { d with objs := mset objDflt d.objs key (clearBits (mget objDflt d.objs key) (ofBytes data)) }
      if keyIndex key = 0x6400 then e.after s.clk faultSettle else e) ∧
    (∀ w i v, w < 8 → i < 640 → v < 256 → s.writable w (okey 0x6400 3 i) (toBytes 1 v) →
      exec (.srcLatchClear w i v) s = .next (s.wrote w (okey 0x6400 3 i) (toBytes 1 v) 0 fun d =>
        (d.setO 0x6400 3 i (clearBits (d.o 0x6400 3 i) v)).after s.clk faultSettle)))

/-- A commit (1020h.01 written with 1) covers the banks its plane owns: it takes the next epoch, and those banks swap; one that covers
connection memory has swapped that at once where no slotted port is enabled. It returns 0000h and changes nothing where the plane owns no
bank, and 0701h, changing nothing, while four commits are in progress. -/
def Obligations.CommitTakesOneEpoch : Prop :=
  ∀ (s : State) (w : Nat), w < 8 → s.writable w (okey 0x1020 1 0) (toBytes 1 1) →
    (s.dev.commitsFull = true → exec (.commit w) s = .next (s.wrote w (okey 0x1020 1 0) (toBytes 1 1) 0x701 id)) ∧
    (s.dev.commitsFull = false → s.dev.owned (w / 4) = [] →
      exec (.commit w) s = .next (s.wrote w (okey 0x1020 1 0) (toBytes 1 1) 0 id)) ∧
    (s.dev.commitsFull = false → s.dev.owned (w / 4) ≠ [] →
      (s.dev.o 0x7000 2 = 3 → ∀ a ∈ s.dev.owned (w / 4), dataPlaneArea (a * 0x400) = false) →
      ∃ t, exec (.commit w) s = .next t ∧ (t.dev.win w).status = 0 ∧ t.dev.dict.epoch = s.dev.dict.epoch + 1 ∧
        (∀ a ∈ s.dev.owned (w / 4), (t.dev.bank a).owner = 0 ∧ (a ≠ 0x0A → (t.dev.bank a).phase = .swapping)) ∧
        (0x0A ∈ s.dev.owned (w / 4) → (∀ c ∈ s.dev.dict.commits, c.epoch ≤ s.dev.dict.epoch ∧ ∀ x ∈ c.left, x.1 ≠ 0x0A) →
          let atOnce : Prop := s.dev.dict.shadow.any (fun x => keyIndex x.1 == 0x2810 || keyIndex x.1 == 0x2811) = true ∧
            (∀ p, p < 256 → ¬(s.dev.slotted p = true ∧ s.dev.oB 0x2400 2 p = true))
          (atOnce → (t.dev.bank 0x0A).phase = .copying) ∧ (¬atOnce → (t.dev.bank 0x0A).phase = .swapping)))

/-- A discard by plane pl (1020h.01 written with 2, or the DISCARD operation of a list) returns 0000h; every bank the plane owned is released
and its shadow reads as the lit bank; no epoch is taken; and a plane that owns nothing changes nothing. -/
def Obligations.DiscardReloadsOwnedBanks : Prop :=
  (∀ (s : State) (w : Nat), w < 8 → s.writable w (okey 0x1020 1 0) (toBytes 1 2) →
    exec (.discard w) s = .next (s.wrote w (okey 0x1020 1 0) (toBytes 1 2) 0 fun d => (d.owned (w / 4)).foldl Dev.dropBank d)) ∧
  (∀ (c : Clock) (d : Dev) (pl : Nat) (core : Option Nat) (sh : Bool) (key : Nat),
    ((runEntry pl core ⟨5, sh, key, []⟩).run c).run d = ((0, []), (d.owned pl).foldl Dev.dropBank d)) ∧
  (∀ (d : Dev) (pl : Nat),
    let e := (d.owned pl).foldl Dev.dropBank d
    (∀ a ∈ d.owned pl, (e.bank a).owner = 0 ∧ ∀ p key, areaOfKey key = a → e.shadowObj p key = mget objDflt e.objs key) ∧
    (∀ a ∈ d.owned pl, ∀ p key, areaOfTkey key = a → e.shadowTbl p key = oget e.tbls key) ∧
    e.objs = d.objs ∧ e.tbls = d.tbls ∧ e.dict.epoch = d.dict.epoch ∧ (d.owned pl = [] → e = d))

/-- A write of area a to 1020h.06: 0302h where a names no area or the plane owns the bank, 0402h while the bank swaps or copies or before the
other plane has been idle for 1020h.07 seconds, 0000h with no effect where the bank is clean; else the other plane loses the bank, with
event 1003h of source 608. -/
def Obligations.BankBreakFollowsItsRules : Prop :=
  ∀ (s : State) (w a : Nat), w < 8 → a < 256 → s.writable w (okey 0x1020 6 0) (toBytes 1 a) →
    let b := s.dev.bank a
    let done := fun st f => exec (.bankBreak w a) s = .next (s.wrote w (okey 0x1020 6 0) (toBytes 1 a) st f)
    (areaOf (a * 0x400) ≠ some a → done 0x302 id) ∧
    (areaOf (a * 0x400) = some a →
      (b.phase ≠ .idle → done 0x402 id) ∧ (b.phase = .idle → b.owner = 0 → done 0 id) ∧
      (b.phase = .idle → b.owner = w / 4 + 1 → done 0x302 id) ∧
      (b.phase = .idle → b.owner ≠ 0 → b.owner ≠ w / 4 + 1 → s.clk.run < b.last + s.dev.o 0x1020 7 * uS → done 0x402 id) ∧
      (b.phase = .idle → b.owner ≠ 0 → b.owner ≠ w / 4 + 1 → b.last + s.dev.o 0x1020 7 * uS ≤ s.clk.run →
        done 0 (fun d => (d.dropBank a).after s.clk (raiseEv 608 0x1003 2 (a * 0x400) (b.owner - 1) (d.o 0x1020 3)))))

/-- At its safe boundary an area swaps its staged values in, for the commit that covers it; the lit bank is then copied into the shadow, and
the end of the copy makes the bank clean. A commit that becomes visible by it and that has swapped connection pages is reported
(`cmTell`); its epoch goes into the record store (`storeDrive`). (The areas of the ports, transport, parser and scheduling swap with more; those have statements
of their own in part.) -/
def Obligations.AreaSwapAndCopy : Prop :=
  (∀ (s : State) (a e : Nat), a < 36 → a ≠ 0x09 → a ≠ 0x0A → a ≠ 0x0C → a ≠ 0x11 → s.dev.pendingPart a 0 = some e →
    exec (.areaSwap a 0) s = .next (s.on ((((s.dev.swapPart a 0 e).partDone a 0).after s.clk cmTell).after s.clk storeDrive))) ∧
  (∀ (s : State) (b e : Nat), b < 257 → s.dev.pendingPart 0x0C b = some e → s.dev.dict.baysNew ≠ [] →
    exec (.areaSwap 0x0C b) s = .next (s.on (((s.dev.swapBay b e).after s.clk cmTell).after s.clk storeDrive))) ∧
  (∀ (s : State) (a : Nat), a < 36 → (s.dev.bank a).phase = .swapping → s.dev.dict.commits.any (fun c => c.left.any (fun x => x.1 == a)) = false →
    (a = 0x0C → s.dev.oldBankDone = true) →
    exec (.shadowCopyStart a) s = .next { s with dev := s.dev.setBank a { s.dev.bank a with phase := .copying } }) ∧
  (∀ (s : State) (a : Nat), a < 36 → a ≠ 0x0C → (s.dev.bank a).phase = .copying →
    exec (.shadowCopyDone a) s = .next { s with dev := s.dev.setBank a {} }) ∧
  (∀ (s : State), (s.dev.bank 0x0C).phase = .copying → ∃ t, exec (.shadowCopyDone 0x0C) s = .next t ∧ t.dev.bank 0x0C = {} ∧
    t.dev.dict.baysNew = [] ∧ t.dev.dict.oldObj = [] ∧ t.dev.objs = s.dev.objs) ∧
  (∀ (d : Dev) (a e key v : Nat), areaOfKey key = a → d.dict.shadow = [(key, some v)] → d.inPart a 0 key = true →
    mget objDflt (d.swapPart a 0 e).objs key = v ∧ oget (d.swapPart a 0 e).dict.shadow key = none)

/-- A write of a pegged object without flag S, while the store runs and fewer than four commits are in progress, takes the next epoch and returns 0000h with the
value lit and its three copies equal at that epoch, a session key sealed (R436; its mask is the model's, log entry 99); what follows from the new value comes after that. A scrub pass that finds one copy of
a pegged object damaged, and every other pegged object in agreement, rewrites that copy from the other two, counts one repair, and leaves
the value of the object as it was. -/
def Obligations.PeggedObjectsAreWrittenAndScrubbed : Prop :=
  (∀ (s : State) (w key : Nat) (data : Bytes) (r : ObjRow), w < 8 → key < 2 ^ 48 → s.writable w key data →
    rowOf (keyIndex key) (keySub key) = some r → r.staged = false → r.pegged = true → s.dev.commitsFull = false →
    s.dev.o 0x7010 1 678 < 3 →
    ∃ e : Dev, exec (.peggedWrite w key data []) s = .next (s.wrote w key data 0 fun d =>
        let d1 := e.after s.clk (peggedThen key (mget objDflt d.objs key) (ofBytes data))
        if keyIndex key = 0x1140 ∧ keySub key = 2 then d1.addO 0x1430 4 0 1 else d1) ∧
      mget objDflt e.objs key = ofBytes data ∧ e.dict.epoch = s.dev.dict.epoch + 1 ∧
      e.pegTriple key = (let c : PegCopy := ⟨pegSeal key (ofBytes data) ((s.dev.dict.epoch + 1) % 2 ^ 32), (s.dev.dict.epoch + 1) % 2 ^ 32, true⟩
        ⟨c, c, c⟩) ∧
      e.dict.pegIndet.contains key = false) ∧
  (∀ (s : State) (key n : Nat) (c : PegCopy) (r : ObjRow), key < 2 ^ 48 → n < 3 → c.good = true →
    findRow (keyIndex key) (keySub key) = some r → r.pegged = true → keyInst key < r.size → keyIndex key ≠ 0x1030 → keyIndex key ≠ 0x6400 →
    keyIndex key ≠ 0x4302 →
    s.dev.o 0x7010 1 678 < 3 → s.dev.pegTriple key = ⟨c, c, c⟩ → mget objDflt s.dev.objs key = pegSeal key c.val c.epoch → s.dev.dict.pegIndet = [] →
    (∀ e ∈ s.dev.dict.pegs, (s.dev.pegTriple e.1).uneven = false) →
    ∃ t, exec (.pegScrubPass [key * 4 + n]) s = .next t ∧ t.dev.pegTriple key = ⟨c, c, c⟩ ∧
      mget objDflt t.dev.objs key = mget objDflt s.dev.objs key ∧ t.dev.o 0x1030 4 = countUp 4 (s.dev.o 0x1030 4) 1 ∧
      t.dev.o 0x1030 6 = (if s.dev.oB 0x1800 3 then s.clk.t80 else 0))

/-- A table command through a window that is not busy runs the operation on the registers it writes; the window then shows the result: its
status, the entry of a find or a walk, the address it gives (a free value where the result gives none), and after a walk the next cursor.
A check that fails gives its status and changes no table. (Operations on the flow table run as tasks and have a statement of their own.) -/
def Obligations.TableCommandsReturnResults : Prop :=
  ∀ (s : State) (k ix sub addr : Nat) (sh : Bool) (entry : Bytes), k < 32 → ix < 65536 → sub < 256 → addr < 2 ^ 32 → ix ≠ 0x3800 →
    s.dev.pcieUp = true → (s.dev.tblWin k).status ≠ twBusy →
    let ran := fun (op a0 : Nat) (e0 : Bytes) (t : State) =>
      let d := s.dev.tblLoad k ix sub op sh a0 e0
      let x : TblOp := ⟨k / 16, op, sh, ix, sub, a0, fitTo (entryLen ix) (d.tblWin k).entry, 0, false⟩
      let r : TblRes × Dev := ((tableOp x).run s.clk).run d
      s.dev.hostOk (k / 16) = true → d.tableCheck x = none →
        (∀ b, r.1.addr = some b → t = { s with dev := r.2.tblEnd k op (b % 2 ^ 32) r.1 }) ∧
        (r.1.addr = none → t = { s with dev := ({ r.2 with free := r.2.free + 1 } : Dev).tblEnd k op (Config.freeValue r.2.free % 2 ^ 32) r.1 })
    let refused := fun (op a0 : Nat) (e0 : Bytes) (t : State) =>
      let d := s.dev.tblLoad k ix sub op sh a0 e0
      let x : TblOp := ⟨k / 16, op, sh, ix, sub, a0, fitTo (entryLen ix) (d.tblWin k).entry, 0, false⟩
      s.dev.hostOk (k / 16) = true → ∀ e, d.tableCheck x = some e →
        (t.dev.tblWin k).status = e ∧ t.dev.tbls = s.dev.tbls ∧ t.dev.objs = s.dev.objs
    (∃ t, exec (.tblFind k ix sub sh entry) s = .next t ∧ ran 1 0 entry t ∧ refused 1 0 entry t) ∧
    (∃ t, exec (.tblInsert k ix sub sh addr entry) s = .next t ∧ ran 2 addr entry t ∧ refused 2 addr entry t) ∧
    (∃ t, exec (.tblDelete k ix sub sh addr entry) s = .next t ∧ ran 3 addr entry t ∧ refused 3 addr entry t) ∧
    (∃ t, exec (.tblNext k ix sub sh addr) s = .next t ∧ ran 4 addr [] t ∧ refused 4 addr [] t) ∧
    (∃ t, exec (.tblUpdate k ix sub sh addr entry) s = .next t ∧ ran 5 addr entry t ∧ refused 5 addr entry t)

/-- An insertion of a prefix that the trie does not hold, and that fits, returns 0000h with the lowest unused address; the entry is then
there, and a find of its key returns 0000h with that address and the entry. A prefix already present gives 0502h with its address; a find
or a deletion of an absent one gives 0103h. -/
def Obligations.TrieInsertThenFind : Prop :=
  ∀ (c : Clock) (d : Dev) (x : TblOp), x.ix = 0x3440 → x.entry.length = 36 →
    let v := ofBytes x.entry
    let l := d.entries 0x3440 1
    let r := fun (op : Nat) (e : Dev) => ((trieTable { x with op := op }).run c).run e
    let a := firstFree (l.map Prod.fst) 0
    (l.find? (fun e => trieKey e.2 == trieKey v) = none →
      (r 1 d).1 = (⟨0x103, some 0xFFFFFFFF, []⟩ : TblRes) ∧ (r 1 d).2 = d ∧ (r 3 d).1 = (⟨0x103, none, []⟩ : TblRes) ∧ (r 3 d).2 = d ∧
      ((d.forwardObj 0x3440 2 0).getD 0 + (prefixOf v).units ≤ 2097152 → a < 2 ^ 32 →
        (r 2 d).1 = (⟨0, some a, []⟩ : TblRes) ∧ (r 2 d).2.tbl 0x3440 1 a = some v ∧
          (r 1 (r 2 d).2).1 = (⟨0, some a, x.entry⟩ : TblRes))) ∧
    (∀ e, l.find? (fun e => trieKey e.2 == trieKey v) = some e →
      (r 1 d).1 = (⟨0, some e.1, toBytes 36 e.2⟩ : TblRes) ∧ (r 2 d).1 = (⟨0x502, some e.1, []⟩ : TblRes) ∧ (r 2 d).2 = d ∧
      (r 3 d).1 = (⟨0, some e.1, []⟩ : TblRes) ∧ (r 3 d).2.tbl 0x3440 1 e.1 = none)

/-- A write to a busy window is ignored and counted; a table operation that waited 50 µs for the dispatcher ends with 0701h, and its
source, with no other waiting, adds the time it was stalled; the batch engine
of a function starts if its ring size is one of R50 and the function serves its plane, or flags a configuration error, which a W1C write
clears. A descriptor that the running engine takes: its list is executed, a commit that its flag asks for follows, the results are written
to the result buffer and then DONE is written with 01h; where the list cannot be read, the lengths do not fit, or the results cannot be
written, DONE is 02h. The head then moves on and one completion counts toward the vector. A list that has come to an operation on the flow
table waits for that operation's task. -/
def Obligations.BatchesRunTheirDescriptors : Prop :=
  ((∀ (s : State) (w : Nat), w < 8 → exec (.windowWriteIgnored false w) s = .next { s with dev := s.dev.addO 0x5410 1 w 1 }) ∧
  (∀ (s : State) (k : Nat), k < 32 → exec (.windowWriteIgnored true k) s = .next { s with dev := s.dev.addO 0x5410 3 k 1 }) ∧
  (∀ (s : State) (k op pl a v sill : Nat) (t : Task), k < 32 → t.work = .table k op pl a v → s.dev.joinery.waiting = [(sill, t)] →
    let i := sill * 8 + kindSource t.kind
    ∃ u, exec (.tableOpSubmitTimeout k) s = .next u ∧ (u.dev.tblWin k).status = 0x701 ∧ u.dev.joinery.waiting = [] ∧
      oget u.dev.joinery.stalled i = none ∧ u.dev.tbls = s.dev.tbls ∧
      u.dev.objs = (match oget s.dev.joinery.stalled i with
        | some t0 => s.dev.addO 0x3846 1 i ((s.clk.run - t0) / uNs)
        | none => s.dev).objs) ∧
  (∀ (s : State) (f : Nat) (ie : Bool), f < 2 → s.dev.pcieUp = true →
    ∃ t, exec (.batchEnable f ie) s = .next t ∧
      (batchSizeOk (s.dev.batch f).size = true → (t.dev.batch f) = { s.dev.batch f with en := s.dev.hostOk f, ie := ie }) ∧
      (batchSizeOk (s.dev.batch f).size = false → (t.dev.batch f) = { s.dev.batch f with en := false, ie := ie, err := true }) ∧
      t.dev.objs = s.dev.objs) ∧
  (∀ (s : State) (f : Nat), f < 2 → s.dev.pcieUp = true →
    exec (.batchErrorClear f) s = .next { s with dev := s.dev.setBatch f { s.dev.batch f with err := false } })) ∧
  (∀ (s : State) (f readErr : Nat) (desc ops : Bytes) (writeErr : Bool), f < 2 → desc.length = 32 → readErr < 4 →
    let x := s.dev.batch f
    s.dev.pcieUp = true → x.en = true → s.dev.hostOk f = true → x.size ≠ 0 → x.head ≠ x.tail % x.size → oget s.dev.lists f = none →
    let finish := fun (d : Dev) (done : Nat) => State.mk s.pending s.clk (d.after s.clk (batchDone f done))
    let bad : Prop := 2 ^ 20 < beAt desc 8 4 ∨ beAt desc 24 4 < 16
    let stop := byteAt desc 28 % 2 == 1
    let space := beAt desc 24 4 - 16
    let r : ListRun × Dev := ((runList f f none stop space (beAt desc 12 4) (fitTo (beAt desc 8 4) ops) {}).run s.clk).run s.dev
    let q : ListRun × Dev := ((batchCommit f desc r.1).run s.clk).run r.2
    let ans := exec (.batchDescriptor f desc ops readErr writeErr) s
    (0 < readErr → ans = .next (finish (s.dev.after s.clk (dmaReadError f (readErr - 1) 0x1000)) 2)) ∧
    (readErr = 0 → bad → ans = .next (finish s.dev 2)) ∧
    (readErr = 0 → ¬bad → r.1.wait.isSome = true → ans = .next (s.on { r.2 with lists := oset r.2.lists f (some
      { pl := f, core := none, stop := stop, space := space, run := r.1, desc := desc, writeErr := writeErr }) })) ∧
    (readErr = 0 → ¬bad → r.1.wait = none → writeErr = true → ans = .next (finish q.2 2)) ∧
    (readErr = 0 → ¬bad → r.1.wait = none → writeErr = false →
      ans = .next (finish { q.2 with out := q.2.out ++ [.dma (beAt desc 16 8) (batchResults q.1)] } 1))) ∧
  (∀ (c : Clock) (d : Dev) (f done : Nat),
    d.after c (batchDone f done) =
      (({ d with out := d.out ++ [.dma ((d.batch f).base + (d.batch f).head * 32 + 29) [BitVec.ofNat 8 done]] } : Dev).setBatch f
        { d.batch f with head := ((d.batch f).head + 1) % (d.batch f).size }).after c (msixCount (batchVector f)))

/-- A UOP message that is not in its proper form is dropped and counted by its transport. One in its proper form: without a valid session it
is dropped with 0601h kept, with a wrong tag 0602h, with a sequence that may not be accepted 0603h; none of these is answered. A request
equal to the last answered one is answered again. An accepted one becomes H if it is above H, and its operations run; unless they wait for
the flow table, the answer repeats session and sequence and ends with its tag. An answer leaves with room in pool 4 for its frame, on the
port, with the addresses of the request's frame exchanged, or, wrapped as an HDLC frame, the channel of its request; else it waits. A message that a transport delivers: with no core in service it is dropped and
counted, else it passes the rate limits and takes pool 3, and is answered in turn. An HDLC frame is unescaped and checked, and handed over
as such a message; one that is not well formed is dropped and counted. A frame of a port taken for UOP is delivered as its message. -/
def Obligations.UopMessagesAreCarriedAndAnswered : Prop :=
  ((∀ (c : Clock) (d : Dev) (q : UopReq),
    let msg := q.msg
    let sess := beAt msg 2 2
    let seq := beAt msg 4 4
    let len := beAt msg 10 2
    let k := sess - 1
    let proper : Prop := q.badSum = false ∧ byteAt msg 0 = 1 ∧ bitOf (byteAt msg 1) 7 = false ∧ len ≤ 1444 ∧ 28 + len ≤ msg.length ∧
      (q.exact_ = true → msg.length = 28 + len)
    let body := msg.take (28 + len)
    let tagOk : Prop := slice body (12 + len) 16 = uopTag (d.o 0x1140 2 k) (body.take (12 + len))
    let again : Prop := seq = d.o 0x1140 6 k ∧ seq ≠ 0xFFFFFFFF ∧ (d.sessOf k).req = body ∧ (d.sessOf k).resp ≠ []
    let y := d.after c (uopAnswer q)
    (¬proper → y = d.addO 0x1180 (if q.chan = true then 3 else 2) q.num 1) ∧
    (proper → 1 ≤ sess → sess ≤ 64 → d.uopSession q.chan q.num k = false → y.o 0x1140 0xB k = 0x601 ∧ y.out = d.out) ∧
    (proper → 1 ≤ sess → sess ≤ 64 → d.uopSession q.chan q.num k = true → ¬tagOk → y.o 0x1140 0xB k = 0x602 ∧ y.out = d.out ∧
      y.o 0x1140 9 k = countUp 4 (d.o 0x1140 9 k) 1) ∧
    (proper → 1 ≤ sess → sess ≤ 64 → d.uopSession q.chan q.num k = true → tagOk → again → y = d.after c (uopSend q (d.sessOf k).resp)) ∧
    (proper → 1 ≤ sess → sess ≤ 64 → d.uopSession q.chan q.num k = true → tagOk → ¬again → seqOk (d.o 0x1140 6 k) (d.sessOf k).mask seq = false →
      y.o 0x1140 0xB k = 0x603 ∧ y.out = d.out ∧ y.o 0x1140 0xA k = countUp 4 (d.o 0x1140 0xA k) 1) ∧
    (proper → 1 ≤ sess → sess ≤ 64 → d.uopSession q.chan q.num k = true → tagOk → ¬again → seqOk (d.o 0x1140 6 k) (d.sessOf k).mask seq = true →
      (d.uopAccept k seq).o 0x1140 6 k = max (d.o 0x1140 6 k) seq ∧
      y = ((d.uopAccept k seq).after c storeDrive).after c (do
        let r ← runList 2 1 (some (d.sessOf k).core) (bitOf (byteAt msg 1) 6) 1444 (beAt msg 8 2) (slice body 12 len) {}
        uopEnd q (d.o 0x1140 2 k) r))) ∧
  (∀ (c : Clock) (d : Dev) (q : UopReq) (key : Nat) (r : ListRun), r.wait = none → 12 ≤ q.msg.length →
    ∃ head, slice head 2 2 = slice q.msg 2 2 ∧ slice head 4 4 = slice q.msg 4 4 ∧
      let resp := head ++ uopTag key head
      let k := beAt q.msg 2 2 - 1
      d.after c (uopEnd q key r) = (if d.o 0x1140 6 k = beAt q.msg 4 4
        then d.setSess k { d.sessOf k with req := q.msg.take (28 + beAt q.msg 10 2), resp := resp } else d).after c (uopSend q resp)) ∧
  (∀ (c : Clock) (d : Dev) (q : UopReq) (resp : Bytes),
    (q.chan = true → d.after c (uopSend q resp) = d.after c (uopPut q resp [])) ∧
    (q.chan = false →
      let x : Bytes × Dev := ((uopReply q.exact_ q.frame (etherOfs q.frame) resp).run c).run d
      d.after c (uopSend q resp) = x.2.after c (uopPut q resp x.1) ∧ x.2 = { d with free := x.2.free } ∧
        64 ≤ x.1.length ∧ x.1.drop (x.1.length - 4) = fcsBytes (x.1.take (x.1.length - 4)) ∧
        (14 ≤ q.frame.length → x.1.take 12 = slice q.frame 6 6 ++ slice q.frame 0 6))) ∧
  (∀ (c : Clock) (d : Dev) (q : UopReq) (resp frame : Bytes),
    let n := poolUnits (if q.chan = true then resp.length + 8 else frame.length)
    let x : Bool × Dev := ((poolTakeOrStall 4 n).run c).run (d.after c (poolDrain 4))
    let e := x.2.after c (poolKeep 4 n)
    d.after c (uopPut q resp frame) =
      if x.1 = false then { x.2 with yard.uopOut := some (q, resp, frame) }
      else if q.chan = true then
        { e with out := e.out ++ [.uop 1 q.num resp]
                 plumb.dccMgmt := mset (dK []) e.plumb.dccMgmt q.num (mget (dK []) e.plumb.dccMgmt q.num ++ hdlcWrap resp) }
      else { e with out := e.out ++ [.uop 0 q.num resp, .frame q.num frame] })) ∧
  ((∀ (c : Clock) (d : Dev) (q : UopReq),
    let a : Bool × Dev := ((uopRate q.chan q.num).run c).run d
    let b : Bool × Dev := ((poolTakeOrDrop 3 (poolUnits (q.size q.msg q.frame))).run c).run a.2
    d.after c (uopTake q) =
      if d.anyCore = false then d.addO 0x4302 3 3 1 else if a.1 = false then a.2 else if b.1 = false then b.2
      else b.2.after c (uopServeAll (b.2.yard.uopIn ++ [q]))) ∧
  (∀ (c : Clock) (d : Dev) (q : UopReq) (rest : List UopReq),
    (d.uopBusy = true → d.after c (uopServeAll (q :: rest)) = { d with yard.uopIn := q :: rest }) ∧
    (d.uopBusy = false → d.after c (uopServeAll (q :: rest)) =
      (let e := d.poolGive 3 (poolUnits (q.size q.msg q.frame))
       if e.anyCore = true then e.after c (uopAnswer q) else e.addO 0x4302 3 3 1).after c (uopServeAll rest))) ∧
  (∀ (s : State) (c : Nat) (msg : Bytes), c < 256 →
    exec (.uopRequest true c msg) s = .next (if s.dev.o 0x2870 1 c = 1 then
      s.on (s.dev.after s.clk (uopTake { chan := true, num := c, exact_ := true, badSum := false, msg := msg, frame := [] })) else s)) ∧
  (∀ (s : State) (c : Nat) (octets : Bytes), c < 256 → s.dev.o 0x2870 1 c = 1 → octets ≠ [] →
    (hdlcUnescape octets = none → exec (.hdlcFrame c octets) s = .next { s with dev := s.dev.addO 0x1180 3 c 1 }) ∧
    (∀ b, hdlcUnescape octets = some b →
      let good : Prop := 8 ≤ b.length ∧ b.length ≤ 1480 ∧ slice b 0 4 = [0xFF#8, 0x03#8, 0x88#8, 0xB5#8] ∧
        fcsBytes (b.take (b.length - 4)) = b.drop (b.length - 4)
      (good → exec (.hdlcFrame c octets) s = exec (.uopRequest true c (slice b 4 (b.length - 8))) s) ∧
      (¬good → exec (.hdlcFrame c octets) s = .next { s with dev := s.dev.addO 0x1180 3 c 1 }))) ∧
  (∀ (s : State) (p o n : Nat) (b : Bytes), p < 256 → s.dev.receives p = true → 64 ≤ b.length →
    fcsBytes (b.take (b.length - 4)) = b.drop (b.length - 4) → s.dev.uopSpan p b = some (o, n) →
    (beAt b (etherOfs b) 2 = s.dev.o 0x1100 2 → beAt b 0 6 = s.dev.o 0x1100 3 →
      exec (.uopRequest false p b) s = .next (s.on (s.dev.after s.clk
        (uopTake { chan := false, num := p, exact_ := false, badSum := false, msg := slice b o n, frame := b })))) ∧
    ((beAt b (etherOfs b) 2 ≠ s.dev.o 0x1100 2 ∨ beAt b 0 6 ≠ s.dev.o 0x1100 3) →
      let v6 := beAt b (etherOfs b) 2 == 0x86DD
      exec (.uopRequest false p b) s = .next (s.on (s.dev.after s.clk (uopTake
        { chan := false, num := p, exact_ := true, badSum := !udpSumOk b v6 (etherOfs b + 2) (o - 8) (n + 8), msg := slice b o n, frame := b }))))))

/-- Epoch a is higher than epoch b when (a - b) mod 2^32 lies between 1 and 2^31 - 1. When it is 0 or exactly 2^31 the two are tied: neither
is higher. -/
def Obligations.EpochsCompareAsSerialNumbers : Prop :=
  ∀ a b : Nat, a < 2 ^ 32 → b < 2 ^ 32 →
    let k := ((a : Int) - b) % 2 ^ 32
    (epochHigher a b = true ↔ 1 ≤ k ∧ k ≤ 2 ^ 31 - 1) ∧ (epochHigher a b = false ∧ epochHigher b a = false ↔ k = 0 ∨ k = 2 ^ 31)

/-! ### Lanes and ports (03) -/

/-- The receiver of a lane: it detects signal (0 off, 1 no signal, 2 adapting), gains CDR lock (3), adapts (4, unless held), loses CDR lock or
signal. Each writes the lane it names and, where one is lost, ends FEC lock of its port; then the causes of the port are taken anew
(`portEval`). An event that does not fit the state of the lane changes nothing. FEC lock (gained only with every used lane in CDR lock),
deskew, remote and local fault of an enabled port that is not being reconfigured set that flag of the port, and its causes are taken anew;
otherwise nothing changes. The receive clock offset of a second goes to 2400h.06, and beyond 250.0 ppm cut-through is inhibited with event
2407h until 240.0 ppm or less. -/
def Obligations.LanesAndPortsFollowTheirConditions : Prop :=
  ((∀ (s : State) (l : Nat), l < 1024 → s.dev.o 0x2000 1 l = 1 →
      exec (.laneSignalDetect l) s = .next (s.on (
        ((s.dev.setO 0x2000 1 l 2).setLane l { s.dev.lane l with wasUp := false }).after s.clk (portEval (l / 4))))) ∧
    (∀ (s : State) (l : Nat), l < 1024 → s.dev.o 0x2000 1 l ≠ 1 →
      exec (.laneSignalDetect l) s = .next s) ∧
    (∀ (s : State) (l ctle dfe snr : Nat), l < 1024 → ctle ≤ 40 → dfe < 65536 → snr < 2 ^ 32 →
      2 ≤ s.dev.o 0x2000 1 l → ¬(s.dev.o 0x2020 1 l = 2 ∧ (s.dev.lane l).adapted = true) → ¬(s.dev.o 0x2020 1 l = 1 ∧ (s.dev.lane l).wasUp = true) →
      exec (.laneAdaptDone l ctle dfe snr) s = .next (s.on (
        (((((s.dev.setO 0x2020 2 l ctle).setO 0x2020 3 l dfe).setO 0x2020 4 l snr).setO 0x2000 1 l 4).setLane l
          { s.dev.lane l with adapted := true }).after s.clk (portEval (l / 4))))) ∧
    (∀ (s : State) (l ctle dfe snr : Nat), l < 1024 → ctle ≤ 40 → dfe < 65536 → snr < 2 ^ 32 →
      (s.dev.o 0x2000 1 l < 2 ∨ (s.dev.o 0x2020 1 l = 2 ∧ (s.dev.lane l).adapted = true) ∨ (s.dev.o 0x2020 1 l = 1 ∧ (s.dev.lane l).wasUp = true)) →
      exec (.laneAdaptDone l ctle dfe snr) s = .next s) ∧
    (∀ (s : State) (l : Nat), l < 1024 → s.dev.o 0x2000 1 l ≠ 0 →
      exec (.losDeclare l) s = .next (s.on (
        (((s.dev.setO 0x2000 1 l 1).setLane l { s.dev.lane l with los := true, wasUp := false }).after s.clk (cdrLost l)).after s.clk (portEval (l / 4))))) ∧
    (∀ (s : State) (l : Nat), l < 1024 → s.dev.o 0x2000 1 l ≠ 0 →
      exec (.losClear l) s = .next (s.on (
        ((s.dev.setO 0x2000 1 l (max 2 (s.dev.o 0x2000 1 l))).setLane l
          { s.dev.lane l with los := false, wasUp := decide (2 ≤ s.dev.o 0x2000 1 l) && (s.dev.lane l).wasUp }).after s.clk (portEval (l / 4))))) ∧
    (∀ (s : State) (l : Nat), l < 1024 → s.dev.o 0x2000 1 l = 0 → exec (.losDeclare l) s = .next s ∧ exec (.losClear l) s = .next s) ∧
    (∀ (s : State) (l : Nat), l < 1024 → s.dev.o 0x2000 1 l = 2 →
      exec (.cdrLockChange l true) s = .next (s.on (
        (s.dev.setO 0x2000 1 l (if s.dev.holds l = true then 4 else 3)).after s.clk (portEval (l / 4))))) ∧
    (∀ (s : State) (l : Nat), l < 1024 → 3 ≤ s.dev.o 0x2000 1 l →
      exec (.cdrLockChange l false) s = .next (s.on (((s.dev.setO 0x2000 1 l 2).after s.clk (cdrLost l)).after s.clk (portEval (l / 4))))) ∧
    (∀ (s : State) (l : Nat), l < 1024 → (s.dev.o 0x2000 1 l ≠ 2 → exec (.cdrLockChange l true) s = .next s) ∧
      (s.dev.o 0x2000 1 l < 3 → exec (.cdrLockChange l false) s = .next s)) ∧
    (∀ (c : Clock) (d : Dev) (l : Nat), d.after c (cdrLost l) =
      if (d.lanesOf (l / 4)).contains l then d.setPort (l / 4) { d.port (l / 4) with fecLock := false } else d)) ∧
  ((∀ (s : State) (p : Nat) (on : Bool), p < 256 →
      let live : Prop := s.dev.oB 0x2400 2 p = true ∧ s.dev.o 0x2400 3 p ≠ 7
      let put : PortSt → Host.Outcome State Fault Refusal := fun x => .next (s.on ((s.dev.setPort p x).after s.clk (portEval p)))
      let x := s.dev.port p
      let locked : Bool := (s.dev.lanesOf p).all (fun l => decide (3 ≤ s.dev.o 0x2000 1 l))
      (live → (on = true → locked = true) → exec (.fecLockChange p on) s = put { x with fecLock := on }) ∧
      (on = true → locked = false → exec (.fecLockChange p on) s = .next s) ∧
      (live → exec (.deskewFault p on) s = put { x with deskew := on }) ∧ (live → exec (.remoteFaultRx p on) s = put { x with remote := on }) ∧
      (live → exec (.localFaultRx p on) s = put { x with localF := on }) ∧
      (¬live → exec (.fecLockChange p on) s = .next s ∧ exec (.deskewFault p on) s = .next s ∧ exec (.remoteFaultRx p on) s = .next s ∧
        exec (.localFaultRx p on) s = .next s)) ∧
    (∀ (s : State) (p : Nat) (x : Int), p < 256 → -32768 ≤ x → x ≤ 32767 →
      let d := s.dev.setO 0x2400 6 p (ofS 16 x)
      exec (.rxPpmMeasure p x) s = .next (s.on (
        if 2500 < x.natAbs then (d.setO 0x2400 7 p 1).after s.clk (raiseEv p 0x2407 2 (ofS 32 x) 0 0)
        else if x.natAbs ≤ 2400 then d.setO 0x2400 7 p 0 else d))))

/-- Enabling or disabling a port writes 2400h.02 and brings islands, lanes and causes in line; the up-hold expires into state 3, where no
cause stands; the down hold-off expires into a declared down; the end of a mode change enters state 1 with the lanes of the new mode. Out
of its state none of these does anything. Every millisecond the figure of a port decays by one evaluation and 2410h.09 shows its whole
part; a suppressed port whose figure is at or below the reuse value goes to up-hold or state 1. Writing false to 2410h.03 zeroes the
figure and releases the port. Error injection inverts a bit of the next symbols that the generator of the lane sends, or notes their number
while the generator is off; a checker whose pattern is set gains lock, and
its loss brings what it compared into the counts and raises 2003h of the port with the errors counted. -/
def Obligations.PortsAreAdministered : Prop :=
  ((∀ (s : State) (w : Nat) (p : Nat) (on : Bool), w < 8 → p < 256 → s.writable w (okey 0x2400 2 p) (toBytes 1 on.toNat) →
      exec (.portAdmin w p on) s = .next (s.wrote w (okey 0x2400 2 p) (toBytes 1 on.toNat) 0 (fun d => (d.setO 0x2400 2 p on.toNat).after s.clk (adminChanged p)))) ∧
    (∀ (s : State) (p : Nat), p < 256 → s.dev.o 0x2400 3 p = 2 → s.dev.o 0x2440 1 p = 0 →
      exec (.upHoldExpiry p) s = .next (s.on (s.dev.after s.clk (setState p 3)))) ∧
    (∀ (s : State) (p : Nat), p < 256 → s.dev.o 0x2400 3 p = 4 →
      exec (.downHoldoffExpiry p) s = .next (s.on (s.dev.after s.clk (declareDown p)))) ∧
    (∀ (s : State) (p : Nat), p < 256 → s.dev.o 0x2400 3 p = 7 →
      exec (.reconfigureDone p) s = .next (s.on (
        (((s.dev.after s.clk (setState p 1)).after s.clk (lanesPower p)).setTxLine p {}).after s.clk (portEval p)))) ∧
    (∀ (s : State) (p : Nat), p < 256 → (¬(s.dev.o 0x2400 3 p = 2 ∧ s.dev.o 0x2440 1 p = 0) → exec (.upHoldExpiry p) s = .next s) ∧
      (s.dev.o 0x2400 3 p ≠ 4 → exec (.downHoldoffExpiry p) s = .next s) ∧ (s.dev.o 0x2400 3 p ≠ 7 → exec (.reconfigureDone p) s = .next s))) ∧
  ((∀ (s : State) (p : Nat), p < 256 →
      let d := s.dev.setPort p (let x := s.dev.port p; if x.figBase = 0 then x else { x with figTicks := x.figTicks + 1 })
      let e := d.setO 0x2410 9 p (d.figure p / figUnit)
      exec (.dampTick p) s = .next (s.on (
        if e.o 0x2400 3 p = 5 ∧ d.figure p ≤ figUnit * e.o 0x2410 7 p then e.after s.clk (unsuppress p (d.figure p / figUnit)) else e))) ∧
    (∀ (s : State) (w : Nat) (p : Nat), w < 8 → p < 256 → s.writable w (okey 0x2410 3 p) (toBytes 1 0) →
      exec (.dampDisable w p) s = .next (s.wrote w (okey 0x2410 3 p) (toBytes 1 0) 0 (fun d =>
        let e := (d.setO 0x2410 3 p 0).after s.clk (setFigure p 0)
        if e.o 0x2400 3 p = 5 then e.after s.clk (unsuppress p 0) else e))) ∧
    (∀ (c : Clock) (d : Dev) (p f : Nat),
      let e := d.after c (setFigure p f)
      e.figure p = f ∧ e.o 0x2410 9 p = f / figUnit ∧ e.o 0x2400 3 p = d.o 0x2400 3 p)) ∧
  ((∀ (s : State) (w : Nat) (l n : Nat), w < 8 → l < 1024 → n < 65536 → s.writable w (okey 0x2040 6 l) (toBytes 2 n) →
      exec (.errInject w l n) s = .next (s.wrote w (okey 0x2040 6 l) (toBytes 2 n) 0 (fun d =>
        if d.o 0x2040 1 l = 0 then d.setLane l { d.lane l with inject := n } else { d with out := d.out ++ [.symbolErrors l n] }))) ∧
    (∀ (s : State) (l : Nat), l < 1024 →
      exec (.chkLockAcquire l) s = .next (if s.dev.o 0x2040 2 l = 0 then s else s.on (s.dev.setO 0x2040 3 l 1))) ∧
    (∀ (s : State) (l : Nat), l < 1024 → s.dev.oB 0x2040 3 l = false →
      exec (.chkLockLoss l) s = .next s) ∧
    (∀ (s : State) (l : Nat), l < 1024 → s.dev.oB 0x2040 3 l = true →
      let d := s.dev
      let e := (({ d with free := d.free + 2 } : Dev).addO 0x2040 4 l (Config.freeValue d.free)).addO 0x2040 5 l (Config.freeValue (d.free + 1))
      let g := e.setO 0x2040 3 l 0
      exec (.chkLockLoss l) s = .next (s.on (g.after s.clk (raiseEv (l / 4) 0x2003 1 l (d.o 0x2040 2 l) (e.o 0x2040 5 l))))))

/-! ### Time (04) -/

/-- An offset written to 1820h.02 acts where the servo runs, PPS_IN is not its source and the data plane is not resetting; else it
changes nothing but 1460h.06. In state 2, an
offset within the jump threshold adds to the integrator and gives the correction, both limited; one beyond is refused and counted, and the
correction stays; the limit of refusals in a row enters holdover. Writing the servo mode (a pegged object) clears the integrator: mode 2
puts the set correction in force and enters state 2, mode 0 corrects nothing and enters state 0, mode 1 re-acquires. The feed timing out
in mode 1, in state 1 or 2, enters holdover with the mean correction of the last minute. -/
def Obligations.ServoAndTimeBaseMove : Prop :=
  ((∀ (s : State) (w o : Nat), w < 8 → o < 2 ^ 64 → s.writable w (okey 0x1820 2 0) (toBytes 8 o) →
    exec (.offsetIn w o) s = .next (s.wrote w (okey 0x1820 2 0) (toBytes 8 o) 0 fun d =>
      (d.setO 0x1460 6 0 0xFF).after s.clk (Sys2Proof.Machine.offsetIn (toS 64 o)))) ∧
  (∀ (c : Clock) (d : Dev) (o : Int), (d.o 0x1820 13 ≠ 0 ∨ d.o 0x1820 1 ≠ 1 ∨ d.o 0x7000 2 = 3) → d.after c (Sys2Proof.Machine.offsetIn o) = d) ∧
  (∀ (c : Clock) (d : Dev) (o : Int), d.o 0x1820 13 = 0 → d.o 0x1820 1 = 1 → d.o 0x7000 2 ≠ 3 → d.o 0x1800 2 = 2 →
    let e := d.after c (Sys2Proof.Machine.offsetIn o)
    let lim : Int → Int := clampI (-(200000 * 2 ^ 32)) (200000 * 2 ^ 32)
    (o.natAbs ≤ d.o 0x1820 5 * 65536 →
      e.time.integ = lim (d.time.integ - d.o 0x1820 4 * o) ∧ e.time.freq = lim (e.time.integ - d.o 0x1820 3 * o) ∧ e.time.consec = 0 ∧
      e.o 0x1820 8 = ofS 32 (e.time.freq / 2 ^ 32) ∧ e.o 0x1820 11 = ofS 64 o ∧ e.o 0x1800 2 = 2) ∧
    (d.o 0x1820 5 * 65536 < o.natAbs → d.time.consec + 1 < d.o 0x1820 6 →
      e.time.integ = d.time.integ ∧ e.time.freq = d.time.freq ∧ e.time.consec = d.time.consec + 1 ∧ e.o 0x1800 2 = 2 ∧
      e.o 0x1820 12 = countUp 4 (d.o 0x1820 12) 1) ∧
    (d.o 0x1820 5 * 65536 < o.natAbs → d.o 0x1820 6 ≤ d.time.consec + 1 → e.o 0x1800 2 = 3))) ∧
  ((∀ (s : State) (w mode : Nat), w < 8 → mode < 256 → s.writable w (okey 0x1820 1 0) (toBytes 1 mode) → s.dev.commitsFull = false →
    s.dev.o 0x7010 1 678 < 3 →
    ∃ e : Dev, exec (.servoModeWrite w mode) s = .next (s.wrote w (okey 0x1820 1 0) (toBytes 1 mode) 0 fun _ => e.after s.clk (servoMode mode)) ∧
      e.o 0x1820 1 = mode ∧ e.dict.epoch = s.dev.dict.epoch + 1 ∧ e.time = s.dev.time) ∧
  (∀ (c : Clock) (d : Dev),
    let e0 := d.after c (servoMode 0)
    let e1 := d.after c (servoMode 1)
    let e2 := d.after c (servoMode 2)
    (e0.o 0x1800 2 = 0 ∧ e0.time.freq = 0 ∧ e0.time.integ = 0 ∧ e0.time.ppsOut = (if d.o 0x1800 2 = 0 then d.time.ppsOut else false)) ∧
    (e1.time.integ = 0 ∧ e1.time.freq = d.time.freq ∧ e1.o 0x1800 2 = (if d.o 0x1800 2 = 2 then 1 else d.o 0x1800 2)) ∧
    (e2.o 0x1800 2 = 2 ∧ e2.time.integ = 0 ∧ e2.time.freq = clampI (-(200000 * 2 ^ 32)) (200000 * 2 ^ 32) (d.oS 32 0x1820 9 * 2 ^ 32))) ∧
  (∀ (s : State), (s.dev.o 0x1820 1 = 1 → (s.dev.o 0x1800 2 = 1 ∨ s.dev.o 0x1800 2 = 2) →
      ∃ t, exec .feedTimeout s = .next t ∧ t.dev.o 0x1800 2 = 3 ∧ t.dev.o 0x1800 3 = s.dev.o 0x1800 3 ∧
        (s.dev.o 0x1800 2 = 1 → t.dev.time.freq = clampI (-(200000 * 2 ^ 32)) (200000 * 2 ^ 32) s.dev.time.holdover)) ∧
    (s.dev.o 0x1820 1 ≠ 1 ∨ (s.dev.o 0x1800 2 ≠ 1 ∧ s.dev.o 0x1800 2 ≠ 2) → exec .feedTimeout s = .next s)))

/-- A reference that fails or becomes good is noted with its cause (2: good), and the reference that the mode asks for is selected: each
switch is counted and recorded, and no usable reference means holdover. A return to A after the revert wait is made only in the automatic
mode, from a good A. The oldest Reflection of a port is delivered to the time-stamp ring where it runs and has room, or to the management
core of the servo where that is in service, through pool 2; with no core in service it is dropped and counted, and otherwise it waits.
PPS_OUT rises only where it is enabled, time is valid and the data plane is not resetting, at a whole second plus its offset; it falls at
its width, within 2 ns, and where it may be high no more. An absent PPS_IN
is recorded with the seconds since its last edge. -/
def Obligations.ReferenceReflectionsAndPps : Prop :=
  ((∀ (s : State) (r cause : Nat), r < 2 → cause < 2 →
    exec (.refFail r cause) s = .next (s.on ((s.dev.setO 0x1802 3 r cause).after s.clk (refSelect cause))) ∧
    exec (.refGood r) s = .next (s.on ((s.dev.setO 0x1802 3 r 2).after s.clk (refSelect 2)))) ∧
  (∀ (s : State), exec .refRevertExpiry s = .next (
    if s.dev.o 0x1802 1 = 2 ∧ s.dev.o 0x1802 2 = 1 ∧ s.dev.o 0x1802 3 0 = 2 then s.on (s.dev.after s.clk (refSwitch 0 2)) else s)) ∧
  (∀ (c : Clock) (d : Dev) (new cause : Nat),
    let e := d.after c (refSwitch new cause)
    (d.o 0x1802 2 = new → e = d) ∧
    (d.o 0x1802 2 ≠ new → e.o 0x1802 2 = new ∧ e.o 0x1802 5 = countUp 4 (d.o 0x1802 5) 1 ∧
      e.o 0x1800 2 = (if new = 2 then 3 else d.o 0x1800 2))) ∧
  (∀ (c : Clock) (d : Dev) (cause : Nat),
    let e := d.after c (refSelect cause)
    (d.o 0x1802 1 < 2 → e.o 0x1802 2 = (if d.o 0x1802 3 (d.o 0x1802 1) = 2 then d.o 0x1802 1 else 2)) ∧
    (d.o 0x1802 1 = 2 → d.o 0x1802 2 < 2 → d.o 0x1802 3 (d.o 0x1802 2) = 2 → e = d) ∧
    (d.o 0x1802 1 = 2 → d.o 0x1802 2 = 0 → d.o 0x1802 3 0 ≠ 2 → d.o 0x1802 3 1 = 2 → e.o 0x1802 2 = 1) ∧
    (d.o 0x1802 1 = 2 → d.o 0x1802 3 0 ≠ 2 → d.o 0x1802 3 1 ≠ 2 → e.o 0x1802 2 = 2))) ∧
  ((∀ (s : State) (p : Nat), p < 256 →
    let d := s.dev
    let q := mget (dK []) d.time.refl p
    let x := d.ring 32
    let ready : Prop := x.running = true ∧ x.size ≠ 0 ∧ (x.head + 1) % x.size ≠ x.seen
    let gone : Dev → Bytes → List Bytes → State := fun e _ r =>
      s.on (({ e with time.refl := mset (dK []) e.time.refl p r } : Dev).addO 0x1830 3 p 1)
    (q = [] → exec (.tsReflDeliver p) s = .next s) ∧
    (∀ b r, q = b :: r → d.o 0x1830 5 p = 0 → ready →
      exec (.tsReflDeliver p) s = .next (gone (d.after s.clk (ringAdvance 32 0 (b ++ toBytes 8 0))) b r)) ∧
    (∀ b r, q = b :: r → d.o 0x1830 5 p = 0 → ¬ready → exec (.tsReflDeliver p) s = .next s) ∧
    (∀ b r, q = b :: r → d.o 0x1830 5 p ≠ 0 → d.anyCore = true → d.inService (d.o 0x1460 6) = true →
      let y : Bool × Dev := ((toManagement b).run s.clk).run { d with time.refl := mset (dK []) d.time.refl p r }
      exec (.tsReflDeliver p) s = .next (s.on (if y.1 = true then y.2.addO 0x1830 3 p 1 else y.2))) ∧
    (∀ b r, q = b :: r → d.o 0x1830 5 p ≠ 0 → d.anyCore = false →
      exec (.tsReflDeliver p) s = .next (s.on (({ d with time.refl := mset (dK []) d.time.refl p r } : Dev).addO 0x4302 3 2 1))) ∧
    (∀ b r, q = b :: r → d.o 0x1830 5 p ≠ 0 → d.anyCore = true → d.inService (d.o 0x1460 6) = false → exec (.tsReflDeliver p) s = .next s)) ∧
  (∀ (c : Clock) (d : Dev) (b : Bytes), d.anyCore = true →
    let n := poolUnits b.length
    let x : Bool × Dev := ((poolTakeOrDrop 2 n).run c).run (d.after c (poolDrain 2))
    ((toManagement b).run c).run d = (x.1, if x.1 = true then
      ({ x.2.after c (poolKeep 2 n) with out := x.2.out ++ [.mgmt b] } : Dev) else x.2)) ∧
  (∀ (s : State) (rise : Bool), ∃ t, exec (.ppsOutEdge rise) s = .next t ∧ t = s.on { s.dev with time := { s.dev.time with ppsOut := t.dev.time.ppsOut, ppsRise := t.dev.time.ppsRise } } ∧
    (rise = true → (t.dev.time.ppsOut = true ↔ s.dev.time.ppsOut = true ∨ (s.dev.ppsOn = true ∧ s.dev.ppsDue s.clk = true))) ∧
    (rise = true → t.dev.time.ppsRise = (if s.dev.time.ppsOut = false ∧ s.dev.ppsOn = true ∧ s.dev.ppsDue s.clk = true then s.clk.run else s.dev.time.ppsRise)) ∧
    (rise = false → (t.dev.time.ppsOut = true ↔ s.dev.time.ppsOut = true ∧ s.dev.ppsOn = true ∧
      s.clk.run + 2 * uNs < s.dev.time.ppsRise + s.dev.o 0x1840 3 * uUs)) ∧
    (rise = false → t.dev.time.ppsRise = s.dev.time.ppsRise)) ∧
  (∀ (s : State), exec .ppsInAbsent s = .next (s.on (s.dev.after s.clk
    (raiseEv 531 0x1807 2 ((s.clk.run - s.dev.time.ppsLast) / uS) (s.dev.o 0x28E0 5 8) 0)))))

/-- A step of network time is refused with 0701h while one is pending; else it is accepted with a change instant on a whole millisecond at or
after the lead of 1801h.04, applied no earlier. When applied, a relative step moves network time by its amount and an absolute one sets
it; nothing is pending then, and the time base re-acquires. -/
def Obligations.StepRequestedThenApplied : Prop :=
  (∀ (s : State) (w v : Nat) (abs : Bool), w < 8 → v < (if abs then 2 ^ 80 else 2 ^ 64) →
    let key := if abs then okey 0x1801 2 0 else okey 0x1801 1 0
    let data := if abs then toBytes 10 v else toBytes 8 v
    let cmd := if abs then Instr.stepSet w v else Instr.stepDelta w v
    s.writable w key data →
    (s.dev.time.step.isSome = true → exec cmd s = .next (s.wrote w key data 0x701 id)) ∧
    (s.dev.time.step = none → ∃ t x, exec cmd s = .next t ∧ (t.dev.win w).status = 0 ∧ t.clk = s.clk ∧ t.dev.o 0x1801 3 = 1 ∧
      t.dev.time.step = some x ∧ x.plane = w / 4 ∧ x.absolute = abs ∧ x.amount = (if abs then ofT80 v else v) ∧
      x.instant % uMs = 0 ∧ s.clk.net + s.dev.o 0x1801 4 * uUs ≤ x.instant ∧ x.instant < s.clk.net + s.dev.o 0x1801 4 * uUs + uMs ∧
      x.instant ≤ x.apply)) ∧
  (∀ (s : State) (x : Step), s.dev.time.step = some x →
    ∃ t, exec .stepApply s = .next t ∧ t.dev.time.step = none ∧ t.dev.o 0x1801 3 = 0 ∧ t.dev.o 0x1800 2 = 1 ∧ t.dev.o 0x1800 3 = 1 ∧
      t.clk.dev = s.clk.dev ∧ t.clk.run = s.clk.run ∧
      t.clk.net = (if x.absolute then (x.amount : Int) else (s.clk.net : Int) + toS 64 x.amount).toNat % (2 ^ 48 * uS)) ∧
  (∀ (s : State), s.dev.time.step = none → exec .stepApply s = .next s)

/-! ### Slotted transport (05) -/

/-- A frame at the expected position of a line that is enabled: under a port fault it does nothing; a searching line is aligned
by two frames in a row with correct alignment bytes and consecutive multiframe numbers, and the connections sent on it are then to be
established anew; an aligned line takes the frame, and loses
alignment with the third in a row whose alignment bytes are missing. A slotted line that transmits sends one frame of its units and 1,024
rounds of its slots, and its multiframe number goes up by one; a line that does not transmit sends nothing. The members of a bonded group
that transmit send together, with the first of them; the others send nothing. -/
def Obligations.PlumbFramesAreReceivedAndSent : Prop :=
  (∀ (s : State) (p : Nat) (blocks : List Nat), p < 256 →
    let d := s.dev
    let on : Prop := d.slotted p = true ∧ d.oB 0x2400 2 p = true ∧ d.o 0x2400 3 p ≠ 6 ∧ d.o 0x2400 3 p ≠ 7
    let k := d.slotsOf p / 20
    let b := blocks.toArray
    let h := frameHead k b
    let l := d.rxLine p
    let fault := bitOf (d.o 0x2880 1 p) 0
    let ans := exec (.plumbFrameRx p blocks) s
    (¬on → ans = .next s) ∧
    (on → fault = true → ans = .next s) ∧
    (on → fault = false → d.o 0x2800 1 p ≠ 2 → h.1 = true → h.2.1 = true → l.cand = some ((h.2.2 + 31) % 32) →
      let e := (((d.setO 0x2800 1 p 2).setRxLine p { l with cand := none, miss := 0, lomBad := 0, lomOk := 0, mfn := h.2.2, hist := [], bips := unitBips k b }).after
        s.clk (setLineDef p (setBit (d.o 0x2880 1 p) 1 false))).after s.clk (ssfUpdate p)
      ans = .next (s.on { e with plumb.txTribs := e.plumb.txTribs.map (fun x =>
        if (e.lineOf p).contains (x.1 / 160) then (x.1, { x.2 with src := none, fifo := [] }) else x) })) ∧
    (on → fault = false → d.o 0x2800 1 p ≠ 2 → ¬(h.1 = true ∧ h.2.1 = true ∧ l.cand = some ((h.2.2 + 31) % 32)) →
      ans = .next (s.on (d.setRxLine p { l with cand := if h.1 = true ∧ h.2.1 = true then some h.2.2 else none }))) ∧
    (on → fault = false → d.o 0x2800 1 p = 2 → h.1 = false → 2 ≤ l.miss →
      ans = .next (s.on ((((d.setRxLine p { l with miss := 0 }).after s.clk
        (setLineDef p (setBit (d.o 0x2880 1 p) 1 true))).after s.clk (lineLost p)).after s.clk (ssfUpdate p)))) ∧
    (on → fault = false → d.o 0x2800 1 p = 2 → (h.1 = true ∨ l.miss < 2) → ans = .next (s.on (d.after s.clk (alignedFrame p k blocks b))))) ∧
  ((∀ (s : State) (p : Nat), p < 256 →
    ¬(s.dev.slotted p = true ∧ s.dev.txStopped p = false ∧ s.dev.oB 0x2400 2 p = true ∧ s.dev.o 0x2400 3 p ≠ 7) →
    exec (.plumbFrameTx p) s = .next s) ∧
  (∀ (s : State) (p : Nat), p < 256 → s.dev.slotted p = true → s.dev.txStopped p = false → s.dev.oB 0x2400 2 p = true → s.dev.o 0x2400 3 p ≠ 7 →
    s.dev.lineOf p = [p] →
    ∃ t blocks, exec (.plumbFrameTx p) s = .next t ∧ t.dev.out = s.dev.out ++ [.plumb p blocks] ∧
      blocks.length = s.dev.slotsOf p / 20 + 1024 * s.dev.slotsOf p ∧ (t.dev.txLine p).mfn = ((s.dev.txLine p).mfn + 1) % 32) ∧
  (∀ (s : State) (p : Nat), p < 256 → s.dev.plumbSends p = true →
    let live := (s.dev.lineOf p).filter s.dev.plumbSends
    (live.headD p ≠ p → exec (.plumbFrameTx p) s = .next s) ∧
    (live.headD p = p → ∃ t, exec (.plumbFrameTx p) s = .next t ∧ t.dev.out.take s.dev.out.length = s.dev.out ∧
      (t.dev.out.drop s.dev.out.length).filterMap (fun x => match x with | .plumb q _ => some q | _ => none) = live)))

/-- A connection page swaps once its announcement has run and its trigger has come, with those of the other members of its bonded group; while
a shrinking packet client holds a bounded frame they are deferred; before that, or with no commit that covers it, nothing happens. A receive-map write to the page in use returns 0402h and
changes nothing. A stalled overhead processor passes no bytes; else it sends one frame of 80 octets. -/
def Obligations.ConnectionPagesSwapWhenDue : Prop :=
  (∀ (s : State) (p : Nat), p < 256 →
    (s.dev.pendingPart 0x0A (1 + p) = none → exec (.cmPageSwap p) s = .next s) ∧
    (s.dev.pageDue s.clk p = false → exec (.cmPageSwap p) s = .next s) ∧
    (∀ e, s.dev.pendingPart 0x0A (1 + p) = some e →
      let ports := p :: (s.dev.lineOf p).filter (fun q => q != p && s.dev.pendingPart 0x0A (1 + q) == some e)
      let holds : Prop := ∃ q ∈ ports, s.dev.slotted q = true ∧ s.dev.oB 0x2400 2 q = true ∧ (s.dev.shrinks q s.clk.dev).isSome = true
      ((∃ q ∈ ports, s.dev.pageDue s.clk q = false) → exec (.cmPageSwap p) s = .next s) ∧
      ((∀ q ∈ ports, s.dev.pageDue s.clk q = true) → holds → ∃ t, exec (.cmPageSwap p) s = .next t ∧ t.dev.objs = s.dev.objs ∧
        t.dev.dict = s.dev.dict ∧ (∀ q ∈ ports, (t.dev.txLine q).deferred = some ((s.dev.txLine q).deferred.getD s.clk.run) ∧
          (t.dev.txLine q).deferKey = (ports.findSome? (fun x => s.dev.shrinks x s.clk.dev)).getD 0)) ∧
      ((∀ q ∈ ports, s.dev.pageDue s.clk q = true) → ¬holds →
        exec (.cmPageSwap p) s = .next (s.on (s.dev.after s.clk (pageSwapGo ports e)))))) ∧
  (∀ (s : State) (w sub e v : Nat), w < 8 → 1 ≤ sub → sub ≤ 4 → e < 40960 → v < (if sub % 2 = 1 then 256 else 65536) →
    let key := okey 0x2820 sub e
    let data := toBytes (if sub % 2 = 1 then 1 else 2) v
    s.writable w key data →
    (s.dev.o 0x2800 2 (e / 160) = (sub - 1) / 2 → exec (.rxMapWrite w sub e v) s = .next (s.wrote w key data 0x402 id)) ∧
    (s.dev.o 0x2800 2 (e / 160) ≠ (sub - 1) / 2 →
      exec (.rxMapWrite w sub e v) s = .next (s.wrote w key data 0 fun d => (d.setO 0x2820 sub e v).after s.clk recheck))) ∧
  (∀ (s : State) (n : Nat) (rx : Bytes), n < 8 → (3 ≤ s.dev.o 0x7010 1 676 → exec (.ohpFrame n rx) s = .next s) ∧
    (s.dev.o 0x7010 1 676 < 3 → ∃ t b, exec (.ohpFrame n rx) s = .next t ∧ t.dev.out = s.dev.out ++ [.ohp n b] ∧ b.length = 80))

/-! ### Maintenance, protection, inputs (06) -/

/-- At the end of a degrade window of a line, the estimate goes to 2880h.04 where the window counts, the window is emptied (the next one counts
for nothing while LOF or PHY holds), SD of the defects
is what the windows so far give, and its rise raises 2812h with the estimate and the exponent; a tributary likewise in 2881h. A 15-minute
or 24-hour bin that has ended closes into the front of its history, and every older bin moves one place on; with no ended bin nothing
changes. A second of a line that is not monitored stops its counts, and its bins end on time. A monitored one is SES where SF held or 30% of the frames were errored,
else ES where one was, and counts in both bins, or as unavailable while the line is unavailable; the tenth SES in a row begins
unavailability, and the tenth second without SES ends it. -/
def Obligations.DefectsCloseIntoBinsAndSeconds : Prop :=
  (∀ (s : State) (trib : Bool) (id : Nat), id < (if trib then 40960 else 256) →
    let d := s.dev
    let ix := if trib then 0x2881 else 0x2880
    let was := d.o ix 1 id
    let n := d.o ix 5 id
    let par := if trib then (d.rxTrib id).parity else (d.rxLine id).parity
    let b := if trib then 1024 * (d.rxTrib id).slots.length - 1 else 20481
    let x := par.endWin b n (bitOf was 7)
    let gone : Bool := (if trib then nub ((d.rxTrib id).slots.map (· / 160)) else [id]).any (fun p => d.o 0x2880 1 p &&& 3 != 0)
    let y := if gone then x.1.spoil else x.1
    let e := if trib then d.setRxTrib id { d.rxTrib id with parity := y } else d.setRxLine id { d.rxLine id with parity := y }
    let f := match x.2.1 with | some v => e.setO ix 4 id v | none => e
    let g := f.after s.clk (if trib then setTribDef id (setBit was 9 x.2.2) else setLineDef id (setBit was 9 x.2.2))
    exec (.berWindowEnd trib id) s = .next (s.on (
      if x.2.2 = true ∧ bitOf was 9 = false then g.after s.clk (raiseEv (if trib then 471 else id) 0x2812 1 id (x.2.1.getD 0) n) else g)) ∧
    (par.winBad = false → par.winFrames ≠ 0 → par.win = [] → x.2.1 = some 0) ∧ (par.winBad = true → x.2.1 = none) ∧
    x.1.win = [] ∧ x.1.winFrames = 0 ∧ x.1.winBad = false ∧ x.1.mf = par.mf) ∧
  (∀ (s : State) (trib : Bool) (id : Nat) (day : Bool), id < (if trib then 40960 else 256) →
    let i := if trib then 256 + id else id
    let x := s.dev.pm i
    let n := if day then 7 else 96
    let ix := (if trib then 0x28A1 else 0x2891) + (if day then 1 else 0)
    ((if day then x.old24 else x.old15) = none → exec (.pmBinClose trib id day) s = .next s) ∧
    (∀ b end_, (if day then x.old24 else x.old15) = some (b, end_) → ∃ t, exec (.pmBinClose trib id day) s = .next t ∧
      t.dev.pm i = (if day then { x with old24 := none } else { x with old15 := none }) ∧
      t.dev.o ix 1 (id * n) = b.es ∧ t.dev.o ix 2 (id * n) = b.ses ∧ t.dev.o ix 3 (id * n) = b.uas ∧ t.dev.o ix 4 (id * n) = ofBool b.suspect ∧
      t.dev.o ix 5 (id * n) = toT80 end_ ∧
      (∀ k sub, k + 1 < n → 1 ≤ sub → sub ≤ 5 → t.dev.o ix sub (id * n + k + 1) = s.dev.o ix sub (id * n + k)) ∧
      (∀ ix' sub j, ix' ≠ ix → ix' < 65536 → t.dev.o ix' sub j = s.dev.o ix' sub j))) ∧
  ((∀ (s : State) (p : Nat), p < 256 → s.dev.slotted p = false →
    let sec := ((if s.dev.oB 0x1800 3 = true then s.clk.net else s.clk.dev) + uS / 2) / uS
    exec (.pmSecond false p) s = .next (s.on (s.dev.setPm p
      (({ s.dev.pm p with stopped := true, frames := 0, errored := 0, sf := false, secs := [] } : PmSt).binsEnd sec)))) ∧
  (∀ (s : State) (p : Nat), p < 256 → s.dev.slotted p = true →
    let x := s.dev.pm p
    let sf := bitOf (s.dev.o 0x2880 1 p) 8
    let cls := if x.sf = true ∨ sf = true ∨ (0 < x.frames ∧ 3 * x.frames ≤ 10 * x.errored) then 2 else if 0 < x.errored then 1 else 0
    let last := ((⟨cls, true, true⟩ : PmSec) :: x.secs).take 10
    let time := if s.dev.oB 0x1800 3 = true then s.clk.net else s.clk.dev
    ∃ t, exec (.pmSecond false p) s = .next t ∧ t.clk = s.clk ∧ t.pending = s.pending ∧
      let y := t.dev.pm p
      y.frames = 0 ∧ y.errored = 0 ∧ y.stopped = false ∧ y.sf = sf ∧ y.secs.map PmSec.cls = last.map PmSec.cls ∧
      (s.dev.o 0x2890 8 p = 0 → last.length = 10 → (∀ z ∈ last, z.cls = 2) → t.dev.o 0x2890 8 p = 1) ∧
      (s.dev.o 0x2890 8 p ≠ 0 → last.length = 10 → (∀ z ∈ last, z.cls ≠ 2) → t.dev.o 0x2890 8 p = 0) ∧
      (¬(last.length = 10 ∧ ((s.dev.o 0x2890 8 p = 0 ∧ ∀ z ∈ last, z.cls = 2) ∨ (s.dev.o 0x2890 8 p ≠ 0 ∧ ∀ z ∈ last, z.cls ≠ 2))) →
        t.dev.o 0x2890 8 p = s.dev.o 0x2890 8 p ∧
        (((time + uS / 2) / uS) % 900 ≠ 0 → y.cur15.es = x.cur15.es + (if s.dev.o 0x2890 8 p = 0 ∧ cls = 1 then 1 else 0) ∧
          y.cur15.ses = x.cur15.ses + (if s.dev.o 0x2890 8 p = 0 ∧ cls = 2 then 1 else 0) ∧
          y.cur15.uas = x.cur15.uas + (if s.dev.o 0x2890 8 p = 0 then 0 else 1)))))

/-- Protection commands: clear, lockout, forced switch and manual switches place or remove the request they name and return 0000h; a group out
of service, or a manual switch below a higher request, returns 0302h and changes nothing. The hold-off raises the failures it waited for;
wait-to-restore ends; a protocol mismatch held, or the cause noted gone, sets or clears 28C1h.08. Each is followed by the evaluation of the group. A raw
change of an input is dated, and the change that exceeds the chatter limit within a second freezes it with event 2817h; a level that has
held becomes the confirmed level, dated by its raw edge, and acts unless the input is frozen or stuck; a frozen input with no more changes
in the last second than its limit is released to its confirmed level; one
asserted beyond its watchdog is stuck and acts as inactive; a stuck one that is inactive is released. -/
def Obligations.ProtectionAndInputsAct : Prop :=
  ((∀ (s : State) (w g cmd : Nat), w < 8 → g < 1024 → cmd ≤ 4 →
    let c := if cmd = 0 then Instr.pgClear w g else if cmd = 1 then Instr.pgLockout w g else if cmd = 2 then Instr.pgForcedSwitch w g
      else if cmd = 3 then Instr.pgManualProtect w g else Instr.pgManualWorking w g
    let key := okey 0x28C1 1 g
    let data := toBytes 1 cmd
    let d := s.dev
    let x := d.pg g
    let add := fun (n : Nat) (d : Dev) => (d.setPg g { x with cmd := if x.cmd.contains n then x.cmd else n :: x.cmd }).after s.clk (pgEval g)
    let above : Prop := 7 < (d.pgTop g (d.pgConditions g) (d.pgFar g)).2 ∨ 7 < d.pgFar g ∨ d.pgDefect g (d.o 0x28C0 3 g) 9 = true
    let holds : Prop := d.oB 0x28C0 5 g = false ∧ d.o 0x28C1 5 g = 1 ∧ x.dec ≤ 2
    let ans := fun (st : Nat) (f : Dev → Dev) => exec c s = .next (s.wrote w key data st f)
    s.writable w key data →
    (d.pgValid g = false → ans 0x302 id) ∧
    (d.pgValid g = true → cmd = 0 → ans 0 fun d => (d.setPg g { x with cmd := [] }).after s.clk (pgEval g)) ∧
    (d.pgValid g = true → cmd = 1 → ans 0 (add 15)) ∧ (d.pgValid g = true → cmd = 2 → ans 0 (add 13)) ∧
    (d.pgValid g = true → cmd = 3 → (above → ans 0x302 id) ∧ (¬above → ans 0 (add 7))) ∧
    (d.pgValid g = true → cmd = 4 → (¬holds → ans 0x302 id) ∧
      (holds → ans 0 fun d => ((d.setPg g { x with dnr := false, farDone := true }).setO 0x28C1 3 g 0).after s.clk (pgEval g)))) ∧
  (∀ (s : State) (g : Nat), g < 1024 →
    let d := s.dev
    let x := d.pg g
    exec (.pgHoldoffExpiry g true) s = .next s ∧
    exec (.pgHoldoffExpiry g false) s = .next (s.on ((d.setPg g { x with sf := x.sf || x.hoSf, sd := x.sd || x.hoSd, hoSf := false, hoSd := false }).after s.clk (pgEval g))) ∧
    exec (.pgWtrExpiry g) s = .next (if x.wtr.isSome = true then s.on (((d.setPg g { x with wtr := none }).setO 0x28C1 3 g 0).after s.clk (pgEval g)) else s) ∧
    (d.pgValid g = false ∨ (d.o 0x28C1 8 g = 0 ∧ d.pgMismatch g = 0) ∨ (d.o 0x28C1 8 g ≠ 0 ∧ d.pgCause g (d.o 0x28C1 8 g) = true) →
      exec (.apsFopTimer g) s = .next s) ∧
    (d.pgValid g = true → d.o 0x28C1 8 g = 0 → d.pgMismatch g ≠ 0 → exec (.apsFopTimer g) s = .next (s.on
      (((d.setO 0x28C1 8 g (d.pgMismatch g)).after s.clk (pgEval g)).after s.clk (raiseEv 474 0x2816 2 g (d.pgMismatch g) (((d.pg g).far.getD 0) >>> 8))))) ∧
    (d.pgValid g = true → d.o 0x28C1 8 g ≠ 0 → d.pgCause g (d.o 0x28C1 8 g) = false →
      exec (.apsFopTimer g) s = .next (s.on ((d.setO 0x28C1 8 g 0).after s.clk (pgEval g)))))) ∧
  (∀ (s : State) (i : Nat) (level : Bool), i < 18 →
    let d := s.dev
    let x := d.input i
    let st := d.o 0x28E0 5 i
    let ch := x.changes.filter (fun t => s.clk.run < t + uS) ++ [s.clk.run]
    let raw := d.setInput i { x with raw := level, edge := s.clk.net, edgeRun := s.clk.run, changes := ch }
    let filt := d.setInput i { x with filt := x.raw, since := if x.raw = true ∧ st ≠ 3 then x.edgeRun else x.since, fired := x.fired && x.raw }
    (x.raw = level → exec (.inputRawChange i level) s = .next s) ∧
    (x.raw ≠ level → exec (.inputRawChange i level) s = .next (s.on (
      if st < 2 ∧ d.o 0x28E0 2 i < ch.length then
        ((raw.setO 0x28E0 5 i 2).addO 0x28E0 7 i 1).after s.clk (raiseEv (618 + i) 0x2817 1 i ch.length 0)
      else raw))) ∧
    (x.raw = x.filt → exec (.inputDwellExpiry i) s = .next s) ∧
    (x.raw ≠ x.filt → 2 ≤ st → exec (.inputDwellExpiry i) s = .next (s.on filt)) ∧
    (x.raw ≠ x.filt → st < 2 → exec (.inputDwellExpiry i) s = .next (s.on (
      let e := (filt.setO 0x28E0 5 i (ofBool x.raw)).after s.clk (inputLevel i x.raw)
      if i = 8 ∧ x.raw = true then e.after s.clk (ppsConfirmed x.edge) else e))) ∧
    exec (.inputChatterRelease i) s = .next (
      if st = 2 ∧ (x.changes.filter (fun t => s.clk.run < t + uS)).length ≤ d.o 0x28E0 2 i then
        s.on ((d.setO 0x28E0 5 i (ofBool x.filt)).after s.clk (inputLevel i x.filt)) else s) ∧
    exec (.inputStuck i) s = .next (if st = 1 ∧ d.o 0x28E0 3 i ≠ 0 then
      s.on (((((d.setInput i { x with since := s.clk.run }).setO 0x28E0 5 i 3).addO 0x28E0 8 i 1).after s.clk
        (raiseEv (618 + i) 0x2818 2 i ((s.clk.run - x.since) / uMs) 0)).after s.clk (inputLevel i false)) else s) ∧
    exec (.inputStuckRelease i) s = .next (if st = 3 ∧ x.filt = false then
      s.on ((d.setO 0x28E0 5 i 0).after s.clk (raiseEv (618 + i) 0x2819 1 i ((s.clk.run - x.since) / uMs) 0)) else s))

/-! ### Reception and the bays (03, 07) -/

/-- The checks of a received frame against the limits with which it started, in their order: a runt (stomp cause 0), jabber (3), an oversize
frame (3), a frame stomped by its sender (1), one with a bad FCS or bad FEC (0); each is counted and no other counter moves. A good frame
and its octets are counted. After a jabber the receiver discards until an idle block. A frame that ends at a port that receives counts its
octets and its fragments and is checked; a control frame that is good is obeyed, a frame in reception ends with its fault, and a good one
not yet known goes to the FIFO whole unless it is for UOP. A verification request is answered while preemption is on. A port that does not
receive does nothing. -/
def Obligations.FramesAreCheckedAndEnd : Prop :=
  (∀ (c : Clock) (d : Dev) (p : Nat) (b : Bytes) (fecBad : Bool) (lim : Nat × Nat), p < 256 →
    let r := ((macCheck p b fecBad lim).run c).run d
    let n := b.length
    let body := b.take (n - 4)
    let fcs := b.drop (n - 4)
    let stomped : Prop := fcs = toBytes 4 (ofBytes (fcsBytes body) ^^^ 0x5A5A5A5A)
    (n < 64 → r = (some 0, d.addO 0x2420 5 p 1)) ∧
    (64 ≤ n → lim.2 ≤ n →
      let e := (d.addO 0x2420 7 p 1).after c (raiseLim p 0x2405 1 p lim.2 0 0 3)
      r = (some 3, e.setPort p { e.port p with jabber := true })) ∧
    (64 ≤ n → n < lim.2 → lim.1 < n → r = (some 3, d.addO 0x2420 6 p 1)) ∧
    (64 ≤ n → n < lim.2 → n ≤ lim.1 →
      (stomped → r = (some 1, d.addO 0x2420 4 p 1)) ∧
      (¬stomped → (fecBad = true ∨ fcs ≠ fcsBytes body) → r = (some 0, d.addO 0x2420 3 p 1)) ∧
      (¬stomped → fecBad = false → fcs = fcsBytes body → r = (none, (d.addO 0x2420 1 p 1).addO 0x2420 2 p n)))) ∧
  (∀ (s : State) (p id : Nat) (b : Bytes) (fecBad idle : Bool) (frags frag : Nat), p < 256 → frag < 3 →
    let pre := s.dev.oB 0x4410 1 p
    let mine := s.dev.receiving p id
    let lim := match mine with | some f => f.limits | none => s.dev.limits p
    let q : Bool × Dev := if mine.isSome then (true, s.dev) else ((rxStart p idle).run s.clk).run s.dev
    let d := q.2
    let d1 := d.after s.clk (bwAdd p 0 (min b.length lim.2))
    let d2 := if pre then d1.addO 0x4410 5 p frags else d1.addO 0x2420 3 p frags
    let r := ((macCheck p b (fecBad || frag == 1 || (decide (0 < frags) && !pre)) lim).run s.clk).run d2
    let e := r.2
    let ans := exec (.frameReceive p id b fecBad idle frags frag) s
    let starts : Prop := s.dev.receives p = true ∧ frag ≠ 2 ∧ q.1 = true
    let control : Prop := beAt b 12 2 = 0x8808 ∧ d.frame id = none
    (s.dev.receives p = false → ans = .next s) ∧
    (s.dev.receives p = true → frag = 2 → ans = .next (if pre = true ∧ s.dev.txStopped p = false
      then s.on { s.dev with out := s.dev.out ++ [.verify p true] } else s)) ∧
    (s.dev.receives p = true → frag ≠ 2 → q.1 = false → ans = .next s) ∧
    (starts → frag = 1 → pre = true → ans = .next (s.on (d2.after s.clk (reassemblyError p id b)))) ∧
    (starts → ¬(frag = 1 ∧ pre = true) →
      (control → ans = .next (s.on (if r.1 = none then e.after s.clk (controlFrame p b) else e))) ∧
      (∀ f, ¬control → mine = some f →
        ans = .next (s.on (e.after s.clk (frameEnds f (if r.1 = some 3 then b.take lim.2 else b) r.1)))) ∧
      (¬control → d.frame id = none → r.1 = none → d.yard.nextId ≤ id → d.uopSpan p b = none →
        ans = .next (s.on (e.after s.clk (portArrive p b true)))) ∧
      (¬control → d.frame id = none → (r.1 ≠ none ∨ id < d.yard.nextId ∨ d.uopSpan p b ≠ none) → ans = .next (s.on e)))) ∧
  (∀ (c : Clock) (d : Dev) (p : Nat) (idle : Bool),
    ((rxStart p idle).run c).run d = if (d.port p).jabber = false then (true, d) else if idle = false then (false, d)
      else (true, d.setPort p { d.port p with jabber := false }))

/-- The head of a frame of an Ethernet port, a client frame that passes the checks of its tributary, and an injected frame for which there is
room enter the FIFO of their bay: the frame takes the next number and the last place. With the FIFO at its limit for the pre-class a frame
from a line is shed and counted instead. A client frame in progress while a protection selector moved is discarded. A good MAC control
frame is obeyed. -/
def Obligations.FramesEnterTheFifo : Prop :=
  (∀ (s : State) (p : Nat) (b : Bytes), p < 256 →
    ∀ idle : Bool, let q : Bool × Dev := ((rxStart p idle).run s.clk).run s.dev
    exec (.fifoEntry p b idle) s = .next (if s.dev.receives p = false then s
      else if q.1 = true ∧ q.2.uopSpan p b = none ∧ beAt b 12 2 ≠ 0x8808 then s.on (q.2.after s.clk (portArrive p b false)) else s.on q.2)) ∧
  (∀ (c : Clock) (d : Dev) (f : Frame) (pre : Nat), pre < 8 → f.port < 256 → d.o 0x6040 1 (f.port / 4) ≠ 1 →
    let id := d.yard.nextId
    let n := (d.fifo f.bay).length
    let e := d.after c (fifoArrive f pre)
    ((2 ≤ f.origin ∨ (n < 1024 ∧ n < d.ob (d.bankOf f.bay) 0x3023 (pre + 1))) →
      e.fifo f.bay = d.fifo f.bay ++ [id] ∧ e.yard.nextId = id + 1 ∧ e.o 0x3022 1 f.bay = max (d.o 0x3022 1 f.bay) (n + 1) ∧
      ∃ g, e.frame id = some g ∧ g.id = id ∧ g.data = f.data ∧ g.port = f.port ∧ g.pre = pre ∧ g.phase = f.phase ∧ g.whole = f.whole) ∧
    (f.origin < 2 → (1024 ≤ n ∨ d.ob (d.bankOf f.bay) 0x3023 (pre + 1) ≤ n) → f.tf 393 1 = 0 →
      e.fifo f.bay = d.fifo f.bay ∧ e.frame id = d.frame id ∧ e.o 0x3021 1 (f.port * 8 + pre) = (d.o 0x3021 1 (f.port * 8 + pre) + 1) % 2 ^ 64)) ∧
  (∀ (s : State) (e : Nat) (b : Bytes) (bad : Bool), e < 40960 →
    let d := s.dev
    let r := d.rxTrib e
    let n := b.length
    let body := b.take (n - 4)
    let fcs := b.drop (n - 4)
    let ans := exec (.pcFrameRx e b bad) s
    let count : Nat → Nat → State := fun k sub => s.on ((d.after s.clk (bwAdd (k / 160) 0 (min n 16384))).addO 0x2832 sub k 1)
    let cut := d.cutBySelector e (s.clk.dev - tribTime r.slots.length (tribBlocks n))
    ((r.mode ≠ 2 ∨ r.slots = []) → ans = .next s) ∧
    (r.mode = 2 → r.slots ≠ [] → cut = some none → ans = .next s) ∧
    (∀ k, r.mode = 2 → r.slots ≠ [] → cut = some (some k) → ans = .next (s.on (d.addO 0x2832 4 k 1))) ∧
    (cut = none → d.clientKey e = none → ans = .next s) ∧
    (∀ k, r.mode = 2 → r.slots ≠ [] → cut = none → d.clientKey e = some k →
      let sl := r.label.getD 0
      let ok : Prop := sl = 1 ∨ sl = 2
      let stomped : Prop := fcs = toBytes 4 (ofBytes (fcsBytes body) ^^^ 0x5A5A5A5A)
      (¬ok → ans = .next (count k 7)) ∧ (ok → bad = true → ans = .next (count k 4)) ∧
      (ok → bad = false → (n < 64 ∨ d.o 0x2832 1 k < n) → ans = .next (count k 6)) ∧
      (ok → bad = false → 64 ≤ n → n ≤ d.o 0x2832 1 k → stomped → ans = .next (count k 5)) ∧
      (ok → bad = false → 64 ≤ n → n ≤ d.o 0x2832 1 k → ¬stomped → fcs ≠ fcsBytes body → ans = .next (count k 4)) ∧
      (ok → bad = false → 64 ≤ n → n ≤ d.o 0x2832 1 k → ¬stomped → fcs = fcsBytes body →
        ans = .next (s.on (
          let g := ((d.after s.clk (bwAdd (k / 160) 0 (min n 16384))).addO 0x2832 2 k 1).addO 0x2832 3 k n
          if d.bayStopped (k / 160 / 4) = true then g else g.after s.clk (fifoArrive
            { bay := k / 160 / 4, port := k / 160, trib := k, origin := 1, data := b, whole := true } (d.preClass (d.bankOf (k / 160 / 4)) (k / 160) b % 8)))))))  ∧
  (∀ (s : State) (r : Nat), r < 16 →
    let d := s.dev
    let q := mget (dK []) d.host.inj r
    (q = [] → exec (.injectFifoEnter r) s = .next s) ∧
    (∀ x rest, q = x :: rest →
      let b := beAt x.desc 12 2 / 4
      let room : Prop := (d.fifo b).length < d.ob (d.bankOf b) 0x3023 (byteAt x.desc 14 + 1) ∧ d.bayStopped b = false
      (¬room → exec (.injectFifoEnter r) s = .next s) ∧
      (room → ∃ f : Frame, f.bay = b ∧ f.port = beAt x.desc 12 2 ∧ f.ring = r ∧ f.data = x.data ++ fcsBytes x.data ∧ f.whole = true ∧
        f.origin = (if byteAt x.desc 11 = 1 then 3 else 2) ∧
        exec (.injectFifoEnter r) s = .next (s.on (({ d.poolGive 1 x.units with host := { d.host with inj := mset (dK []) d.host.inj r rest } } : Dev).after s.clk
          (fifoArrive f (byteAt x.desc 14))))))) ∧
  (∀ (s : State) (p : Nat) (b : Bytes), p < 256 →
    ∀ idle : Bool, let start : Bool × Dev := ((rxStart p idle).run s.clk).run s.dev
    (s.dev.receives p = false ∨ start.1 = false → exec (.pauseRx p b idle) s = .next s) ∧
    (s.dev.receives p = true → start.1 = true →
      let q := ((macCheck p b false (start.2.limits p)).run s.clk).run (start.2.after s.clk (bwAdd p 0 b.length))
      exec (.pauseRx p b idle) s = .next (s.on (if q.1 = none ∧ beAt b 12 2 = 0x8808 then q.2.after s.clk (controlFrame p b) else q.2))))

/-- The frame at the head of its FIFO leaves it and is parsed: one injected in direct mode is past stage 12; one that parsing ends goes no
further; any other runs the stages. A frame whose flow request has been served runs on, once no older frame of its flow and port is short of stage 9. Any other frame, or one of a stalled bay, is as
before. A waiting frame that reaches the park limit takes the overflow action. -/
def Obligations.BayPipelineRuns : Prop :=
  (∀ (s : State) (id : Nat) (bad : List Nat),
    let d := s.dev
    let ans := exec (.framePipeline id bad) s
    (d.frame id = none → ans = .next s ∧ exec (.parkTimeout id) s = .next s) ∧
    (∀ f, d.frame id = some f →
      (d.bayStopped f.bay = true → ans = .next s) ∧
      (d.bayStopped f.bay = false → f.phase = 0 → (d.fifo f.bay).head? ≠ some id → ans = .next s) ∧
      (∀ rest, d.bayStopped f.bay = false → f.phase = 0 → d.fifo f.bay = id :: rest →
        let e := d.setFifo f.bay rest
        (f.origin = 3 → ans = .next (s.on { e with yard := { e.yard with frames := oset d.yard.frames f.id (some { f with phase := 2 }) } })) ∧
        (f.origin ≠ 3 → let r := ((parseFrame f).run s.clk).run e
          (r.1 = none → ans = .next (s.on r.2)) ∧ (∀ g, r.1 = some g → ans = .next (s.on (r.2.after s.clk (stagesFirst g bad)))))) ∧
      (d.bayStopped f.bay = false → f.phase ≠ 0 → ans = .next (
        if f.phase = 1 ∧ f.asked = true ∧ f.looked = true ∧ f.parkedAt = none ∧ f.tStage9 = none ∧ d.olderBefore9 f = false then
          s.on (d.after s.clk (stagesRest f bad)) else s)) ∧
      (f.parkedAt = none → exec (.parkTimeout id) s = .next s) ∧
      (f.parkedAt ≠ none → let r := ((overflowReply f 0).run s.clk).run d
        exec (.parkTimeout id) s = .next (s.on ((r.2.unpark f.sill id).after s.clk (resumeFrame id r.1)))))) ∧
  (∀ (c : Clock) (d : Dev) (f : Frame),
    let b := d.bankOf f.bay
    let x := d.parse b f.port f.data
    let r := ((parseFrame f).run c).run d
    (x.unknown = none → x.incons = 0 → (x.trunc = false ∨ (d.ob b 0x3010 2 f.port ≠ 1 ∧ d.ob b 0x3010 2 f.port ≠ 2)) →
      ∃ g, r.1 = some g ∧ g.phase = 1 ∧ g.fields = x.fields ∧ g.hdrs = x.hdrs ∧ g.presence = x.presence ∧ g.claim = x.claim ∧ g.bank = b ∧ g.ip = d.ipHeader x.hdrs ∧
        g.tParsed = some c.dev ∧ g.data = f.data ∧ (x.trunc = false → r.2 = d)) ∧
    (x.incons ≠ 0 ∨ (x.trunc = true ∧ (d.ob b 0x3010 2 f.port = 1 ∨ d.ob b 0x3010 2 f.port = 2)) → r.1 = none))

/-! ### Forwarding (08) -/

/-- A bay applies the next write of the manager and no other bay is touched, and a Prism entry so written is enabled there; an uncorrectable word is rewritten and recorded; a trie rebuild
ends with its event; a scrub pass of the Prism is counted, and disables the entries of which a row differs. A write of 3441h.02 chooses what serves
stage 5 of every bay. -/
def Obligations.ForwardingCopiesFollow : Prop :=
  (∀ (s : State) (b : Nat), b < 64 →
    ∃ t, exec (.bayTableApply b) s = .next t ∧ t.dev.unapplied b = (s.dev.unapplied b).tail ∧
      (∀ x, x < 64 → x ≠ b → t.dev.unapplied x = s.dev.unapplied x) ∧ t.dev.tbls = s.dev.tbls ∧ t.dev.objs = s.dev.objs ∧
      (∀ wr, (s.dev.unapplied b).head? = some wr → wr.tbl = true → tkeyTable wr.key = 0x320001 → (b * 16384 + wr.key % 2 ^ 32) ∉ t.dev.bays.prismOff)) ∧
  (∀ (s : State) (b kind addr : Nat), b < 64 → kind < 11 →
    exec (.bayCopyRepair b kind addr) s = .next (s.on ((if kind < 8 then s.dev.addO 0x3401 9 kind 1 else s.dev).after s.clk
      (raiseEv (256 + b) 0x3408 2 kind addr 0)))) ∧
  (∀ (s : State) (b : Nat), b < 64 →
    (oget s.dev.bays.rebuild b = none → exec (.trieRebuildDone b) s = .next s) ∧
    (∀ t0, oget s.dev.bays.rebuild b = some t0 → exec (.trieRebuildDone b) s = .next (s.on
      (({ s.dev with bays := { s.dev.bays with rebuild := oset s.dev.bays.rebuild b none } } : Dev).after s.clk
        (raiseEv (256 + b) 0x3406 1 b ((s.clk.run - t0) / uMs) 0))))) ∧
  (∀ (s : State) (b : Nat) (bad : List Nat), b < 64 → bad.all (· < 16384) = true →
    ∃ t, exec (.prismScrubPass b bad) s = .next t ∧ t.dev.o 0x3210 4 b = countUp 4 (s.dev.o 0x3210 4 b) 1 ∧ t.dev.tbls = s.dev.tbls ∧
      (∀ a ∈ bad, ∀ e v, s.dev.prismAt b a = some (e, v) → (b * 16384 + e) ∈ t.dev.bays.prismOff) ∧
      (∀ x, x ∈ t.dev.bays.prismOff → x ∈ s.dev.bays.prismOff ∨ ∃ a ∈ bad, ∃ e v, s.dev.prismAt b a = some (e, v) ∧ x = b * 16384 + e)) ∧
  (∀ (s : State) (w : Nat) (on : Bool), w < 8 → s.writable w (okey 0x3441 2 0) (toBytes 1 on.toNat) →
    exec (.lpmReadyWrite w on) s = .next (s.wrote w (okey 0x3441 2 0) (toBytes 1 on.toNat) 0 fun d => d.setO 0x3441 2 0 on.toNat)) ∧
  (∀ (d : Dev) (b : Nat) (on : Bool), d.o 0x3441 1 = 2 → oget d.bays.rebuild b = none →
    (d.setO 0x3441 2 0 on.toNat).lpmState b = (if on then 0 else 1))

/-- The request at the front of the queue of the manager is executed if it is of the kind that the command names. A learn request over the
rate is dropped, and one over the limit of its port counted; one with a free slot writes its entry with its location there and is counted. A move request rewrites the location of a
dynamic entry that is not frozen, within the port limit, and counts the move; with no entry of its key it is a learn request. At the end of a second an entry that moved more often than 3430h.07 is frozen, and
the moves are forgotten; the end of a freeze clears the mark. An aging pass forgets the marks of use, removes a dynamic entry unused for
three passes, and leaves static entries as they are; with aging off it does nothing. (Requests that wait at the manager are executed before;
where the end of a freeze does not say so, none waits here.) -/
def Obligations.LearningMovesAndAges : Prop :=
  ((∀ (s : State), s.dev.bays.learnQ = [] → exec .learnRequest s = .next s ∧ exec .moveRequest s = .next s) ∧
  (∀ (s : State) (r : LearnReq) (rest : List LearnReq), s.dev.bays.learnQ = r :: rest →
    let d : Dev := { s.dev with bays := { s.dev.bays with learnQ := rest } }
    (r.move = false → exec .learnRequest s = .next (s.on (d.after s.clk (learnExec r))) ∧ exec .moveRequest s = .next s) ∧
    (r.move = true → exec .moveRequest s = .next (s.on (d.after s.clk (moveExec r))) ∧ exec .learnRequest s = .next s)) ∧
  (∀ (c : Clock) (d : Dev) (r : LearnReq), r.loc < 2 ^ 24 →
    let rate := d.o 0x3430 6
    let k := bucketTake rate (rate / 10) c.run d.bays.learnRate
    let d1 : Dev := { d with bays := { d.bays with learnRate := k.2 } }
    let t := d.learnTable
    let limited : Prop := r.loc >>> 20 = 1 ∧ d.o 0x3433 1 r.port ≠ 0 ∧ d.o 0x3433 1 r.port ≤ d.learnedNow r.port
    (d.emFind t r.key (d.emMaster t) = none → d.after c (moveExec r) = d.after c (learnExec r)) ∧
    (k.1 = false → d.after c (learnExec r) = d1.after c (learnDrop 1) ∧ d.after c (moveExec r) = d1.after c (learnDrop 1)) ∧
    (k.1 = true → limited → d.after c (learnExec r) = (d1.addO 0x3432 9 0 1).after c (raiseLim 636 0x3409 1 r.port r.port (d.o 0x3433 1 r.port) 0 3)) ∧
    (∀ a, k.1 = true → d.emFind t r.key (d.emMaster t) = none → r.key < 256 ^ d.emKeyLen t →
      ¬limited →
      (d.emSlots t r.key 0 ++ d.emSlots t r.key 1).find? (fun a => (d.emMaster t a).isNone) = some a →
      ∃ v, d.after c (learnExec r) = (d1.learnWrite a v).addO 0x3432 1 0 1 ∧ d.emKey t v = r.key ∧ locOf v = r.loc) ∧
    (∀ a v, k.1 = true → v < 2 ^ 480 → d.emFind t r.key (d.emMaster t) = some (a, v) →
      (bitOf (emCtrl v) 6 = true ∨ locOf v = r.loc → d.after c (moveExec r) = d1) ∧
      (bitOf (emCtrl v) 6 = false → locOf v ≠ r.loc → bitOf (emCtrl v) 3 = true → d.after c (moveExec r) = d1.addO 0x3432 6 0 1) ∧
      (bitOf (emCtrl v) 6 = false → locOf v ≠ r.loc → bitOf (emCtrl v) 3 = false → limited →
        d.after c (moveExec r) = (d1.addO 0x3432 9 0 1).after c (raiseLim 636 0x3409 1 r.port r.port (d.o 0x3433 1 r.port) 0 3)) ∧
      (bitOf (emCtrl v) 6 = false → locOf v ≠ r.loc → bitOf (emCtrl v) 3 = false → ¬limited →
        ∃ v', d.after c (moveExec r) = (let e := d1.learnWrite a v'
            ({ e with bays := { e.bays with moves := nset e.bays.moves r.key (nget e.bays.moves r.key + 1) } } : Dev).addO 0x3432 5 0 1) ∧
          locOf v' = r.loc ∧ emCtrl v' = 0x80)))) ∧
  ((∀ (s : State), s.dev.bays.learnQ = [] →
    ∃ t, exec .moveSecondEnd s = .next t ∧ t.dev.bays.moves = [] ∧ t.dev.bays.learnQ = [] ∧
      (∀ key n a v, s.dev.bays.moves = [(key, n)] → s.dev.emFind s.dev.learnTable key (s.dev.emMaster s.dev.learnTable) = some (a, v) →
        (s.dev.o 0x3430 7 < n → t.dev.emMaster s.dev.learnTable a = some (emWithCtrl v (emCtrl v ||| 8))) ∧
        (n ≤ s.dev.o 0x3430 7 → t.dev.tbls = s.dev.tbls))) ∧
  (∀ (s : State) (a : Nat),
    let d := s.dev.after s.clk drainLearn
    exec (.freezeExpiry a) s = .next (s.on (match d.emMaster d.learnTable a with
      | some v => if bitOf (emCtrl v) 3 = true then d.learnWrite a (emWithCtrl v (clearBits (emCtrl v) 8)) else d
      | none => d)) ∧ (s.dev.bays.learnQ = [] → d = s.dev)) ∧
  (∀ (s : State), s.dev.bays.learnQ = [] → s.dev.o 0x3430 9 = 0 → exec .learnAgingPass s = .next s) ∧
  (∀ (s : State), s.dev.bays.learnQ = [] → s.dev.o 0x3430 9 ≠ 0 → mwf (dK none) s.dev.tbls = true → s.dev.learnTable < 8 →
    let t := s.dev.learnTable
    ∃ u, exec .learnAgingPass s = .next u ∧ u.dev.bays.marks = [] ∧
      ∀ a v, (a, v) ∈ s.dev.entries 0x3400 (t + 1) →
        let c := emCtrl v
        (bitOf c 6 = true → u.dev.emMaster t a = some v) ∧
        (bitOf c 6 = false → s.dev.emKey t v ∈ s.dev.bays.marks → u.dev.emMaster t a = some (if fld c 4 2 ≠ 0 then emWithCtrl v (putFld c 4 2 0) else v)) ∧
        (bitOf c 6 = false → s.dev.emKey t v ∉ s.dev.bays.marks → fld c 4 2 = 2 → u.dev.emMaster t a = none) ∧
        (bitOf c 6 = false → s.dev.emKey t v ∉ s.dev.bays.marks → fld c 4 2 < 2 → u.dev.emMaster t a = some (emWithCtrl v (putFld c 4 2 (fld c 4 2 + 1))))))

/-! ### Flow state (09) -/

/-- A flow request of a parsed frame is counted at its Sill. A failed Sill serves no record. A hit pins the entry, refills its meter and gives
the frame its result; an entry that fails its check is dropped and the request misses. A miss waits for the fetch of its key, which the
first one starts. Any other frame is as before. A fetch whose reads have all been served ends: it installs the record of its key and its
frames resume with it; if there is none, the miss policy of the profile inserts, punts or lets them go on; a channel on which its bad
bursts have reached the rate is retired then. With no fetch that can end nothing happens. The aging timer
submits the 1,024 segments of a Sill that has not failed, where none waits; a finished pool scan takes the ports that its records hold. -/
def Obligations.FlowLookupsAndFetches : Prop :=
  ((∀ (s : State) (id : Nat) (bad : Bool), (∀ f, s.dev.frame id = some f → ¬(f.phase = 1 ∧ f.asked = true ∧ f.looked = false)) →
    exec (.flowLookup id bad) s = .next s) ∧
  (∀ (s : State) (id : Nat) (bad : Bool) (f : Frame), s.dev.frame id = some f → f.phase = 1 → f.asked = true → f.looked = false →
    let k := f.sill
    let d := s.dev
    let e := d.addO 0x3830 1 k 1
    let ans := exec (.flowLookup id bad) s
    let missed := fun (g : Dev) =>
      let g : Dev := { g with yard := { g.yard with frames := oset g.yard.frames f.id (some { f with looked := true }) } }
      if (g.fetches k).any (fun x => x.key == f.key && x.kdir == f.kdir) then g.addO 0x3830 4 k 1
      else let h := g.addO 0x3830 3 k 1
        (h.setFetches k (g.fetches k ++ [{ key := f.key, kdir := f.kdir, prof := f.tf 274 4, desc := f.desc, dir := f.tf 290 1, tcp := g.tcpFlags f }])).after s.clk
          (fetchAsk k f.key f.kdir)
    (d.sillFailed k = true → ans = .next (s.on ((e.addO 0x5021 4 k 1).after s.clk (claimSlot id ⟨0, 3, 0, 0⟩ none)))) ∧
    (∀ i, d.sillFailed k = false → d.cacheFind k f.key f.kdir = some i → bad = false →
      let r := ((hitEntry i f 1 false false).run s.clk).run (e.addO 0x3830 2 k 1)
      ans = .next (s.on (r.2.after s.clk (claimSlot id r.1 ((d.cacheAt i).map CacheEnt.addr))))) ∧
    (∀ i, d.sillFailed k = false → d.cacheFind k f.key f.kdir = some i → bad = true →
      ans = .next (s.on (missed (((e.setCache i none).addO 0x3830 0x13 k 1).after s.clk (raiseLim (637 + k) 0x3806 1 k k 0 0 3))))) ∧
    (d.sillFailed k = false → d.cacheFind k f.key f.kdir = none → ans = .next (s.on (missed e)))) ∧
  (∀ (c : Clock) (d : Dev) (i : Nat) (f : Frame) (fl : Nat) (new oos : Bool) (x : CacheEnt), d.cacheAt i = some x →
    let r := ((hitEntry i f fl new oos).run c).run d
    ∃ credit last, r.2.cacheAt i = some { x with credit := credit, last := last, pins := x.pins + 1 } ∧ r.1.flow = fl ∧ r.1.nat = rf x.data 44 16 ∧
      (rf x.data 67 2 = 0 → credit = x.credit) ∧ (∀ j, j ≠ i → r.2.cacheAt j = d.cacheAt j))) ∧
  ((∀ (s : State) (k wait : Nat) (bad : List Nat), k < 2 →
    ((s.dev.fetches k).find? (fun x => !x.task && !s.dev.fetchWaits k x) = none → s.dev.dram.due = [] →
      exec (.flowFetchDone k wait bad) s = .next s) ∧
    (∀ x, (s.dev.fetches k).find? (fun x => !x.task && !s.dev.fetchWaits k x) = some x →
      exec (.flowFetchDone k wait bad) s = .next (s.on (((s.dev.after s.clk (fetchScrub k x wait bad)).after s.clk (fetchEnd k x)).after s.clk
        retireDue)))) ∧
  (∀ (c : Clock) (d : Dev) (k : Nat) (x : Fetch),
    let e := d.after c (fetchEnd k x)
    (∀ a, d.findSlot k x.key x.kdir = some a → let r := ((install a).run c).run d
      e = if r.1 then (r.2.addO 0x3830 5 k ((probeOrder x.key x.kdir).idxOf (a % 67108864) + 2)).after c (resumeHit k x.key x.kdir false false) else r.2) ∧
    (d.findSlot k x.key x.kdir = none → d.o 0x3802 2 x.prof ≠ 0 →
      e = ((((d.addO 0x3830 6 k 1).addO 0x3830 5 k 8).addO 0x3831 3 x.prof 1).after c
        (resumeMiss k x.key x.kdir (if d.o 0x3802 2 x.prof = 1 then 0 else 0x21)))) ∧
    (d.findSlot k x.key x.kdir = none → d.o 0x3802 2 x.prof = 0 → (d.tasks k).length < 61440 →
      ∃ t, e.tasks k = d.tasks k ++ [t] ∧ t.kind = 1 ∧ t.work = .insert x.key x.kdir x.prof x.desc x.dir x.tcp ∧ t.st = 0)) ∧
  (∀ (s : State) (k : Nat), k < 2 → s.dev.sillFailed k = true → exec (.flowAgingPass k) s = .next s) ∧
  (∀ (s : State) (k : Nat), k < 2 → s.dev.sillFailed k = false → (s.dev.tasks k).length + 1024 ≤ 61440 →
    (∀ e ∈ s.dev.joinery.waiting, ¬(e.1 = k ∧ e.2.kind = 5)) →
    ∃ t l, exec (.flowAgingPass k) s = .next t ∧ t.dev.tasks k = s.dev.tasks k ++ l ∧ l.map Task.work = (List.range 1024).map Work.aging ∧
      ∀ x ∈ l, x.kind = 5 ∧ x.st = 0) ∧
  (∀ (s : State) (n : Nat), n < 32 →
    (s.dev.flow.scanning.contains n = false → exec (.poolScanDone n) s = .next s) ∧
    (s.dev.flow.scanning.contains n = true → ∃ t ports, exec (.poolScanDone n) s = .next t ∧ t.dev.o 0x3810 4 n = (nub ports).length ∧
      mget (dK []) t.dev.flow.poolPorts n = ports ∧ t.dev.flow.scanning.contains n = false ∧ t.dev.flow.slots = s.dev.flow.slots ∧
      (∀ p, p ∈ ports ↔ ∃ a r, (a, some r) ∈ s.dev.flow.slots ∧ bitOf (rf r.data 43 1) 5 = true ∧ rf r.data 43 1 % 32 = n ∧ rf r.data 60 2 = p))))

/-- The commit of a whole frame that holds a record adds it to the counts of the cached entry (octets and TCP state for a good frame, an error
for a bad one), charges a green meter, and is counted as lost where the entry is gone; a sample adds one to its latency bin. Counts that
would overflow are written back first. Any other frame changes nothing. -/
def Obligations.FlowCommitsCountFrames : Prop :=
  (∀ (s : State) (id : Nat), (∀ f, s.dev.frame id = some f → ¬(f.whole = true ∧ f.slot ≠ none ∧ f.committed = false)) →
    exec (.flowCommit id) s = .next s) ∧
  (∀ (s : State) (f : Frame), s.dev.frame f.id = some f → f.whole = true → f.slot ≠ none → f.committed = false →
    let d := s.dev
    let len := f.data.length
    let ends := fun (g : Dev) => s.on (({ g with yard := { g.yard with frames := oset g.yard.frames f.id (some { f with committed := true }) } } : Dev).after
      s.clk (frameDone f.id))
    let ans := exec (.flowCommit f.id) s
    let good : Bool := match f.fault with | some x => decide (4 < x) | none => true
    (d.cacheFind f.sill f.key f.kdir = none → ans = .next (ends (d.addO 0x3830 0xF f.sill 1))) ∧
    (∀ i x, d.cacheFind f.sill f.key f.kdir = some i → d.cacheAt i = some x →
      let green : Bool := match f.reply with | some r => fld r.res 100 2 == 1 | none => false
      let credit := if green then max ((-(2 ^ 31) : Int) * polUnit) (x.credit - (len : Int) * polUnit) else x.credit
      let y : CacheEnt := { x with credit := credit, dirty := true, pins := x.pins - 1 }
      (good = false → x.err + 1 ≤ 0xFF → ans = .next (ends (d.setCache i (some { y with err := x.err + 1 })))) ∧
      (good = true → x.pk + 1 ≤ 0xFFFFFF → x.oct + len ≤ 0xFFFFFFFF - 16383 →
        let role := if f.tf 290 1 = recInit x.data then 1 else 0
        let r := setRf x.data (if role = 1 then 74 else 75) 1 (rf x.data (if role = 1 then 74 else 75) 1 ||| d.tcpFlags f)
        ans = .next (ends (d.setCache i (some { y with
          data := setRf r 73 1 (tcpStep (rf r 73 1) role (d.tcpFlags f) (rf r 74 1) (rf r 75 1)), pk := x.pk + 1, oct := x.oct + len })))))) ∧
  (∀ (s : State) (id : Nat), s.dev.flow.samples.find? (fun x => x.frame == id) = none → exec (.flowSample id) s = .next s) ∧
  (∀ (s : State) (id : Nat) (x : FlowSample), s.dev.flow.samples.find? (fun x => x.frame == id) = some x →
    let d : Dev := { s.dev with flow := { s.dev.flow with samples := s.dev.flow.samples.erase x } }
    (d.cacheFind x.sill x.key x.kdir = none → exec (.flowSample id) s = .next (s.on (d.addO 0x3830 0x10 x.sill 1))) ∧
    (∀ i e, d.cacheFind x.sill x.key x.kdir = some i → d.cacheAt i = some e →
      let bin := ((List.range 7).filter (fun j => d.o 0x3807 (j + 1) ≤ x.lat)).length
      e.hist.getD bin 0 + 1 ≤ 0xFF → exec (.flowSample id) s = .next (s.on (d.setCache i (some { e with
        hist := (List.range 8).map (fun j => e.hist.getD j 0 + (if j = bin then 1 else 0)), dirty := true })))))

/-! ### The Joinery (10) -/

/-- The first ready task goes to the lowest free thread of the core with most free ones: it starts at the entry of its kind with its six
words, or where its token left it. With no ready task, no free thread, a patch being applied or a dispatcher not yet started no task goes; an
activated patch that is under way goes on. A held completion is
released in its order; a waiting task posts a preempt to its victim; of the tasks that wait for their retry times, the one whose time ends first is ready again. -/
def Obligations.TasksAreDispatched : Prop :=
  (∀ (s : State) (k : Nat), k < 2 →
    let d := s.dev.after s.clk patchDrive
    let l := (d.tasks k).filter (d.ready k)
    (s.dev.joinery.patchNext = none → s.dev.sec.patching = false → d = s.dev) ∧
    ((oget d.joinery.apply k).isSome = true ∨ d.dispatching k = false ∨ l = [] ∨ d.pickCore k = none →
      exec (.taskDispatch k) s = .next (s.on d)) ∧
    (∀ t n i r, (oget d.joinery.apply k).isSome = false → d.dispatching k = true → firstTask l = some t → d.pickCore k = some n → d.freeThreads n = i :: r →
      exec (.taskDispatch k) s = .next (s.on (d.after s.clk (startTask k t i))))) ∧
  (∀ (c : Clock) (d : Dev) (k i : Nat) (t : Task),
    let x := (d.after c (startTask k t i)).thr i
    x.task = t.seq ∧ x.root = true ∧ (x.st = 1 ∨ x.st = 7) ∧ x.scratch = (d.thr i).scratch ∧
      (t.token = none → x.pc = d.o 0x3841 1 (k * 256 + t.kind) ∧ ∀ r, r < 6 → nget x.regs r = t.args.getD r 0) ∧
      (∀ tk, t.token = some tk → x.pc = tk.pc ∧ ∀ r, r < 8 → nget x.regs (24 + r) = tk.regs.getD r 0)) ∧
  (∀ (s : State) (k dom : Nat), k < 2 →
    let q := (s.dev.tasks k).find? (fun t => t.st == 3 && bitOf t.ctrl 2 && t.domain == dom && !s.dev.domainHeld k t)
    (q = none → exec (.dovetailRelease k dom) s = .next (s.on (s.dev.after s.clk listsGo))) ∧
    (∀ t, q = some t → exec (.dovetailRelease k dom) s = .next (s.on ((s.dev.after s.clk (releaseTask k t)).after s.clk listsGo)))) ∧
  (∀ (s : State) (k : Nat), k < 2 →
    (s.dev.o 0x3843 1 = 0 ∨ (s.dev.pickCore k).isSome = true ∨ (oget s.dev.joinery.apply k).isSome = true → exec (.preemptPost k) s = .next s) ∧
    (∀ t v i, s.dev.o 0x3843 1 ≠ 0 → s.dev.pickCore k = none → oget s.dev.joinery.apply k = none →
      firstTask ((s.dev.tasks k).filter (fun t => s.dev.ready k t && !t.asked)) = some t → s.dev.preemptVictim k t = some v → s.dev.taskThreads k v.seq = [i] →
      exec (.preemptPost k) s = .next (s.on ((s.dev.setTask k { t with asked := true }).after s.clk (postInt i 2))))) ∧
  (∀ (s : State) (k : Nat), k < 2 →
    exec (.taskRetryReady k) s = .next (match firstReady ((s.dev.tasks k).filter (fun t => t.st == 2)) with
      | some t => s.on (s.dev.setTask k { t with st := 0 })
      | none => s)) ∧
  (∀ (l : List Task) (t : Task), firstReady l = some t → t ∈ l ∧ ∀ u ∈ l, t.readyAt ≤ u.readyAt)

/-- A cycle of a core issues from the thread that the slot table picks: one with an interrupt pending before all others, else one of the class
of the entry, and from no other. The word of that thread faults on an address outside the store, on the 257th word without a checkpoint, on
an uncorrectable error and on a refused code; it waits where its operation has to; otherwise it takes effect. The end of a wait takes
effect the same way, and operation lists that waited for a task go on. A word that only computes writes its result register and the thread goes on at the next address. -/
def Obligations.MicrowordsIssueOrWait : Prop :=
  (∀ (s : State) (n t err entry : Nat) (late : List Nat), n < 32 → t < 16 → err < 3 → entry < 64 → late.all (· < 16) = true →
    let i := n * 16 + t
    let k := n / 16
    let p := s.dev.passCycle n entry s.clk.run
    let d := (p.tookTurn n t).after s.clk (cmdDrain k)
    let x := d.thr i
    let issue := exec (.microwordIssue n t err entry late) s
    (p.pickThread n entry late ≠ some t → issue = .next (s.on (p.after s.clk listsGo))) ∧
    (p.pickThread n entry late = some t → d.taskOf k x.task = none → issue = .next (s.on (d.after s.clk listsGo))) ∧
    (∀ task, p.pickThread n entry late = some t → d.taskOf k x.task = some task →
      let w := (d.fetchWord k x.pc).1
      let patch := (d.fetchWord k x.pc).2
      let rom : Prop := patch = false ∧ x.root = true ∧ x.pc = d.o 0x3841 1 (k * 256 + task.kind) ∧ task.work ≠ .none
      let int : Prop := x.abort = true ∨ x.quiesce = true ∨ (x.preempt = true ∧ d.preemptible i = true)
      let e := (d.addO 0x3851 1 (n * 4 + task.ctrl / 8 % 4) 1).setThr i { x with since := x.since + 1 }
      let go := fun (g : Dev) (f : M Unit) => Host.Outcome.next (φ := Fault) (ρ := Refusal) (s.on ((((g.after s.clk f).after s.clk (patchMaybe k)).after s.clk patchDrive).after s.clk listsGo))
      (17408 ≤ x.pc → issue = go d (threadFault i 1 x.pc)) ∧
      (x.pc < 17408 → rom → (err = 1 → issue = go d (threadFault i 6 x.pc)) ∧ (err ≠ 1 → int → issue = go d (takeInt i x.pc)) ∧
        (err ≠ 1 → ¬int → issue = go d (romRun i task))) ∧
      (x.pc < 17408 → ¬rom →
        (256 ≤ x.since → issue = go e (threadFault i 4 x.pc)) ∧ (x.since < 256 → err = 1 → issue = go e (threadFault i 6 x.pc)) ∧
        (x.since < 256 → err ≠ 1 → wRefused w = true → issue = go e (threadFault i 2 x.pc)) ∧
        (∀ st, x.since < 256 → err ≠ 1 → wRefused w = false → d.mustWait i w = some st → issue = go e (enterWait i w st)) ∧
        (x.since < 256 → err ≠ 1 → wRefused w = false → d.mustWait i w = none → issue = go (e.unqueue i) (execWord i w patch false err))))) ∧
  (∀ (s : State) (n t : Nat), n < 32 → t < 16 →
    let i := n * 16 + t
    let k := n / 16
    let g := s.dev.after s.clk (cmdDrain k)
    let d := if (g.thr i).st = 2 then g.after s.clk (cmdDone k (g.cmdsOfThread i)) else g
    let x := d.thr i
    let wait := exec (.waitEnd n t) s
    (¬((s.dev.thr i).waits = true ∧ (s.dev.thr i).parked = false) → wait = .next (s.on (s.dev.after s.clk listsGo))) ∧
    ((s.dev.thr i).waits = true → (s.dev.thr i).parked = false →
      (d.taskOf k x.task = none → wait = .next (s.on (d.after s.clk listsGo))) ∧
      (∀ task, d.taskOf k x.task = some task → x.pc < 17408 →
        let w := (d.fetchWord k x.pc).1
        let patch := (d.fetchWord k x.pc).2
        let rom : Prop := patch = false ∧ x.root = true ∧ x.pc = d.o 0x3841 1 (k * 256 + task.kind) ∧ task.work ≠ .none
        let int : Prop := x.abort = true ∨ x.quiesce = true ∨ (x.preempt = true ∧ d.preemptible i = true)
        let go := fun (g : Dev) (f : M Unit) => Host.Outcome.next (φ := Fault) (ρ := Refusal) (s.on ((((g.after s.clk f).after s.clk (patchMaybe k)).after s.clk patchDrive).after s.clk listsGo))
        (rom → (int → wait = go d (takeInt i x.pc)) ∧ (¬int → wait = go d (romRun i task))) ∧
        (¬rom → wRefused w = false → (∀ st, d.mustWait i w = some st → wait = go d (enterWait i w st)) ∧
          (d.mustWait i w = none → wait = go (d.unqueue i) (execWord i w patch false 0)))))) ∧
  (∀ (d : Dev) (n t entry : Nat) (late : List Nat), d.pickThread n entry late = some t →
    let ready := fun j => j < 16 ∧ (d.thr (n * 16 + j)).st = 1 ∧ (d.thr (n * 16 + j)).parked = false ∧ j ∉ late
    let cls := byteAt (toBytes 64 ((oget d.joinery.slotTab n).getD 0)) (entry % 64)
    ready t ∧ ((∃ j, ready j ∧ (d.thr (n * 16 + j)).urgent = true) → (d.thr (n * 16 + t)).urgent = true) ∧
      ((∀ j, ready j → (d.thr (n * 16 + j)).urgent = false) → (∃ j, ready j ∧ d.thrClass (n * 16 + j) = cls) → cls < 4 →
        d.thrClass (n * 16 + t) = cls)) ∧
  (∀ (c : Clock) (d : Dev) (i w : Nat) (patch : Bool), wBrc w = 0 → wAlu1 w = 0 → wShf w = 0 → wMem w = 0 → wHsh w = 0 → wClp w = 0 → wChn w = 0 →
    wTsk w = 0 → wCkp w = 0 → d.breakAt (i / 16) ((d.thr i).pc + 1) = false →
    let x := d.thr i
    let r := alu (wAlu0 w / 2 ^ 15) (nget x.regs (wAlu0 w / 32 % 32)) (nget x.regs (wAlu0 w % 32)) (wImm w)
    let regs := match r with | some (v, _, true) => nset x.regs (wAlu0 w / 2 ^ 10 % 32) v | _ => x.regs
    d.after c (execWord i w patch false 0) = d.setThr i { x with st := 1, pc := x.pc + 1, regs := regs, clamp := none, granted := false }) ∧
  (∀ a b imm, a < 2 ^ 64 → b < 2 ^ 64 → (alu 1 a b imm).map Prod.fst = some ((a + b) % 2 ^ 64) ∧ (alu 2 a b imm).map Prod.fst = some ((a + 2 ^ 64 - b) % 2 ^ 64) ∧
    (alu 3 a b imm).map Prod.fst = some (a &&& b) ∧ (alu 4 a b imm).map Prod.fst = some (a ||| b) ∧ (alu 5 a b imm).map Prod.fst = some (a ^^^ b) ∧
    (alu 12 a b imm).map Prod.fst = some (min a b) ∧ (alu 13 a b imm).map Prod.fst = some (max a b) ∧ (alu 17 a b imm).map Prod.fst = some imm)

/-- A core all of whose threads wait for a clamp, a child or a channel, with no external completion pending for any of them (no fetch-unit
command, Sill-to-Sill request or SPAWN), and whose detector is not paused starts recovery from all of them;
otherwise only operation lists that waited for a task go on, as they do after each of these commands. A thread that waits for the clamp of another that is not halted reaches the wait limit with event 3849h and
recovery from it. A SPAWN that waits in its state fails after the time-out, with event 3846h, and the word takes effect as failed; one of
the aging routine passes over its record (the routine's own way is the model's, log entry 19). While
the debug island runs, the debugger halts a thread that holds a task and resumes a halted one; it writes a register of a halted thread,
discards its partial messages, or aborts its task, and each of these returns 0701h and changes nothing where the thread is not halted.
With the island stalled every command returns 0701h. -/
def Obligations.ThreadsAreRecoveredAndDebugged : Prop :=
  ((∀ (s : State) (n : Nat), n < 32 →
    let d := s.dev
    let l := d.coreThreads n
    let pending := fun i => d.cmdsOfThread i ≠ 0 ∨ i ∈ d.spawnsOf (n / 16) ∨ ∃ t, d.taskOf (n / 16) (d.thr i).task = some t ∧ t.port = .sent
    let stuck : Prop := l ≠ [] ∧ (∀ i ∈ l, (d.thr i).st ∈ [3, 4, 5] ∧ (d.thr i).granted = false ∧ ¬pending i) ∧ d.detectorPaused n = false
    (stuck → exec (.deadlockDetect n) s = .next (s.on ((d.after s.clk (recover n l true)).after s.clk listsGo))) ∧
    (¬stuck → exec (.deadlockDetect n) s = .next (s.on (d.after s.clk listsGo)))) ∧
  (∀ (s : State) (n t : Nat), n < 32 → t < 16 →
    let i := n * 16 + t
    let d := s.dev
    let x := d.thr i
    let ends := fun (g : Dev) => Host.Outcome.next (φ := Fault) (ρ := Refusal) (s.on (g.after s.clk listsGo))
    (x.st ≠ 3 ∨ d.waitsFor i = none → exec (.clampWaitLimit n t) s = ends d) ∧
    (∀ o, x.st = 3 → d.waitsFor i = some o → (d.thr o).st = 7 → exec (.clampWaitLimit n t) s = ends d) ∧
    (∀ o, x.st = 3 → d.waitsFor i = some o → (d.thr o).st ≠ 7 → exec (.clampWaitLimit n t) s = ends
      (((d.addO 0x3847 5 n 1).after s.clk (raiseEv (432 + n) 0x3849 1 n t (x.clamp.getD 0 % 4096))).after s.clk (recover n [i] false))) ∧
    (¬(x.st = 6 ∧ x.parked = false) → exec (.spawnTimeout n t) s = ends d) ∧
    (x.st = 6 → x.parked = false →
      let w := d.fetchWord (n / 16) x.pc
      let kind := ((d.taskOf (n / 16) x.task).map Task.kind).getD 0
      let g := (((d.addO 0x3846 1 (n / 16 * 8 + 6) ((s.clk.run - x.since0) / uNs)).addO 0x3846 2 (n / 16) 1).after s.clk
        (raiseLim (432 + n) 0x3846 1 n i kind 0 3)).unqueue i
      (d.romTask i = none → exec (.spawnTimeout n t) s = ends (g.after s.clk (execWord i w.1 w.2 true 0))) ∧
      (∀ task, d.romTask i = some task → exec (.spawnTimeout n t) s = ends
        (((g.setTask (n / 16) { task with walk := task.walk + 1 }).setThr i { g.thr i with st := 1, failed := true }).after s.clk
          (romRun i { task with walk := task.walk + 1 }))))) ∧
  (∀ (s : State) (w n t : Nat), w < 8 → n < 32 → t < 16 →
    let i := n * 16 + t
    let d := s.dev
    let x := d.thr i
    let down : Prop := 3 ≤ d.o 0x7010 1 677
    let key := fun sub => okey 0x8400 sub i
    let ok := fun sub v => s.writable w (key sub) (toBytes 1 v)
    let ans := fun c sub v st f => exec c s = .next (s.wrote w (key sub) (toBytes 1 v) st f)
    (down → (ok 1 1 → ans (.dbgHalt w n t) 1 1 0x701 id) ∧ (ok 1 0 → ans (.dbgResume w n t) 1 0 0x701 id) ∧
      (ok 2 1 → ans (.dbgAbandon w n t) 2 1 0x701 id) ∧ (ok 3 1 → ans (.dbgAbort w n t) 3 1 0x701 id)) ∧
    (¬down →
      (ok 1 1 → ans (.dbgHalt w n t) 1 1 0 fun d => if x.busy = true ∧ x.st ≠ 7 then d.setThr i { x with was := x.st, st := 7 } else d) ∧
      (ok 1 0 → ans (.dbgResume w n t) 1 0 0 fun d => if x.st = 7 then
        let e := d.setThr i { x with st := x.was }
        if 2 ≤ x.was then e.after s.clk (takeInt i x.pc) else e else d) ∧
      (ok 2 1 → (x.st ≠ 7 → ans (.dbgAbandon w n t) 2 1 0x701 id) ∧
        (x.st = 7 → ans (.dbgAbandon w n t) 2 1 0 fun d => (d.partials i).foldl (fun e c => e.dropPartial c.1) d)) ∧
      (ok 3 1 → (x.st ≠ 7 → ans (.dbgAbort w n t) 3 1 0x701 id) ∧
        (x.st = 7 → ans (.dbgAbort w n t) 3 1 0 fun d => (d.after s.clk (abortTask (n / 16) x.task true)).after s.clk (patchMaybe (n / 16))))) ∧
    (∀ r v, r < 32 → v < 2 ^ 64 → s.writable w (okey 0x8400 4 (i * 32 + r)) (toBytes 8 v) →
      let done := fun st f => exec (.dbgRegWrite w n t r v) s = .next (s.wrote w (okey 0x8400 4 (i * 32 + r)) (toBytes 8 v) st f)
      (down ∨ x.st ≠ 7 → done 0x701 id) ∧ (¬down → x.st = 7 → done 0 fun d => d.setThr i { x with regs := nset x.regs r v }))))

/-! ### The Yard (11) -/

/-- A frame whose turn has come is admitted, any other FRAME_ADMIT does nothing. A queue that holds a residue takes a later best-effort copy
at the end of the residue, with its own deadline; a copy for a port that is down is dropped and counted at the port; an empty residue does
not expire. Flushing a queue or a bounded FIFO is recorded. A retired cell goes to a spare while there is one. A pool lets its
consumer take what it can; one whose producers wait lets them go on at seven eighths of its limit, and what waited for it then goes on. A policer's rate and burst take effect with full buckets. -/
def Obligations.YardAdmitsHoldsAndFrees : Prop :=
  (∀ (s : State) (id : Nat), (s.dev.frame id = none → exec (.frameAdmit id) s = .next s) ∧
      (∀ f, s.dev.frame id = some f → s.dev.admitDue f = false → exec (.frameAdmit id) s = .next s) ∧
      (∀ f, s.dev.frame id = some f → s.dev.admitDue f = true → exec (.frameAdmit id) s = .next (s.on (s.dev.after s.clk (admitRun { f with id := id }))))) ∧
    (∀ (k : Clock) (d : Dev) (f : Frame) (c : Copy) (m : Bool), d.slotted c.port = false → (4 ≤ f.origin ∨ c.kind ≠ 0 ∨ d.oB 0x4020 1 (f.port * 8 + c.tc) = false) →
      let r := ((queueAdmit f c m).run k).run d
      let e := d.after k (monFeed 3 c.q (d.depth c.q))
      (d.monitorsOf 3 c.q = [] → e = d) ∧
      (d.portClosed c.port = true → r = (.dropped, e.addO 0x4041 1 c.port 1)) ∧
      (d.portClosed c.port = false → d.wdDrops c.port c.tc = none → d.residue c.q ≠ [] → d.o 0x4052 2 < 65536 →
        ∃ x, r = (.residue, e.setResidue c.q (d.residue c.q ++ [⟨x, k.dev + d.o 0x4052 1 * uNs⟩])) ∧ x.frame = c.frame ∧ x.idx = c.idx ∧ x.acct = .none)) ∧
    (∀ (k : Clock) (d : Dev) (f : Frame) (c : Copy) (a : Acct), 16384 < d.cellsFree → d.queueAccount f c f.admitCells = some a →
      ((queueTake f c false).run k).run d = (some (some { c with acct := a, cells := f.admitCells, admBy := a.code, depth0 := d.depth c.q }), d)) ∧
    (∀ (s : State) (q : Nat), q < 32768 → (s.dev.residue q = [] → exec (.residueExpiry q) s = .next s) ∧
      (s.dev.residue q ≠ [] → exec (.residueExpiry q) s = .next (s.on (s.dev.after s.clk (expireHead q))))) ∧
    (∀ (s : State) (w : Nat) (q : Nat), w < 8 → q < 32768 → s.writable w (okey 0x4060 1 q) (toBytes 1 1) →
      exec (.flushQueue w q) s = .next (s.wrote w (okey 0x4060 1 q) (toBytes 1 1) 0 (fun d => let r := ((emptyQueue q 0xF).run s.clk).run d
        r.2.after s.clk (raiseEv 320 0x4009 1 q r.1 0)))) ∧
    (∀ (s : State) (w : Nat) (p : Nat), w < 8 → p < 256 → s.writable w (okey 0x4060 2 p) (toBytes 1 1) →
      exec (.flushBounded w p) s = .next (s.wrote w (okey 0x4060 2 p) (toBytes 1 1) 0 (fun d => let r := ((emptyBounded p none 0x10).run s.clk).run d
        let fin := match oget r.2.eg.express p with
          | some t => if t.copy.bounded then (r.2.currentCopy t.copy).start + r.2.wOf p ((r.2.currentCopy t.copy).plen + 20) else s.clk.dev
          | none => s.clk.dev
        (r.2.setO 0x4030 1 p fin).after s.clk (raiseEv 320 0x4009 1 (0x80000000 + p) r.1 0)))) ∧
    (∀ (s : State) (n : Nat), n < 1572864 →
      let d := s.dev
      let sp := d.o 0x7020 1
      (d.yard.retired.contains n = false → exec (.cellRemap n) s = .next s) ∧
      (d.yard.retired.contains n = true → 0 < sp →
        let e := (d.setO 0x7020 1 0 (sp - 1)).setO 0x4000 0xA 0 (d.o 0x4000 0xA - 1)
        exec (.cellRemap n) s = .next (s.on (((({ e with yard := { e.yard with retired := d.yard.retired.filter (· != n) } } : Dev).addO 0x7020 2 0 1).after s.clk
          (repairRecord 1 0 n)).after s.clk (raiseEv 578 0x7004 1 1 0xFF n)))) ∧
      (d.yard.retired.contains n = true → sp = 0 → d.yard.noSpare = true → exec (.cellRemap n) s = .next s) ∧
      (d.yard.retired.contains n = true → sp = 0 → d.yard.noSpare = false →
        exec (.cellRemap n) s = .next (s.on (({ d with yard := { d.yard with noSpare := true } } : Dev).after s.clk (raiseEv 578 0x7005 2 1 0xFF n))))) ∧
    (∀ (s : State) (i : Nat), i < 16 →
      let d := s.dev.after s.clk (poolDrain i)
      let goes := fun (g : Dev) =>
        let g := if i = 4 then g.after s.clk uopResume else g
        let g := if i % 8 = 5 then g.after s.clk (submitWaiting (i / 8)) else g
        let g := if i % 8 = 6 then g.after s.clk (linkDrive (i / 8)) else g
        Host.Outcome.next (φ := Fault) (ρ := Refusal) (s.on (if i = 6 then g.after s.clk storeDrive else g))
      (oget d.yard.poolStall i = none → exec (.poolProducerResume i) s = goes d) ∧
      (∀ t, oget d.yard.poolStall i = some t →
        (7 * d.poolLimit i < d.o 0x4302 1 i * 8 → exec (.poolProducerResume i) s = goes d) ∧
        (d.o 0x4302 1 i * 8 ≤ 7 * d.poolLimit i → exec (.poolProducerResume i) s =
          goes (({ d with yard := { d.yard with poolStall := oset d.yard.poolStall i none } } : Dev).addO 0x4302 4 i ((s.clk.run - t) / uNs))))) ∧
    (∀ (s : State) (w : Nat) (sub i v : Nat), w < 8 → 1 ≤ sub → sub < 5 → i < 16384 → v < 2 ^ 32 → s.writable w (okey 0x4440 sub i) (toBytes 4 v) →
      exec (.policerWrite w sub i v) s = .next (s.wrote w (okey 0x4440 sub i) (toBytes 4 v) 0 (fun d => let e := d.setO 0x4440 sub i v
        { e with yard := { e.yard with polTc := oset e.yard.polTc i none, polTp := oset e.yard.polTp i none } })))

/-! ### Egress (12) -/

/-- At a transmit opportunity of an Ethernet port a hold that is due takes effect and the faulty heads leave first; a stopped transmitter, one
that sends an express frame, and one that sends a preemptable frame which cannot be interrupted now choose nothing. A control frame that waits goes first (unless one went last and bounded traffic is ready), then the bounded FIFO, then the
preemptable frame that was cut, then the classes. A slotted port serves a packet-client tributary instead. At the end of a frame the
express one of the port ends, else the preemptable one that is not interrupted; on a slotted port the one of the tributary. A control frame is
put out and counted at the port; with none to end nothing happens. -/
def Obligations.FramesAreChosenAndLeave : Prop :=
  ((∀ (s : State) (p e err cell gran : Nat), p < 256 → e < 40960 → err < 4 → cell < 1572864 → gran < 256 →
    (s.dev.slotted p = true → exec (.transmitOpportunity p e err cell gran) s = .next (s.on (s.dev.after s.clk (transmitTrib p e err cell gran)))) ∧
    (s.dev.slotted p = false → exec (.transmitOpportunity p e err cell gran) s =
      .next (s.on (((s.dev.after s.clk (holdSettle p)).after s.clk (purgePort p)).after s.clk (transmitPick p err cell gran))))) ∧
  (∀ (k : Clock) (d : Dev) (p err cell gran : Nat),
    let pick := d.after k (transmitPick p err cell gran)
    let ready := d.boundedReady k p
    let start := fun (c : Copy) (f : Frame) =>
      let r := ((beginTx c f (d.wOf p 8) none).run k).run d
      r.2.after k (startExpress p r.1)
    let waits := fun (x : Tx) => x.cut = false ∧ (d.preempting p = false ∨ d.canCut x k.dev = false)
    (d.txStopped p = true ∨ oget d.eg.express p ≠ none ∨ (∃ x, oget d.eg.preempt p = some x ∧ waits x) → pick = d) ∧
    (d.txStopped p = false → oget d.eg.express p = none → (∀ x, oget d.eg.preempt p = some x → ¬waits x) →
      (∀ bits, oget d.eg.ctl p = some bits → ¬(mget (dK false) d.eg.lastControl p = true ∧ ready.isSome = true) → ∃ t, oget pick.eg.express p = some t ∧
        t.control = true ∧ t.data = some (d.pauseFrame p bits).1 ∧ oget pick.eg.ctl p = none ∧ mget (dK false) pick.eg.lastControl p = true) ∧
      ((oget d.eg.ctl p = none ∨ mget (dK false) d.eg.lastControl p = true) → ∀ c f, ready = some (c, f) → err = 0 → pick = start c f) ∧
      (oget d.eg.ctl p = none → ready = none →
        (∀ x, oget d.eg.preempt p = some x → x.held = true ∨ x.cut = false → pick = d) ∧
        (∀ x, oget d.eg.preempt p = some x → x.held = false → x.cut = true →
          pick = ({ d with eg := { d.eg with preempt := oset d.eg.preempt p (some { x with cut := false, from0 := k.dev + d.wOf p 8 }) } } : Dev).after
            k (cbsTouch p x.copy.tc)) ∧
        (oget d.eg.preempt p = none → d.classSelect p p (d.classPick k p) = none → pick = d) ∧
        (∀ c y order, oget d.eg.preempt p = none → d.classSelect p p (d.classPick k p) = some (c, y, order) → err = 0 →
          ∃ t, (if d.preempting p = true then oget pick.eg.preempt p else oget pick.eg.express p) = some t ∧ t.copy = y.copy ∧ t.control = false ∧
            mget (dK false) pick.eg.lastControl p = false))))) ∧
  (∀ (s : State) (p e : Nat), p < 256 → e < 40960 →
    let d := s.dev.after s.clk (holdSettle p)
    let ans := exec (.frameTxEnd p e) s
    let go := fun (x : Dev) (t : Tx) (o : Option Nat) => Host.Outcome.next (φ := Fault) (ρ := Refusal) (s.on (x.after s.clk (endTx t o)))
    (d.slotted p = false →
      (∀ t b, oget d.eg.express p = some t → t.data = some b → t.control = true →
        ans = .next (s.on (((((({ d with eg := { d.eg with express := oset d.eg.express p none } } : Dev).after s.clk (emit (.frame p b))).addO 0x2420 9 p 1).addO 0x2420 0xA p
          b.length)).after s.clk (bwAdd p 1 b.length)))) ∧
      (∀ t, oget d.eg.express p = some t → t.data ≠ none → t.control = false →
        ans = go { d with eg := { d.eg with express := oset d.eg.express p none } } t none) ∧
      (∀ t, oget d.eg.express p = some t → t.data = none → ans = .next (s.on d)) ∧
      (oget d.eg.express p = none →
        (∀ t, oget d.eg.preempt p = some t → t.data ≠ none → t.cut = false →
          ans = go { d with eg := { d.eg with preempt := oset d.eg.preempt p none } } t none) ∧
        (∀ t, oget d.eg.preempt p = some t → t.data = none ∨ t.cut = true → ans = .next (s.on d)) ∧
        (oget d.eg.preempt p = none → ans = .next (s.on d)))) ∧
    (d.slotted p = true →
      (∀ t, oget d.eg.tribTx e = some t → t.copy.port = p → t.data ≠ none →
        ans = go { d with eg := { d.eg with tribTx := oset d.eg.tribTx e none } } t (some e)) ∧
      (∀ t, oget d.eg.tribTx e = some t → t.copy.port ≠ p ∨ t.data = none → ans = .next (s.on d)) ∧
      (oget d.eg.tribTx e = none → ans = .next (s.on d))))

/-- At a gate event the preemptable frame goes on where its gate is open. Where it is closed the frame is held, at once or at its 64th octet, or
goes to its end if that is too near, at the gate event or when the 64th octet has left; a hold interrupts it and is counted. The credits of the port are brought up to date. A pending gate change swaps
in: it is no longer pending, 4432h.02 and 4432h.03 are 0 and the epoch's part is done; with none pending nothing happens. In verification
state 1 an attempt is sent and counted, up to the third; a response after one gives state 2; a time-out after three gives state 3, counted, with
event 4403h. A lossless class of an ingress port goes to XOFF when its headroom is in use or its occupancy, with the offset, reaches its
share of the free cells; it stays there until the occupancy with the hysteresis is below that share; a class that sends no pause is never
in XOFF, and the other classes are as before. A received pause ends, its time counted, and with no pause nothing happens. In XOFF the
quanta frame is repeated. A class paused too long with a frame queued trips its watchdog, with event 4405h, and the recovery ends it with
4406h. -/
def Obligations.GatesVerificationAndPause : Prop :=
  ((∀ (s : State) (p : Nat), p < 256 → exec (.gateEvent p) s = .next (s.on ((s.dev.after s.clk (preemptAtGate p)).after s.clk (cbsTouchAll p)))) ∧
  (∀ (k : Clock) (d0 : Dev) (p : Nat) (x : Tx),
    let d := d0.after k (holdSettle p)
    let e := d0.after k (preemptAtGate p)
    oget d.eg.preempt p = some x →
    let open_ := bitOf (d.gatesAt k p k.dev).1 x.copy.tc
    (open_ = true → oget e.eg.preempt p = some { x with held := false, holdAt := none }) ∧
    (open_ = false → x.held = true → e = d) ∧
    (open_ = false → x.held = false → x.cut = true ∨ d.canCut x k.dev = true → e = d.after k (holdTx p x k.dev)) ∧
    (open_ = false → x.held = false → x.cut = false → d.canCut x k.dev = false →
      let later : Prop := (d.fragment x k.dev).1 < 64 ∧ x.data.all (fun b => x.done + 128 ≤ b.length) = true
      (later → oget e.eg.preempt p = some { x with holdAt := some (x.from0 + ceilDiv (64 * 8 * 65536) (d.rate p)) }) ∧
      (¬later → e = d))) ∧
  (∀ (k : Clock) (d : Dev) (p h : Nat) (x : Tx), oget d.eg.preempt p = some x → x.holdAt = some h →
    let e := d.after k (holdSettle p)
    (k.dev < h ∨ x.cut = true → e = d) ∧
    (h ≤ k.dev → x.cut = false → d.canCut x h = true → e = d.after k (holdTx p x h)) ∧
    (h ≤ k.dev → x.cut = false → d.canCut x h = false → oget e.eg.preempt p = some { x with holdAt := none })) ∧
  (∀ (k : Clock) (d : Dev) (p at0 : Nat) (x : Tx), oget d.eg.preempt p = some x →
    let e := d.after k (holdTx p x at0)
    oget e.eg.preempt p = some { x with
      held := true, holdAt := none, cut := true
      frags := if x.cut then x.frags else x.frags + 1, done := if x.cut then x.done else d.txSent x at0 } ∧
    e.o 0x4432 7 p = (d.addO 0x4432 7 p 1).o 0x4432 7 p) ∧
  (∀ (s : State) (p : Nat), p < 256 →
    (s.dev.pendingPart 0x11 (1 + p) = none ∨ oget s.dev.eg.change p = none → exec (.gateChangeSwap p) s = .next s) ∧
    (∀ e x, s.dev.pendingPart 0x11 (1 + p) = some e → oget s.dev.eg.change p = some x → ∃ t, exec (.gateChangeSwap p) s = .next t ∧
      oget t.dev.eg.change p = none ∧ t.dev.o 0x4432 2 p = 0 ∧ t.dev.o 0x4432 3 p = 0 ∧
      t.dev.dict = ((s.dev.swapPart 0x11 (1 + p) e).partDone 0x11 (1 + p)).dict)) ∧
  (∀ (s : State) (p : Nat), p < 256 →
    let d := s.dev
    let n := nget d.eg.attempts p
    let v := d.o 0x4410 3 p
    (v = 1 → n < 3 → exec (.verifyAttempt p) s = .next (s.on
      (({ d with eg := { d.eg with attempts := nset d.eg.attempts p (n + 1) } } : Dev).after s.clk (emit (.verify p false))))) ∧
    (v ≠ 1 ∨ 3 ≤ n → exec (.verifyAttempt p) s = .next s) ∧
    (v = 1 → n ≠ 0 → exec (.verifyResponse p) s = .next (s.on (d.setO 0x4410 3 p 2))) ∧
    (v ≠ 1 ∨ n = 0 → exec (.verifyResponse p) s = .next s) ∧
    (v = 1 → 3 ≤ n → exec (.verifyTimeout p) s = .next (s.on (((d.setO 0x4410 3 p 3).addO 0x4410 8 p 1).after s.clk (raiseEv p 0x4403 2 p n 0)))) ∧
    (v ≠ 1 ∨ n < 3 → exec (.verifyTimeout p) s = .next s))) ∧
  ((∀ (s : State) (p c : Nat), p < 256 → c < 8 → ∃ t, exec (.fcEval p c) s = .next t ∧
    let d := s.dev
    let i := p * 8 + c
    let was := mget (dK false) d.eg.xoff i
    let x := mget (dK false) t.dev.eg.xoff i
    let sends : Prop := d.oB 0x4020 1 i = true ∧ d.o 0x4450 1 p ≠ 0 ∧ d.slotted p = false
    let used := d.o 0x4020 3 i + d.o 0x4450 3 i
    let below := fun n => belowDt n d.sharedFree (d.oS 16 0x4020 6 i)
    t.dev.objs = d.objs ∧ (∀ j, j ≠ i → mget (dK false) t.dev.eg.xoff j = mget (dK false) d.eg.xoff j) ∧ (x = was → t.dev = d) ∧
    (¬sends → x = false) ∧ (sends → 0 < d.o 0x4020 4 i ∨ below used = false → x = true) ∧
    (sends → d.o 0x4020 4 i = 0 → below used = true → x = (was && !below (used + d.o 0x4450 4 i)))) ∧
  (∀ (s : State) (p c : Nat), p < 256 → c < 8 →
    let d := s.dev
    let i := p * 8 + c
    (oget d.eg.pauseSince i = none → exec (.pauseExpiry p c) s = .next s) ∧
    (∀ t0, oget d.eg.pauseSince i = some t0 → ∃ t, exec (.pauseExpiry p c) s = .next t ∧ oget t.dev.eg.pauseUntil i = none ∧ oget t.dev.eg.pauseSince i = none ∧
      t.dev.objs = (if d.fcClass p c = c then d.addO 0x4452 4 i ((s.clk.dev - t0) / uNs) else d).objs)) ∧
  (∀ (s : State) (p : Nat), p < 256 →
    let d := s.dev
    (d.xoffBits p ≠ 0 → d.o 0x4450 1 p ≠ 0 →
      exec (.pfcRepeat p) s = .next (s.on { d with eg := { d.eg with ctl := oset d.eg.ctl p (some ((oget d.eg.ctl p).getD 0)) } })) ∧
    (d.xoffBits p = 0 ∨ d.o 0x4450 1 p = 0 → exec (.pfcRepeat p) s = .next s)) ∧
  (∀ (s : State) (p c : Nat), p < 256 → c < 8 →
    let d := s.dev
    let i := p * 8 + c
    let trips : Prop := d.o 0x4451 1 p ≠ 0 ∧ d.o 0x4451 5 i = 0 ∧ d.fcClass p c = c
    (oget d.eg.wdSince i = none ∨ ¬trips → exec (.fcWatchdogTrip p c) s = .next s) ∧
    (∀ t0, oget d.eg.wdSince i = some t0 → trips →
      let e := d.setO 0x4451 5 i 1
      let e1 := (({ e with eg := { e.eg with wdDropped := nset e.eg.wdDropped i 0 } } : Dev).addO 0x4451 4 i 1).after s.clk
        (raiseEv 326 0x4405 2 p c ((s.clk.dev - t0) / uMs))
      let e2 := if d.o 0x4451 3 p = 1 then e1.after s.clk (wdFlush p c) else e1
      exec (.fcWatchdogTrip p c) s = .next (s.on (e2.after s.clk (cbsTouchAll p)))) ∧
    (d.o 0x4451 5 i ≠ 1 → exec (.fcWatchdogEnd p c) s = .next s) ∧
    (d.o 0x4451 5 i = 1 →
      let e := d.setO 0x4451 5 i 0
      exec (.fcWatchdogEnd p c) s = .next (s.on (((({ e with eg := { e.eg with wdSince := oset e.eg.wdSince i none } } : Dev).after s.clk
        (raiseEv 326 0x4406 1 p c (nget d.eg.wdDropped i))).after s.clk (cbsTouchAll p)).after s.clk (wdTouch p c))))))

/-! ### DRAM (13) -/

/-- A channel out of service serves nothing. Of five command slots the second and the fourth are the other class's; one of these that no request
of its class takes carries the tracking of a lane or the fill of a segment, and a slot that its class cannot use goes to the other. A slot serves a request of the next bank that has one, a row hit first unless the oldest has waited 5020h.07
ns; it refreshes the idle bank that owes most when there is none, and a slot of the other class does so first where a refresh is owed.
Reads report their latency and their errors, those of the scrubber only what it finds; a burst that failed fails until it is written; a
channel whose bad bursts have reached the rate is retired then. A
refresh that falls due is owed; the eighth owed is an event. A reading of any channel sets the refresh multiple, and above 105 degrees degrades the
channel; delays follow drift, and far or narrow ones degrade it. Retiring moves the segments to channels in service. A scrubbed burst asks for
a slot of the other class, and for another if it is written back; one at or below the last one starts a pass. A corrected burst counts (as stale where a write of it waits); the third pass in a row with one in a
row of memory repairs that row. An uncorrectable burst repairs its row at once. A repair takes a spare row while there is one, and is
recorded. A channel out of service is not scrubbed. -/
def Obligations.DramServesAndIsScrubbed : Prop :=
  ((∀ (s : State) (n : Nat), n < 48 → s.dev.chOn n = false → (∀ lat e, lat < 2 ^ 32 → e < 3 → exec (.dramRequest n lat e) s = .next s) ∧
    (∀ b, b < 16 → exec (.refreshTick n b) s = .next s) ∧
    (∀ l rd wr rw ww, l < 2 → -1 ≤ rd → rd ≤ 1 → -1 ≤ wr → wr ≤ 1 → rw < 65536 → ww < 65536 → exec (.driftTrack n l rd wr rw ww) s = .next s)) ∧
  (∀ (s : State) (n lat err : Nat), n < 48 → lat < 2 ^ 32 → err < 3 → s.dev.chOn n = true →
    let pos := nget s.dev.dram.slot n
    let mine : Bool := pos % 2 == 1
    let d : Dev := { s.dev with dram := { s.dev.dram with slot := nset s.dev.dram.slot n ((pos + 1) % 5) } }
    let own := d.dramNext n s.clk.run mine
    let fill : Option Dev := if mine then d.fillSlot n else none
    let next := if own = none ∧ fill = none then d.dramNext n s.clk.run (!mine) else own
    let ends := fun (e : Dev) => exec (.dramRequest n lat err) s = .next (s.on (e.after s.clk retireDue))
    (∀ k, mine = true → d.refreshBank n 0 = some k → ends (d.setOwed n k (d.owedOf n k - 1))) ∧
    (mine = false ∨ d.refreshBank n 0 = none →
      (∀ e, own = none → fill = some e → ends (e.slotUsed n s.clk.run)) ∧
      (own = none → fill = none → next = none → d.refreshBank n (-8) = none → ends d) ∧
      (∀ k, own = none → fill = none → next = none → d.refreshBank n (-8) = some k → ends (d.setOwed n k (d.owedOf n k - 1))) ∧
      (∀ r aged, next = some (r, aged) → ends (d.after s.clk (dramDo n lat err r aged))))) ∧
  (∀ (c : Clock) (d : Dev), d.dram.due = [] → d.after c retireDue = d) ∧
  (∀ (d : Dev) (n : Nat),
    (0 < nget d.dram.track n → d.fillSlot n = some { d with dram := { d.dram with track := nset d.dram.track n (nget d.dram.track n - 1) } }) ∧
    (nget d.dram.track n = 0 → (∃ x ∈ d.dram.fill, (d.segAt (x / 1536) (x % 1536)).1 = n) → d.fillSlot n = some d) ∧
    (nget d.dram.track n = 0 → (∀ x ∈ d.dram.fill, (d.segAt (x / 1536) (x % 1536)).1 ≠ n) → d.fillSlot n = none)) ∧
  (∀ (c : Clock) (d : Dev) (n lat err : Nat) (r : DramReq) (aged : Bool),
    let i := n * 2 ^ 24 + r.burst
    let e := (d.setDramQ n ((d.dramQ n).erase r)).slotUsed n c.run
    let e : Dev := { e with dram := { e.dram with
      openRow := oset e.dram.openRow (n * 16 + r.bank) (some r.row), lastBank := nset e.dram.lastBank n ((r.bank + 1) % 16)
      bad := if r.write then e.dram.bad.filter (· != i) else e.dram.bad } }
    let e := e.after c (heldIn n (d.dramHeld n))
    let e := if aged then e.addO 0x5002 8 n 1 else e
    let read := (e.after c (peakO 0x5002 9 n lat)).after c (monFeed 6 n lat)
    let ans := d.after c (dramDo n lat err r aged)
    (r.write = true ∨ r.mute = true → ans = e) ∧
    (r.write = false → r.mute = false →
      (err = 2 ∨ i ∈ d.dram.bad → ans = (read.after c (burstBad n r.burst)).after c (flowBurstFailed n r.burst)) ∧
      (err = 1 → i ∉ d.dram.bad → ans = read.after c (burstCorrected n)) ∧ (err = 0 → i ∉ d.dram.bad → ans = read))) ∧
  (∀ (d : Dev) (n now : Nat) (other : Bool) (r : DramReq) (aged : Bool), d.dramNext n now other = some (r, aged) →
    let hit := fun (x : DramReq) => oget d.dram.openRow (n * 16 + x.bank) = some x.row
    r ∈ d.dramQ n ∧ r.other = other ∧ (aged = true → d.o 0x5020 7 * uNs ≤ now - r.at0) ∧
      (aged = false → (∃ x ∈ d.dramSeen n, x.other = other ∧ x.bank = r.bank ∧ hit x) → hit r)) ∧
  (∀ (d : Dev) (n : Nat) (least : Int),
    let idle := fun k => k < 16 ∧ (∀ r ∈ d.dramQ n, r.bank ≠ k) ∧ least < d.owedOf n k
    (d.refreshBank n least = none ↔ ∀ k, ¬idle k) ∧
    (∀ k, d.refreshBank n least = some k → idle k ∧ ∀ j, idle j → d.owedOf n j ≤ d.owedOf n k)) ∧
  (∀ (s : State) (n b : Nat), n < 48 → b < 16 → s.dev.chOn n = true →
    (s.dev.owedOf n b + 1 < 8 → exec (.refreshTick n b) s = .next (s.on (s.dev.setOwed n b (s.dev.owedOf n b + 1)))) ∧
    (8 ≤ s.dev.owedOf n b + 1 → exec (.refreshTick n b) s =
      .next (s.on (((s.dev.setOwed n b 7).addO 0x5002 7 n 1).after s.clk (raiseLim (384 + n) 0x5008 1 n n b 0 3))))) ∧
  (∀ (s : State) (n : Nat) (t : Int), n < 48 → -32768 ≤ t → t ≤ 32767 →
    let m := if t ≤ 85 then 1 else if t ≤ 95 then 2 else 4
    let e := (s.dev.setO 0x5001 2 n (ofS 16 t)).setO 0x5001 3 n m
    let e := if m ≠ s.dev.o 0x5001 3 n ∨ (105 < t ∧ s.dev.oS 16 0x5001 2 n ≤ 105) then e.after s.clk (raiseEv (384 + n) 0x5006 (if 105 < t then 3 else 1) n m (ofS 32 t)) else e
    exec (.dramTempRead n t) s = .next (s.on (if 105 < t then e.after s.clk (degrade n 4 (ofS 32 t)) else e))) ∧
  (∀ (c : Clock) (d : Dev) (n cause v : Nat), let e := d.after c (degrade n cause v)
    (d.o 0x5001 1 n = 2 → e.o 0x5001 1 n = 3 ∧ e.o 0x5001 6 n = cause) ∧ (d.o 0x5001 1 n ≠ 2 → e = d)) ∧
  (∀ (s : State) (n l : Nat) (rd wr : Int) (rw ww : Nat), n < 48 → l < 2 → -1 ≤ rd → rd ≤ 1 → -1 ≤ wr → wr ≤ 1 → rw < 65536 → ww < 65536 → s.dev.chOn n = true →
    ∃ t, exec (.driftTrack n l rd wr rw ww) s = .next t ∧
      let d := s.dev
      let i := n * 2 + l
      let x := mget (dK ((0 : Int), (0 : Int))) d.dram.drift i
      let far := if (x.1 + rd).natAbs < (x.2 + wr).natAbs then x.2 + wr else x.1 + rd
      mget (dK ((0 : Int), (0 : Int))) t.dev.dram.drift i = (x.1 + rd, x.2 + wr) ∧ t.dev.o 0x5003 6 i = ofS 16 far ∧
      nget t.dev.dram.track n = nget d.dram.track n + 1 ∧
      t.dev.o 0x5003 3 i = (clampI 0 65535 (d.o 0x5003 3 i + rd)).toNat ∧ t.dev.o 0x5003 4 i = (clampI 0 65535 (d.o 0x5003 4 i + wr)).toNat ∧
      t.dev.o 0x5001 1 n = if (16 ≤ far.natAbs ∨ min rw ww < d.o 0x5020 6) ∧ d.o 0x5001 1 n = 2 then 3 else d.o 0x5001 1 n) ∧
  (∀ (s : State) (w : Nat) (n : Nat), w < 8 → n < 48 → s.writable w (okey 0x5001 4 n) (toBytes 1 1) →
      exec (.chRetire w n) s = .next (s.wrote w (okey 0x5001 4 n) (toBytes 1 1) 0 (fun d => if d.chOn n then d.after s.clk (retire n 0) else d))) ∧
  (∀ (d : Dev) (s : Nat) (gs : List Nat) (l : List (Nat × Nat × Nat)), (∃ ch, ch / 24 = s ∧ d.chOn ch = true) →
    ∀ x ∈ d.moveSegs s gs l, x.1 ∈ gs → d.chOn x.2.1 = true ∧ x.2.1 / 24 = s) ∧
  (∀ (s : State) (k g : Nat), k < 2 → g < 1536 → exec (.segmentFillDone k g) s =
    .next (s.on { s.dev with dram := { s.dev.dram with fill := s.dev.dram.fill.filter (· != k * 1536 + g) } }))) ∧
  ((∀ (s : State) (n b err : Nat), n < 48 → b < 16777216 → err < 3 →
    let d := s.dev
    (d.chOn n = false → exec (.scrubBurst n b err) s = .next s) ∧
    (d.chOn n = true →
      let wrapped : Prop := ∃ x, oget d.dram.scrub n = some x ∧ b ≤ x
      ∃ e, (wrapped → e = ({ d with dram := { d.dram with scrub := oset d.dram.scrub n (some b) } } : Dev).addO 0x5002 5 n 1) ∧
        (¬wrapped → e = { d with dram := { d.dram with scrub := oset d.dram.scrub n (some b) } }) ∧
        let g := e.after s.clk (scrubAsk n b false)
        (err = 0 → exec (.scrubBurst n b err) s = .next (s.on g)) ∧
        (err = 2 → exec (.scrubBurst n b err) s = .next (s.on
          (((({ g with dram := { g.dram with bad := (n * 2 ^ 24 + b) :: g.dram.bad.filter (· != n * 2 ^ 24 + b) } } : Dev).after
            s.clk (rowRepair n (e.burstRow n b).1 (e.burstRow n b).2)).after s.clk (burstBad n b)).after s.clk retireDue))) ∧
        (err = 1 →
          let i := n * 2 ^ 20 + (e.burstRow n b).1 * 32768 + (e.burstRow n b).2
          let x := mget (dK (0, 0)) e.dram.rowBad i
          let pass := e.o 0x5002 5 n
          let run := if x.2 ≠ 0 ∧ x.1 = pass then x.2 else if x.2 ≠ 0 ∧ x.1 + 1 = pass then x.2 + 1 else 1
          let f := if (e.dramQ n).any (fun r => r.write && !r.mute && r.burst == b) then g.addO 0x5002 6 n 1
            else (g.addO 0x5002 4 n 1).after s.clk (scrubAsk n b true)
          let f : Dev := { f with dram := { f.dram with rowBad := mset (dK (0, 0)) f.dram.rowBad i (if run = 3 then (0, 0) else (pass, run)) } }
          let f := f.after s.clk (burstCorrected n)
          exec (.scrubBurst n b err) s = .next (s.on (if run = 3 then f.after s.clk (rowRepair n (e.burstRow n b).1 (e.burstRow n b).2) else f))))) ∧
  (∀ (c : Clock) (d : Dev) (n bank row : Nat), let e := d.after c (rowRepair n bank row)
    (0 < d.o 0x7021 1 n → e.o 0x7021 1 n = d.o 0x7021 1 n - 1 ∧ n * 2 ^ 20 + (bank * 32768 + row) ∈ e.dram.spared ∧ e.o 0x7021 3 n = d.o 0x7021 3 n) ∧
    (d.o 0x7021 1 n = 0 → e = (d.addO 0x7021 3 n 1).after c (raiseEv 578 0x7005 2 2 n (bank * 32768 + row)))) ∧
  (∀ (c : Clock) (d : Dev) (n b : Nat) (write : Bool),
    let r : DramReq := { burst := b, bank := (d.burstRow n b).1, row := (d.burstRow n b).2, write := write, at0 := c.run, other := true, mute := true }
    d.after c (scrubAsk n b write) = d.setDramQ n (d.dramQ n ++ [r])) ∧
  (∀ (c : Clock) (d : Dev) (n : Nat), (d.after c (burstCorrected n)).o 0x5002 1 n = (d.addO 0x5002 1 n 1).o 0x5002 1 n))

/-! ### The host (14) -/

/-- Ring registers take writes while the link is up and PERST_N and PORST_N are released. Writes of the base, size or limit set the ring where
it is disabled and stopped, and flag an error otherwise. Enabling starts a ring whose
size is a power of two from 64 to 65,536, else it flags an error; disabling stops it; the interrupt enable and the error flag follow their
writes. The device takes the tail, and a failed fetch stops the ring. A vector that holds messages and is on sends one. A waiting punt
that has ended fills the next posted descriptor of its running ring: its buffer gets the frame, cut to the buffer and the limit, the
descriptor gets the result, pool 0 gets its units back and the head advances; an illegal buffer length drops it. The inject engine takes a
frame from the ring whose turn it is, and nothing while pool 1 is at its limit: an illegal descriptor is counted and refused, a failed read is reported, and otherwise the frame
takes its units of pool 1 and waits. -/
def Obligations.RingsMovePuntsAndInjects : Prop :=
  (∀ (s : State) (r : Nat), r < 35 →
    let d := s.dev
    let x := d.ring r
    let ring := fun (y : Ring) => Host.Outcome.next (φ := Fault) (ρ := Refusal) (s.on (d.setRing r y))
    (d.pcieUp = false → (∀ reg v, reg < 3 → exec (.ringConfigWrite r reg v) s = .next s) ∧ exec (.ringDisable r) s = .next s ∧
      exec (.ringErrorClear r) s = .next s ∧ (∀ on, exec (.ringEnable r on) s = .next s ∧ exec (.ringInterruptEnable r on) s = .next s)) ∧
    (d.pcieUp = true → (∀ reg v, reg < 3 → (x.en = true ∨ x.running = true) → exec (.ringConfigWrite r reg v) s = ring { x with err := true }) ∧
    (x.en = false → x.running = false → (∀ v, exec (.ringConfigWrite r 0 v) s = ring { x with base := v % 2 ^ 64 / 4096 * 4096 }) ∧
      (∀ v, exec (.ringConfigWrite r 1 v) s = ring { x with size := v % 2 ^ 32 }) ∧
      (∀ v, r < 16 → (v = 0 ∨ (64 ≤ v ∧ v ≤ 16384)) → exec (.ringConfigWrite r 2 v) s = ring { x with limit := v }) ∧
      (∀ v, ¬(r < 16 ∧ (v = 0 ∨ (64 ≤ v ∧ v ≤ 16384))) → exec (.ringConfigWrite r 2 v) s = .next s)) ∧
    (∀ ie, let e := if d.hostOk (ringFunction r) = false then d
        else if powerOfTwoIn 64 65536 x.size then d.setRing r { x with en := true, running := true } else d.setRing r { x with err := true }
      exec (.ringEnable r ie) s = .next (s.on (e.after s.clk (ringInterrupt r ie)))) ∧
    exec (.ringDisable r) s = ring { x with en := false, running := false } ∧
    exec (.ringInterruptEnable r false) s = ring { x with ie := false } ∧
    exec (.ringInterruptEnable r true) s = .next (s.on ((d.setRing r { x with ie := true }).after s.clk (msixCheck (ringVector r)))) ∧
    exec (.ringErrorClear r) s = ring { x with err := false }) ∧
    (∀ err, err < 4 → (x.running = false → exec (.ringTailPoll r err) s = .next s) ∧
      (x.running = true → (err = 0 ∨ 32 ≤ r) → exec (.ringTailPoll r err) s = ring { x with seen := if x.size = 0 then 0 else x.tail % x.size }) ∧
      (x.running = true → 0 < err → r < 32 → exec (.ringTailPoll r err) s = .next (s.on
        ((d.setRing r { x with en := false, running := false, err := true }).after s.clk (dmaReadError 0 (err - 1) (ringOffset r)))))) ∧
    (∀ i, i < 128 → ((d.vectorOn i = true ∧ 0 < (mget (dK ({} : Vector)) d.host.vectors i).count) →
        exec (.msixHoldoffExpiry i) s = .next (s.on (d.after s.clk (msixSend i)))) ∧
      (¬(d.vectorOn i = true ∧ 0 < (mget (dK ({} : Vector)) d.host.vectors i).count) → exec (.msixHoldoffExpiry i) s = .next s))) ∧
  ((∀ (s : State) (r : Nat) (desc : Bytes), r < 16 → desc.length = 64 →
    let d := s.dev
    let x := d.ring r
    let ans := exec (.puntDeliver r desc) s
    (d.puntList r = [] → ans = .next s) ∧
    (∀ p rest, d.puntList r = p :: rest →
      (¬(x.running = true ∧ x.head ≠ x.seen ∧ p.src = none) → ans = .next s) ∧
      (x.running = true → x.head ≠ x.seen → p.src = none →
        let len := beAt desc 8 2
        let n := if x.limit = 0 then min p.data.length len else min (min p.data.length len) x.limit
        let e := (d.setPunts r rest).poolGive 0 p.units
        let ends := fun (g : Dev) (n : Nat) => s.on ((g.after s.clk (emit (.dma (x.base + x.head * 64 + 12) (puntResult p n)))).after s.clk (ringAdvance r 10 [1#8]))
        (len % 64 = 0 → 256 ≤ len → len ≤ 16384 →
          let g := (e.after s.clk (emit (.dma (beAt desc 0 8) (p.data.take n)))).addO 0x5420 1 r 1
          ans = .next (ends (if n < max p.len p.data.length then g.addO 0x5420 3 r 1 else g) n)) ∧
        (¬(len % 64 = 0 ∧ 256 ≤ len ∧ len ≤ 16384) → ans = .next (ends (e.addO 0x5420 2 r 1) 0))))) ∧
  (∀ (s : State) (r err : Nat) (desc data : Bytes), r < 16 → desc.length = 32 → err < 4 →
    let d := s.dev
    let x := d.ring (16 + r)
    let ans := exec (.injectTake r desc data err) s
    let served := fun (g : Dev) => ({ g with host := { g.host with injLast := nset g.host.injLast (g.o 0x5421 3 r) (r + 1) } } : Dev)
    let stopped : Prop := (oget d.yard.poolStall 1).isSome = true ∨ d.poolRoom 1 1 = false
    (d.injectNext ≠ some r → ans = .next s) ∧
    (d.injectNext = some r → stopped → ans = .next (s.on (d.after s.clk (do let _ ← poolTakeOrStall 1 1))) ∧
      (∃ t, ans = .next t ∧ t.dev.host = d.host ∧ t.dev.out = d.out)) ∧
    (d.injectNext = some r → ¬stopped →
      (injectOk desc = false → ans = .next (s.on ((((served d).addO 0x5421 2 r 1).after s.clk (raiseLim 563 0x5406 1 r r x.head 0 3)).after s.clk
        (ringAdvance (16 + r) 10 [2#8])))) ∧
      (injectOk desc = true → 0 < err → ans = .next (s.on (((served d).after s.clk (dmaReadError 0 (err - 1) (ringOffset (16 + r)))).after s.clk
        (ringAdvance (16 + r) 10 [3#8])))) ∧
      (injectOk desc = true → err = 0 →
        let len := beAt desc 8 2
        let q := ((poolTakeOrStall 1 (poolUnits len)).run s.clk).run d
        (q.1 = false → ans = .next (s.on q.2)) ∧
        (q.1 = true →
          let g := ((served q.2).addO 0x5421 1 r 1).addO 0x5421 4 r len
          let l := mget (dK []) g.host.inj r ++ [Inj.mk desc (fitTo len data) (poolUnits len)]
          ans = .next (s.on (({ g with host := { g.host with inj := mset (dK []) g.host.inj r l } } : Dev).after s.clk (ringAdvance (16 + r) 10 [1#8]))))))))

/-- HOST_ATTACH attaches a ready host (D0, Bus Master Enable) on a link that is up, and nothing attaches one that is not ready; the loss of an attached host (watchdog, link down, PERST_N, reset of function 0,
bus master off, D3hot, detach) gives state 2 with its cause, counts it and stops the rings of function 0; a host that is not attached is
not lost. PERST_N and a lost link zero the link's rate and width; a training sets them, unless PERST_N is asserted, and one below the last
is an event. Errors are counted and recorded. -/
def Obligations.HostComesAndGoes : Prop :=
  (∀ (s : State) (f k aer : Nat), f < 2 → k < 2 → aer < 2 ^ 32 →
    let e : Dev := { s.dev with host := { s.dev.host with aer := nset s.dev.host.aer (f * 2 + k) (nget s.dev.host.aer (f * 2 + k) ||| aer) } }
    exec (.pcieError f k aer) s = .next (s.on (if k = 0 then e.addO 0x5402 1 0 1 else (e.addO 0x5402 2 0 1).after s.clk (raiseEv 561 0x5408 2 aer f 0)))) ∧
  (∀ s : State, exec .barUnmappedAccess s = .next (s.on (s.dev.addO 0x5402 4 0 1))) ∧
  (∀ (s : State) (rate width : Nat), 1 ≤ rate → rate ≤ 5 → (width = 1 ∨ width = 2 ∨ width = 4 ∨ width = 8) →
    let train := fun (d : Dev) =>
      let r := d.o 0x5401 1
      let w := d.o 0x5401 2
      let e := (d.setO 0x5401 1 0 rate).setO 0x5401 2 0 width
      let e1 := e.addO 0x5401 3 0 1
      if r = 0 then e else if rate < r ∨ width < w then e1.after s.clk (raiseEv 560 0x5403 2 (r * 256 + w) (rate * 256 + width) 0) else e1
    (s.dev.host.perst = true → exec (.linkRetrain rate width) s = .next s) ∧
    (s.dev.host.perst = false → exec (.linkRetrain rate width) s = .next (s.on (train s.dev))) ∧
    exec (.perstRelease rate width) s = .next (s.on (train { s.dev with host := { s.dev.host with perst := false } }))) ∧
  (∀ s : State,
    let d := s.dev
    let gone := d.after s.clk (hostVanish 2)
    (d.o 0x5400 1 = 1 → ∀ ready, exec (.hostAttach ready) s = .next s) ∧
    (d.o 0x5400 1 ≠ 1 →
      let g := fun ready => ({ d with host := { d.host with busMaster := ready, d0 := d.host.d0 || ready } } : Dev)
      exec (.hostAttach false) s = .next (s.on (g false)) ∧
      (d.o 0x5401 1 = 0 → exec (.hostAttach true) s = .next (s.on (g true))) ∧
      (d.o 0x5401 1 ≠ 0 →
        let e := (g true).setO 0x5400 1 0 1
        exec (.hostAttach true) s = .next (s.on (({ e with host := { e.host with beat := s.clk.run } } : Dev).after s.clk
          (raiseEv 560 0x5402 1 (d.o 0x5401 1) (d.o 0x5401 2) (if d.o 0x5400 1 = 2 then (s.clk.run - d.host.lostAt) / uS else 0)))))) ∧
    (¬(d.host.busMaster = true ∧ d.host.d0 = true) → d.after s.clk hostAttach = d) ∧
    exec .hostHeartbeat s = .next (s.on { d with host := { d.host with beat := s.clk.run } }) ∧
    exec .hostDetach s = .next (s.on (d.after s.clk (hostVanish 5))) ∧
    exec .hostWdogExpiry s = .next (if d.o 0x5400 3 = 0 then s else s.on (d.after s.clk (hostVanish 3))) ∧
    exec .pcieLinkDown s = .next (s.on (d.after s.clk linkDown)) ∧
    exec (.functionLevelReset 0) s = .next (s.on ((d.after s.clk (hostVanish 2)).resetBar0 0).resetConfig) ∧
    exec (.functionLevelReset 1) s = .next (s.on (d.resetBar0 1)) ∧
    exec .busMasterDisable s = .next (s.on { gone with host := { gone.host with busMaster := false } }) ∧
    exec .d3hotEntry s = .next (s.on { gone with host := { gone.host with d0 := false } }) ∧
    exec .perstAssert s = .next (if d.host.perst then s else
      s.on (((({ d with host := { d.host with perst := true, aer := [] } } : Dev).addO 0x5401 4 0 1).after s.clk
        (raiseEv 560 0x5409 1 (d.o 0x5400 1) (d.o 0x5401 1) 0)).after s.clk linkDown))) ∧
  (∀ (k : Clock) (d : Dev) (cause : Nat),
    let e := d.after k (hostVanish cause)
    (d.o 0x5400 1 ≠ 1 → e = d) ∧
    (d.o 0x5400 1 = 1 → e.o 0x5400 1 = 2 ∧ e.o 0x5400 2 = cause ∧ e.o 0x5400 4 = (d.addO 0x5400 4 0 1).o 0x5400 4 ∧ e.host.lostAt = k.run ∧
      ∀ r, r ≠ 34 → (e.ring r).en = false ∧ (e.ring r).running = false) ∧
    (d.after k linkDown).o 0x5401 1 = 0 ∧ (d.after k linkDown).o 0x5401 2 = 0 ∧ (d.after k linkDown).host.busMaster = false)

/-! ### Monitoring (15) -/

/-- A write of g to 6002h.01 sets the first whole microsecond at least 10 us later, for group g or for every enabled group, and returns 0302h
for a number that names no group. The earliest instant latches its groups; a group whose last snapshot has not swapped skips it. At the
swap each latched group shows its words and its instant, and nothing is latched. A bandwidth window that ends shows its rate and its
frames, raises the peak, shifts the history (or clears it where the length was changed) and starts empty. A sample of a monitor that is on
enters its count, sum, minimum, maximum and bin; the end of an interval shows the values as the previous ones with the end time, and
starts an empty one. A change of a monitor's quantity or scope empties the interval. The composition of a group takes its key. -/
def Obligations.CountersAreSnapshotAndMonitored : Prop :=
  ((∀ (s : State) (w g : Nat), w < 8 → g < 65536 → s.writable w (okey 0x6002 1 0) (toBytes 2 g) →
    let t := ceilDiv (s.dev.instantNow s.clk + 10 * uUs) uUs * uUs
    let done := fun st f => exec (.snapNow w g) s = .next (s.wrote w (okey 0x6002 1 0) (toBytes 2 g) st f)
    (16384 ≤ g → g ≠ 0xFFFF → done 0x302 id) ∧
    (g < 16384 → done 0 fun d => { d with mon := { d.mon with snapSet := d.mon.snapSet ++ [(g, t)] } }) ∧
    (g = 0xFFFF → done 0 fun d => { d with mon := { d.mon with snapSet := d.mon.snapSet ++ d.snapGroups.map (fun x => (x, t)) } }) ∧
    t % uUs = 0 ∧ s.dev.instantNow s.clk + 10 * uUs ≤ t ∧ t < s.dev.instantNow s.clk + 11 * uUs) ∧
  (∀ s : State,
    let per := s.dev.snapPeriodic (s.dev.instantNow s.clk)
    let all := s.dev.mon.snapSet.map Prod.snd ++ per.toList
    (all = [] → exec .snapInstant s = .next s) ∧
    (∀ t, t ∈ all → (∀ x ∈ all, t ≤ x) → ∃ u, exec .snapInstant s = .next u ∧ u.dev.mon.snapSet = s.dev.mon.snapSet.filter (fun x => x.2 != t) ∧
      u.dev.mon.snapLast = (if per = some t then t else s.dev.mon.snapLast) ∧
      (∀ g, (g, t) ∈ s.dev.mon.snapSet ∨ (per = some t ∧ g ∈ s.dev.snapGroups) → u.dev.mon.snapLatched.any (fun x => x.1 == g) = true))) ∧
  (∀ (k : Clock) (d : Dev) (g t : Nat),
    let e := d.after k (snapLatch g t)
    (d.mon.snapLatched.any (fun x => x.1 == g) = true → e = (d.addO 0x6002 7 0 1).after k (raiseLim 639 0x6001 1 0 g (t / uNs) 0 3)) ∧
    (d.mon.snapLatched.any (fun x => x.1 == g) = false →
      ∃ ws, e.mon.snapLatched = d.mon.snapLatched ++ [(g, t, ws)] ∧ ws.length = d.groupCount g + 1)) ∧
  (∀ s : State, (s.dev.mon.snapLatched.map Prod.fst).Nodup → (∀ x ∈ s.dev.mon.snapLatched, x.1 < 16384) → ∃ u, exec .snapSwap s = .next u ∧
    u.dev.mon.snapLatched = [] ∧ ∀ g t ws, (g, t, ws) ∈ s.dev.mon.snapLatched → u.dev.o 0x6002 4 g = toT80 t ∧
      u.dev.o 0x6002 6 g = (s.dev.addO 0x6002 6 g 1).o 0x6002 6 g ∧ ∀ i, i < 512 → u.dev.o 0x6002 5 (g * 512 + i) = ws.getD i 0)) ∧
  ((∀ (s : State) (p : Nat) (tx : Bool), p < 256 → ∃ t, exec (.bwWindowEnd p tx) s = .next t ∧
    let d := s.dev
    let x := p * 2 + tx.toNat
    let len := mget (dK 1000) d.mon.bwLen x
    let rate := 8 * nget d.mon.bwBytes x / len
    t.dev.o 0x6020 2 x = rate ∧ t.dev.o 0x6020 4 x = nget d.mon.bwFrames x ∧ t.dev.o 0x6020 3 x = max (d.o 0x6020 3 x) rate ∧
    nget t.dev.mon.bwBytes x = 0 ∧ nget t.dev.mon.bwFrames x = 0 ∧ mget (dK 1000) t.dev.mon.bwLen x = d.o 0x6020 1 ∧
    (d.o 0x6020 1 = len → t.dev.o 0x6021 1 (x * 64) = rate ∧ ∀ h, h < 63 → t.dev.o 0x6021 1 (x * 64 + h + 1) = d.o 0x6021 1 (x * 64 + h)) ∧
    (d.o 0x6020 1 ≠ len → ∀ h, h < 64 → t.dev.o 0x6021 1 (x * 64 + h) = 0)) ∧
  (∀ (s : State) (m v : Nat), m < 64 → v < 2 ^ 32 →
    let d := s.dev
    let q := d.o 0x6030 1 m
    let scope := d.o 0x6030 2 m
    let l := d.mon.feed.filter (fun x => x.1 == m)
    let gauge := fun x => exec (.monSample m v) s = .next (s.on (d.after s.clk (monArrive m (d.instantNow s.clk) x)))
    (q = 4 → gauge d.sharedFree) ∧ (q = 7 → gauge (d.o 0x4302 1 scope)) ∧ (q = 8 → gauge (mget (dK []) d.yard.fifos scope).length) ∧
    (q ≠ 4 → q ≠ 7 → q ≠ 8 → (l = [] → exec (.monSample m v) s = .next s) ∧
      (∀ x, l[v % l.length]? = some x → exec (.monSample m v) s =
        .next (s.on (({ d with mon := { d.mon with feed := d.mon.feed.erase x } } : Dev).after s.clk (monArrive m x.2.1 x.2.2)))))) ∧
  (∀ (c : Clock) (d : Dev) (q scope v : Nat), d.after c (monFeed q scope v) = { d with mon := { d.mon with
    feed := d.mon.feed ++ (d.monitorsOf q scope).map (fun m => (m, d.instantNow c, v)) } }) ∧
  (∀ (c : Clock) (d : Dev) (m date v : Nat), m < 64 →
    let start := d.instantNow c / (d.o 0x6030 3 m * uMs) * (d.o 0x6030 3 m * uMs)
    let early : Prop := nget d.mon.ended m ≠ start ∧ start ≤ date
    let t := d.after c (monArrive m date v)
    let bin := ((List.range 15).filter (fun k => d.o 0x6031 1 (m * 15 + k) ≤ v)).length
    (early → t = { d with mon := { d.mon with next := d.mon.next ++ [(m, v)] } }) ∧
    (¬early → t = d.after c (monEnter m v) ∧
      t.o 0x6032 1 m = (d.addO 0x6032 1 m 1).o 0x6032 1 m ∧ t.o 0x6032 4 m = (d.addO 0x6032 4 m v).o 0x6032 4 m ∧
      t.o 0x6032 2 m = min (d.o 0x6032 2 m) v ∧ t.o 0x6032 3 m = max (d.o 0x6032 3 m) v ∧
      ∀ b, b < 16 → t.o 0x6032 (5 + b) m = if b = bin then (d.addO 0x6032 (5 + b) m 1).o 0x6032 (5 + b) m else d.o 0x6032 (5 + b) m)) ∧
  (∀ (s : State) (m : Nat), m < 64 → ∃ t, exec (.monIntervalEnd m) s = .next t ∧
    let now := s.dev.instantNow s.clk
    let period := s.dev.o 0x6030 3 m * uMs
    let waiting := s.dev.mon.next.filter (fun x => x.1 == m)
    t.dev.mon.next = s.dev.mon.next.filter (fun x => x.1 != m) ∧ nget t.dev.mon.ended m = now / period * period ∧
    (∀ k, 1 ≤ k → k ≤ 20 → t.dev.o 0x6033 k m = s.dev.o 0x6032 k m ∧ (waiting = [] → t.dev.o 0x6032 k m = (if k = 2 then 0xFFFFFFFF else 0))) ∧
    (∀ v, waiting = [(m, v)] → t.dev.o 0x6032 1 m = 1 ∧ t.dev.o 0x6032 4 m = v % 2 ^ 64 ∧ t.dev.o 0x6032 2 m = min 0xFFFFFFFF v ∧ t.dev.o 0x6032 3 m = v) ∧
    t.dev.o 0x6033 0x15 m = toT80 (now / period * period) ∧
    t.dev.o 0x6033 0x16 m = (if s.dev.oB 0x1800 3 = true ∧ s.dev.mon.monGood.contains m = true then 0 else 1)) ∧
  (∀ (s : State) (w : Nat) (sub m v : Nat), w < 8 → 1 ≤ sub → sub ≤ 2 → m < 64 → v < 2 ^ 32 → s.writable w (okey 0x6030 sub m) (toBytes (if sub = 1 then 1 else 4) v) →
      exec (.monConfigWrite w sub m v) s = .next (s.wrote w (okey 0x6030 sub m) (toBytes (if sub = 1 then 1 else 4) v) 0 (fun d => if d.o 0x6030 sub m = v % 256 ^ (if sub = 1 then 1 else 4) then d.setO 0x6030 sub m (v % 256 ^ (if sub = 1 then 1 else 4))
        else (d.setO 0x6030 sub m (v % 256 ^ (if sub = 1 then 1 else 4))).after s.clk (monRestart m)))) ∧
  (∀ (s : State) (w : Nat) (i v : Nat), w < 8 → i < 130816 → v < 2 ^ 64 → s.writable w (okey 0x6001 1 i) (toBytes 8 v) →
      exec (.groupComposeWrite w i v) s = .next (s.wrote w (okey 0x6001 1 i) (toBytes 8 v) 0 (fun d => d.setO 0x6001 1 i v))))

/-- A sampled cycle of an enabled core that runs writes a record to the ring of its Sill, or is counted as lost where a ring that stops is
full; clearing a ring empties it, its sequence goes on. A flush sends one message of the oldest records, which leave the buffer when the
message rate admits it; an empty buffer sends nothing; templates go out while export is enabled. -/
def Obligations.RecordsAreKeptAndExported : Prop :=
  (∀ (s : State) (n t : Nat), n < 32 → t < 16 →
    (s.dev.oB 0x6050 1 n = false ∨ 3 ≤ s.dev.o 0x7010 1 (640 + n) → exec (.uwordSample n t) s = .next s) ∧
    (s.dev.oB 0x6050 1 n = true → s.dev.o 0x7010 1 (640 + n) < 3 → s.dev.o 0x6050 3 n = 0 →
      let x := mget (dK (0, 0)) s.dev.joinery.cycle n
      let slot := (x.1 + (s.clk.run - x.2) * 1500000000 / uS) % 64
      let rec_ := fun (th : Option Nat) (issued : Bool) k => sampleBytes s.dev s.clk n th issued slot k
      ((s.dev.thr (n * 16 + t)).st = 1 → exec (.uwordSample n t) s = .next (s.on (s.dev.after s.clk (sampleWrite (n / 16) (rec_ (some t) true 0))))) ∧
      ((s.dev.thr (n * 16 + t)).st ≠ 1 → exec (.uwordSample n t) s =
        .next (s.on (({ s.dev with free := s.dev.free + 1 } : Dev).after s.clk (sampleWrite (n / 16) (rec_ none false (Config.freeValue s.dev.free))))))) ∧
    (s.dev.oB 0x6050 1 n = true → s.dev.o 0x7010 1 (640 + n) < 3 → s.dev.o 0x6050 3 n ≠ 0 → (∀ x, x < 16 → (s.dev.thr (n * 16 + x)).st = 0) →
      exec (.uwordSample n t) s = .next s)) ∧
  (∀ (d : Dev) (c : Clock) (n : Nat) (th : Option Nat) (issued : Bool) (slot k : Nat),
    let b := sampleBytes d c n th issued slot k
    b.length = 16 ∧ beAt b 6 1 = n % 256 ∧ beAt b 11 1 % 64 = slot % 64 ∧ beAt b 8 2 / 32768 = (ofBool issued) ∧ beAt b 14 2 = crc16 (b.take 14) % 65536) ∧
  (∀ (k : Clock) (d : Dev) (i : Nat) (b : Bytes),
    let e := d.after k (sampleWrite i b)
    let full : Prop := d.o 0x6051 1 i = 1 ∧ 2 ^ 25 ≤ nget d.mon.sampleN i
    (full → e.o 0x6051 3 i = (d.addO 0x6051 3 i 1).o 0x6051 3 i ∧ e.mon.samples = d.mon.samples ∧ e.o 0x6051 2 i = d.o 0x6051 2 i) ∧
    (¬full → e.o 0x6051 2 i = (d.o 0x6051 2 i + 1) % 2 ^ 64 ∧ oget e.mon.samples (i * 2 ^ 25 + d.o 0x6051 2 i % 2 ^ 25) = some (ofBytes b) ∧
      nget e.mon.sampleN i = min (2 ^ 25) (nget d.mon.sampleN i + 1))) ∧
  (∀ (s : State) (w : Nat), w < 8 → s.writable w (okey 0x6041 6 0) (toBytes 1 1) →
      exec (.traceClear w) s = .next (s.wrote w (okey 0x6041 6 0) (toBytes 1 1) 0 (fun d => { d with mon := { d.mon with trace := [], traceN := 0, traceLost := false, traceFull := false } }))) ∧
  (∀ (s : State) (w i : Nat), w < 8 → i < 2 → s.writable w (okey 0x6051 5 i) (toBytes 1 1) → ∃ t, exec (.sampleClear w i) s = .next t ∧
    (t.dev.win w).status = 0 ∧ nget t.dev.mon.sampleN i = 0 ∧ t.dev.o 0x6051 2 i = s.dev.o 0x6051 2 i ∧ (∀ x, oget t.dev.mon.samples (i * 2 ^ 25 + x % 2 ^ 25) = none) ∧
    ∀ x, oget t.dev.mon.samples ((1 - i) * 2 ^ 25 + x % 2 ^ 25) = oget s.dev.mon.samples ((1 - i) * 2 ^ 25 + x % 2 ^ 25)) ∧
  (∀ (s : State) (k : Nat), k < 2 →
    let l := s.dev.expBuf k
    (l = [] → exec (.exportFlushExpiry k) s = .next s) ∧
    exec (.exportFlushExpiry k) s = .next (s.on (s.dev.after s.clk (expRun k (s.dev.expTake l (min l.length 200)))))) ∧
  (∀ (c : Clock) (d : Dev) (k n : Nat), k < 2 →
    let take := fun (g : Dev) (r : Nat × Bool × Bytes) =>
      let q := ((dramTake k (1280 + r.1 % expSize / 65536) (r.1 % 65536 * 2) 2 true).run c).run g
      if q.1 then q.2 else (q.2.setExp k ((q.2.expBuf k).erase r)).after c (expLost k 2)
    let g := ((d.expBuf k).take n).foldl take d
    d.after c (expRead k n) = g ∧ d.after c (expRun k n) = g.after c (expMessage k (n - ((d.expBuf k).length - (g.expBuf k).length)))) ∧
  (∀ (c : Clock) (d : Dev) (k n : Nat), d.expBuf k ≠ [] → 0 < n →
    let now := (d.expBuf k).take n
    let part := fun b => (now.filter (fun r => r.2.1 == b)).map (fun r => r.2.2)
    let r := ((expSend k (dataSet 256 (part false) ++ dataSet 257 (part true)) now.length).run c).run d
    d.after c (expMessage k n) = if r.1 then r.2.setExp k ((d.expBuf k).drop n) else r.2) ∧
  (∀ (c : Clock) (d : Dev) (k n : Nat) (b : Bytes), d.o 0x6070 0xC ≤ (if (mget (dK (0, 0)) d.mon.expRate k).1 = c.run / uS then (mget (dK (0, 0)) d.mon.expRate k).2 else 0) →
    ((expSend k b n).run c).run d = (false, d)) ∧
  (∀ s : State, (s.dev.oB 0x6070 1 = false → exec .exportTemplateSend s = .next s) ∧
    (s.dev.oB 0x6070 1 = true → exec .exportTemplateSend s = .next (s.on
      (((expSend 1 (templateSet false ++ templateSet true) 0).run s.clk).run (((expSend 0 (templateSet false ++ templateSet true) 0).run s.clk).run s.dev).2).2)))

/-! ### Events and the Ledger (16) -/

/-- The writer takes the oldest event message: its record gets the next sequence number, and while a core is in service a message of severity
3, or one whose source is routed there, is stored. With none waiting, or with the writer stalled, nothing happens. The end of a second
reports each source that was limited; the summary reports what storage discarded. A read of the Ledger window of a plane returns the
oldest record at or after its cursor, which moves behind it; there the object reads 0 where there is none. A slot that fails its check is
emptied and counted. A clear below severity v deletes those records and no other, with record 6402h, and returns 0302h for v outside 1 to
4. While the store is stalled a read and a clear return 0701h. -/
def Obligations.LedgerRecordsAndIsRead : Prop :=
  ((∀ s : State, (s.dev.ev.queue = [] ∨ 3 ≤ s.dev.o 0x7010 1 678 → exec .ledgerRecord s = .next s) ∧
    (∀ m r, s.dev.ev.queue = m :: r → s.dev.o 0x7010 1 678 < 3 →
      let e := ({ s.dev with ev := { s.dev.ev with queue := r } } : Dev).poolGive 15 1
      exec .ledgerRecord s = .next (s.on (e.after s.clk (formRecord m))))) ∧
  (∀ (d : Dev) (k : Nat) (m : EvMsg) (rest : PMap (Option EvMsg)),
    (d.poolRoom 15 1 = false → Dev.sendHeld ((k, some m) :: rest) d = d) ∧
    (d.poolRoom 15 1 = true → Dev.sendHeld ((k, some m) :: rest) d =
      Dev.sendHeld rest { d.poolTake 15 1 with ev := { d.ev with queue := d.ev.queue ++ [m], held := oset d.ev.held k none } })) ∧
  (∀ (d : Dev) (i n : Nat), i < 16 → i ≠ 15 → n ≤ d.o 0x4302 1 i → d.o 0x4302 1 i < 2 ^ 32 →
    (d.poolGive i n).o 0x4302 1 i = d.o 0x4302 1 i - n ∧ (d.ev.held = [] → d.poolGive i n = d.setO 0x4302 1 i (d.o 0x4302 1 i - n))) ∧
  (∀ (c : Clock) (d : Dev) (m : EvMsg),
    let e := d.after c (formRecord m)
    let kept : Prop := bitOf (d.o 0x6400 2 m.src) 3 = true ∨ m.sev = 3
    e.o 0x6410 3 = (d.o 0x6410 3 + 1) % 2 ^ 48 ∧
    (¬kept → e.ev.slots = d.ev.slots) ∧
    (kept → d.anyCore = false → e.ev.slots = d.ev.slots ∧ e.ev.notStoredN = d.ev.notStoredN + 1 ∧
      e.ev.notStored = some (d.ev.notStored.getD (d.o 0x6410 3))) ∧
    (kept → d.anyCore = true → d.ev.slots.length < 131072 →
      let j := emptySlot d.ev.slots 0
      e.ev.slots = oset d.ev.slots j (some ⟨d.o 0x6410 3, ofBytes (recordBytes m (d.o 0x6410 3))⟩) ∧ e.ev.storing = some j ∧
        e.ev.dirEntry j = 0xFFFFFFFF ∧ oget e.ev.present j = none)) ∧
  (∀ (s : State) (run : Nat), (s.dev.elapsed run).ev.storing = none ∧ (s.dev.elapsed run).ev.slots = s.dev.ev.slots) ∧
  (∀ s : State, (s.dev.ev.second = [] → exec .limiterSecond s = .next (s.on { s.dev with ev := { s.dev.ev with seconds := [] } })) ∧
    (∀ k n, s.dev.ev.second = [(k, n)] →
      let q := nget s.dev.ev.seconds k + 1
      exec .limiterSecond s = .next (s.on (({ s.dev with ev := { s.dev.ev with second := [], seconds := nset [] k q } } : Dev).after s.clk
        (raiseEv 610 0x6401 1 k n q))))) ∧
  (∀ s : State, let n := nget s.dev.ev.disc
    (s.dev.ev.disc = [] → exec .ledgerDiscardSummary s = .next s) ∧
    (s.dev.ev.disc ≠ [] → exec .ledgerDiscardSummary s = .next (s.on
      (({ s.dev with ev := { s.dev.ev with disc := [] } } : Dev).after s.clk (raiseEv 610 0x6403 2 (n 0 + n 1) (n 2) (n 3)))))) ∧
  (∀ s : State, (3 ≤ s.dev.o 0x7010 1 679 → exec .operatingTimeTick s = .next s) ∧
    (s.dev.o 0x7010 1 679 < 3 → exec .operatingTimeTick s = .next (s.on (s.dev.addO 0x6410 0xA 0 1))))) ∧
  ((∀ (s : State) (w : Nat), w < 8 → s.dev.pcieUp = true → s.dev.hostOk (w / 4) = true →
    let key := okey 0x6420 2 (w / 4)
    (∀ r, s.dev.readCheck (w / 4) key = .ok r → 3 ≤ s.dev.o 0x7010 1 678 →
      exec (.ledgerRead w []) s = .next (s.on (Dev.winEnd s.dev w key (owCtrl 1 0) 0x701 []))) ∧
    (∀ r, s.dev.readCheck (w / 4) key = .ok r → s.dev.o 0x7010 1 678 < 3 → s.dev.dict.pegIndet.contains key = false →
      let cur := s.dev.o 0x6420 1 (w / 4)
      let done := fun d v => exec (.ledgerRead w []) s = .next (s.on (Dev.winEnd d w key (owCtrl 1 0) 0 (toBytes r.ty.len v)))
      (oldestSlot (fun x => cur ≤ x.seq) s.dev.ev.present = none → done s.dev 0) ∧
      (∀ j x, oldestSlot (fun x => cur ≤ x.seq) s.dev.ev.present = some (j, x) → s.dev.ev.rotten.contains j = false →
        done ((s.dev.setO 0x6420 3 (w / 4) x.seq).setO 0x6420 1 (w / 4) (x.seq + 1)) x.data))) ∧
  (∀ (s : State) (w : Nat) (bad : List Nat), w < 8 → bad.all (· < 131072) = true →
    exec (.ledgerRead w bad) s = .next (s.on ((s.dev.rot bad).after s.clk (winRead w (okey 0x6420 2 (w / 4)))))) ∧
  (∀ (c : Clock) (d : Dev) (pl n j : Nat) (x : LRec), pl < 2 → oldestSlot (fun x => d.o 0x6420 1 pl ≤ x.seq) d.ev.present = some (j, x) →
    j ∈ d.ev.rotten → ((ledgerNext pl (n + 1)).run c).run d = ((ledgerNext pl n).run c).run (d.after c (slotFails [j]))) ∧
  (∀ (c : Clock) (d : Dev) (j : Nat) (x : LRec), oget d.ev.slots j = some x → let e := d.after c (slotFails [j])
    oget e.ev.slots j = none ∧ (∀ i, i ≠ j → oget e.ev.slots i = oget d.ev.slots i) ∧ e.o 0x6410 7 = (d.addO 0x6410 7 0 1).o 0x6410 7) ∧
  (∀ (p : LRec → Bool) (m : PMap (Option LRec)),
    (oldestSlot p m = none → ∀ e ∈ m, ∀ r, e.2 = some r → p r = false) ∧
    (∀ j x, oldestSlot p m = some (j, x) → (j, some x) ∈ m ∧ p x = true ∧ ∀ e ∈ m, ∀ r, e.2 = some r → p r = true → x.seq ≤ r.seq)) ∧
  (∀ (s : State) (w v : Nat), w < 8 → v < 256 → s.writable w (okey 0x6420 4 0) (toBytes 1 v) →
    let store := s.dev.o 0x7010 1 678
    (3 ≤ store → exec (.ledgerClear w v) s = .next (s.wrote w (okey 0x6420 4 0) (toBytes 1 v) 0x701 id)) ∧
    (store < 3 → v = 0 ∨ 4 < v → exec (.ledgerClear w v) s = .next (s.wrote w (okey 0x6420 4 0) (toBytes 1 v) 0x302 id)) ∧
    (store < 3 → 1 ≤ v → v ≤ 4 → ∃ t, exec (.ledgerClear w v) s = .next t ∧ (t.dev.win w).status = 0 ∧
      ∀ j r, (j, some r) ∈ t.dev.ev.slots ↔ (j, some r) ∈ s.dev.ev.slots ∧ v ≤ r.sev)))

/-! ### Firmware, cores, keys and debug (17) -/

/-- Writes of the update objects and its commands: 0402h to the plane that does not own the update (an abort after the timeout excepted),
0701h while no core serves it or the state does not allow it, 0302h for a command that the state does not take. The end of verification
gives state 3 with the image in its flash slot, or state 4 with the cause; the trial that runs out reverts. An activation writes a boot record
on trial with the next SEQ; each core restarts with a handover once the other one is in service. -/
def Obligations.UpdatesFollowTheirState : Prop :=
  (∀ (s : State) (w k : Nat) (data : Bytes), w < 8 → k < 65536 → s.writable w (okey 0x1420 3 k) data →
    let pl := w / 4
    let own := s.dev.o 0x1420 1
    let served := s.dev.updServed (s.dev.o 0x1420 2)
    let done := fun st f => exec (.updChunk w k data) s = .next (s.wrote w (okey 0x1420 3 k) data st f)
    let chunk := fun (d : Dev) => ({ d with sec := { d.sec with chunks := oset d.sec.chunks k (some data) } } : Dev)
    (served = false → done 0x701 id) ∧
    (served = true → s.dev.updState ≠ 0 → own ≠ pl + 1 → done 0x402 id) ∧
    (served = true → (s.dev.updState = 0 ∨ own = pl + 1) → ceilDiv (s.dev.o 0x1420 4) 256 ≤ k → done 0x302 id) ∧
    (served = true → own = pl + 1 → k < ceilDiv (s.dev.o 0x1420 4) 256 → done 0 fun d => chunk { d with sec := { d.sec with updLast := s.clk.run } }) ∧
    (served = true → own = 0 → s.dev.updState = 0 → k < ceilDiv (s.dev.o 0x1420 4) 256 → done 0 fun d =>
      let e := (d.setO 0x1420 1 0 (pl + 1)).setO 0x1420 6 0 1
      chunk { e with sec := { e.sec with updLast := s.clk.run, chunks := [], holder := if d.inService 0 then 0 else 1 } })) ∧
  (∀ (s : State) (w : Nat) (fail : List Nat) (c : Instr) (v : Nat), w < 8 →
    (c, v) ∈ [(Instr.updVerify w, 1), (Instr.updActivate w, 2), (Instr.updConfirm w fail, 3), (Instr.updAbort w, 4)] →
    s.writable w (okey 0x1420 5 0) (toBytes 1 v) →
    let d := s.dev
    let st := d.updState
    let other : Prop := st ≠ 0 ∧ d.o 0x1420 1 ≠ 0 ∧ d.o 0x1420 1 ≠ w / 4 + 1
    let broken : Prop := v = 4 ∧ d.sec.updLast + d.o 0x1020 7 * uS ≤ s.clk.run
    let touch := fun (e : Dev) => ({ e with sec := { e.sec with updLast := s.clk.run } } : Dev)
    let done := fun x f => exec c s = .next (s.wrote w (okey 0x1420 5 0) (toBytes 1 v) x f)
    (other → ¬broken → done 0x402 id) ∧
    ((¬other ∨ broken) → d.updServed (d.o 0x1420 2) = false → done 0x701 id) ∧
    ((¬other ∨ broken) → d.updServed (d.o 0x1420 2) = true →
      (st = 2 ∨ st = 5 ∨ st = 7 ∨ d.sec.patching = true → done 0x701 id) ∧
      (d.sec.patching = false → other → (st = 1 ∨ st = 3 ∨ st = 4) → done 0 fun e => (e.after s.clk (updDiscard 2)).after s.clk updEnd) ∧
      (d.sec.patching = false → ¬other →
        (v = 1 → st = 1 → done 0 fun e => let e := touch e
          let g := e.setO 0x1420 6 0 2
          { g with sec := { g.sec with staged := e.stagedImage } }) ∧
        (v = 2 → st = 3 → done 0 fun e => (touch e).after s.clk updActivate) ∧
        (v = 3 → st = 6 → ∃ x e, exec c s = .next (s.wrote w (okey 0x1420 5 0) (toBytes 1 v) x fun _ => e) ∧ (x = 0 ∨ x = 0x701) ∧ (x = 0 → e.updState = 0)) ∧
        (v = 4 → (st = 1 ∨ st = 3 ∨ st = 4) → done 0 fun e => (touch e).after s.clk updEnd) ∧
        (v = 4 → st = 6 → done 0 fun e => (touch e).after s.clk (updRevert 0)) ∧
        (st ≠ 2 → st ≠ 5 → st ≠ 7 → (v, st) ∉ [(1, 1), (2, 3), (3, 6), (4, 1), (4, 3), (4, 4), (4, 6)] → done 0x302 touch)))) ∧
  (∀ s : State,
    let d := s.dev
    let kind := d.o 0x1420 2
    let r := d.sec.boot
    let i := (kind - 1) * 2 + (if d.sec.romHold then 0 else if kind = 1 then 1 - r.fwActive else if r.patchActive = 0 then 1 else 0)
    let refused := fun (c : Nat × Nat) b => exec .updVerifyDone s = .next (s.on ((d.setO 0x1420 6 0 4).after s.clk (imageRefused i c b)))
    (d.updState ≠ 2 → exec .updVerifyDone s = .next s) ∧
    (d.updState = 2 →
      (d.sec.staged = none → refused (7, 0) []) ∧
      (∀ b c, d.sec.staged = some b → d.imageCheck kind b = some c → refused c b) ∧
      (∀ b, d.sec.staged = some b → d.imageCheck kind b = none → d.sec.romHold = false →
        let e := d.setO 0x1420 6 0 3
        exec .updVerifyDone s = .next (s.on (({ e with sec := { e.sec with flash := oset e.sec.flash i (some b), updImage := i, staged := none } } : Dev).after s.clk
          (raiseEv 548 0x1405 1 i (imgVersion b) (imgSvn b))))) ∧
      (∀ b, d.sec.staged = some b → d.imageCheck kind b = none → d.sec.romHold = true → ∃ t, exec .updVerifyDone s = .next t ∧
        t.dev.updState = 0 ∧ oget t.dev.sec.flash i = some b ∧ t.dev.o 0x1460 1 0 = 4 ∧ t.dev.o 0x1460 1 1 = 4))) ∧
  (∀ (k : Clock) (d : Dev), d.sec.updImage = 2 ∨ d.sec.updImage = 3 → let e := d.after k updActivate
    e.sec.boot.patchTry = 1 ∧ e.sec.updOld = d.sec.boot.patchActive) ∧
  (∀ (k : Clock) (d : Dev), d.sec.updImage < 2 → let e := d.after k updActivate
    let r := e.sec.boot
    r.fwActive = d.sec.updImage ∧ r.fwTry = 1 ∧ r.fwTryLeft = 3 ∧ r.seq = (d.sec.boot.seq + 1) % 2 ^ 32 ∧ e.sec.updOld = d.sec.boot.fwActive) ∧
  (∀ (k : Clock) (d : Dev) (c : Nat) (rest : List Nat), c < 2 → d.sec.updRun = false → d.sec.updSeq = c :: rest →
    let e := d.after k updStep
    (d.o 0x1460 1 (1 - c) ≠ 2 → e = d) ∧
    (d.o 0x1460 1 (1 - c) = 2 → e.sec.updRun = true ∧ (d.o 0x1460 1 c = 2 → e.o 0x1460 1 c = 3 ∧ e.o 0x1460 8 c = 6))) ∧
  (∀ s : State, (s.dev.updState ≠ 6 → exec .updTrialExpiry s = .next s) ∧
    (s.dev.updState = 6 → exec .updTrialExpiry s = .next (s.on (s.dev.after s.clk (updRevert 1)))))

/-- A core that hands over, restarts, or has not yet chosen a slot, boots the slot of the boot record if its image passes, and fails when both slots fail;
a core with a chosen slot comes into service with it. A watchdog expiry or a fatal fault of a core in service is an unplanned restart:
counted, with its cause, and after more than 1460h.07 of them in 600 s the core has failed. A commanded restart hands over to the other
core, restarts a failed core, and otherwise returns 0701h; a core that hands over is in state 3, and in state 4 as time passes. A boot record
is valid where its CRC holds, and the record in force is the valid copy of the higher SEQ. -/
def Obligations.CoresStartAndRestart : Prop :=
  (∀ (s : State) (c : Nat), c < 2 →
    let d := s.dev
    let st := d.o 0x1460 1 c
    let due : Prop := st = 3 ∨ st = 4 ∨ (st = 1 ∧ oget d.sec.bootSel c = none)
    let r := d.sec.boot
    (¬due → exec (.coreBoot c) s = .next s) ∧
    (∀ b, due → ¬(r.fwTry = 1 ∧ r.fwTryLeft = 0) → r.fwActive < 2 → d.image r.fwActive = some b → d.imageCheck 1 b = none →
      let e := if c = 0 ∧ d.sec.tried = false ∧ r.fwTry = 1 then d.writeBoot (fun r => { r with fwTryLeft := r.fwTryLeft - 1 }) else d
      let g := e.setO 0x1460 1 c 1
      exec (.coreBoot c) s = .next (s.on (({ g with sec := { g.sec with tried := g.sec.tried || c == 0, bootSel := oset g.sec.bootSel c (some r.fwActive), running := nset g.sec.running c (imgDigest b) } } : Dev).after s.clk storeDrive))) ∧
    (due → r.fwActive < 2 → (∀ i, i < 2 → ∀ b, d.image i = some b → d.imageCheck 1 b ≠ none) → ∃ t, exec (.coreBoot c) s = .next t ∧
      t.dev.o 0x1460 1 c = 5 ∧ (c = 0 → t.dev.o 0x1460 1 1 = 5))) ∧
  (∀ (s : State) (c : Nat), c < 2 →
    let d := s.dev
    (d.o 0x1460 1 c ≠ 1 ∨ oget d.sec.bootSel c = none → exec (.coreInService c) s = .next s) ∧
    (∀ x, d.o 0x1460 1 c = 1 → oget d.sec.bootSel c = some x → ∃ t, exec (.coreInService c) s = .next t ∧ t.dev.o 0x1460 2 c = x ∧
      (d.sec.updSeq = [] → t.dev.o 0x1460 1 c = 2)) ∧
    (d.inService c = false → exec (.coreWdogExpiry c) s = .next s ∧ exec (.fatalFirmwareFault c) s = .next s) ∧
    (d.inService c = true → exec (.coreWdogExpiry c) s = .next (s.on (d.after s.clk (coreUnplanned c 1))) ∧
      exec (.fatalFirmwareFault c) s = .next (s.on (d.after s.clk (coreUnplanned c 4))))) ∧
  (∀ (k : Clock) (d : Dev) (c cause : Nat), c < 2 → 1 ≤ d.o 0x1460 1 c → d.o 0x1460 1 c ≤ 3 →
    let e := d.after k (coreUnplanned c cause)
    let n := ((mget (dK []) d.sec.restarts c).filter (fun t => k.run < t + 600 * uS)).length + 1
    e.o 0x1460 8 c = cause ∧ e.o 0x1460 5 c = (d.addO 0x1460 5 c 1).o 0x1460 5 c ∧ e.o 0x1460 1 c = (if d.o 0x1460 7 < n then 5 else 4)) ∧
  (∀ (s : State) (w c : Nat), w < 8 → c < 2 → s.writable w (okey 0x1460 4 c) (toBytes 1 1) →
    let d := s.dev
    let done := fun x f => exec (.coreRestartCmd w c) s = .next (s.wrote w (okey 0x1460 4 c) (toBytes 1 1) x f)
    (d.o 0x1460 1 c = 5 → done 0 fun d => let e := (d.setO 0x1460 8 c 5).coreGoes c
      { e with sec := { e.sec with restarts := mset (dK []) e.sec.restarts c [] } }) ∧
    (d.o 0x1460 1 c = 2 → d.o 0x1460 1 (1 - c) = 2 → done 0 fun d => d.after s.clk (handover c 5)) ∧
    (d.o 0x1460 1 c ≠ 5 → ¬(d.o 0x1460 1 c = 2 ∧ d.o 0x1460 1 (1 - c) = 2) → done 0x701 id)) ∧
  (∀ (k : Clock) (d : Dev) (c cause : Nat), c < 2 → let e := d.after k (handover c cause)
    e.o 0x1460 1 c = 3 ∧ (∀ run, (e.elapsed run).o 0x1460 1 c = 4) ∧ e.o 0x1460 8 c = cause ∧ e.o 0x1460 1 (1 - c) = d.o 0x1460 1 (1 - c) ∧ ∀ i ∈ d.sessionsOn c, (e.sessOf i).core = 1 - c) ∧
  (∀ r : BootRec, r.seq < 2 ^ 32 → r.fwActive < 256 → r.fwTry < 256 → r.fwTryLeft < 256 → r.patchActive < 256 → r.patchTry < 256 →
    r.bytes.length = 64 ∧ bootOf r.bytes = some r) ∧
  (∀ b : Bytes, (b.length ≠ 64 ∨ beAt b 60 4 ≠ crc32c (b.take 60)) → bootOf b = none) ∧
  (∀ (x : Sec) (a b : BootRec), bootOf x.recA = some a →
    (bootOf x.recB = none → x.boot = a) ∧ (bootOf x.recB = some b → x.boot = if epochHigher b.seq a.seq then b else a))

/-- A session key that is written is lit with an epoch of its own, counted, and starts its session's sequence at 0. Zeroizing disables every
session and erases every session key. Locking the keys sets the lock. Extending the user measurement hashes it with the data. A report is
refused with 0701h while the plane waits for one, no core is in service or the secret is bad; else the plane waits, and the first plane
that waits is signed at once. When the signing is done the report of the plane stands there, signed; the random value of the signature is
free (log entry 96). -/
def Obligations.KeysAreErasedAndReportsSigned : Prop :=
  (∀ (s : State) (w : Nat), w < 8 → s.writable w (okey 0x1430 3 0) (toBytes 1 1) → ∃ t, exec (.zeroize w) s = .next t ∧ (t.dev.win w).status = 0 ∧
    ∀ k, k < 64 → t.dev.o 0x1140 1 k = 0 ∧ t.dev.o 0x1140 2 k = 0 ∧ (t.dev.sessOf k).recH = 0) ∧
  (∀ (s : State) (w k : Nat) (key : Bytes), w < 8 → k < 64 → s.writable w (okey 0x1140 2 k) key → s.dev.commitsFull = false →
    ∃ t, exec (.sessionKeyWrite w k key) s = .next t ∧ (t.dev.win w).status = 0 ∧ t.dev.o 0x1140 2 k = ofBytes key ∧ t.dev.o 0x1140 6 k = 0 ∧
      t.dev.dict.epoch = s.dev.dict.epoch + 1 ∧ (t.dev.sessOf k).mask = 0 ∧ (t.dev.sessOf k).recH = 0 ∧
      t.dev.o 0x1430 4 = (s.dev.addO 0x1430 4 0 1).o 0x1430 4) ∧
  (∀ (s : State) (w : Nat), w < 8 → s.writable w (okey 0x1430 2 0) (toBytes 1 1) →
      exec (.keyLock w) s = .next (s.wrote w (okey 0x1430 2 0) (toBytes 1 1) 0 (fun d => d.setO 0x1430 2 0 1))) ∧
  (∀ (s : State) (w : Nat) (data : Bytes), w < 8 → s.writable w (okey 0x1450 2 0) data →
    exec (.userExtend w data) s = .next (s.wrote w (okey 0x1450 2 0) data 0 fun d =>
      d.setO 0x1450 1 6 (ofBytes (shake256 (toBytes 32 (d.o 0x1450 1 6) ++ data) 32)))) ∧
  (∀ (s : State) (w pl : Nat) (nonce : Bytes), w < 8 → pl < 2 → s.writable w (okey 0x1450 3 pl) nonce →
    let d := s.dev
    let refused : Prop := d.sec.attQueue.any (fun q => q.1 == w / 4) = true ∨ d.anyCore = false ∨ d.sec.secretBad = true
    let done := fun x f => exec (.attRequest w pl nonce) s = .next (s.wrote w (okey 0x1450 3 pl) nonce x f)
    let waits := fun (e : Dev) => let g := e.setO 0x1450 4 (w / 4) 1
      ({ g with sec := { g.sec with attQueue := g.sec.attQueue ++ [(w / 4, ofBytes nonce)], reports := oset g.sec.reports (w / 4) none } } : Dev)
    (refused → done 0x701 id) ∧ (¬refused → d.sec.attQueue ≠ [] → done 0 waits) ∧
    (¬refused → d.sec.attQueue = [] → done 0 fun e => let g := (waits e).setO 0x1450 4 (w / 4) 2
      { g with sec := { g.sec with attNonce := ofBytes nonce, attBody := (waits e).reportBody s.clk (ofBytes nonce) } })) ∧
  (∀ (s : State) (pl ms : Nat), pl < 2 →
    (s.dev.o 0x1450 4 pl ≠ 2 → exec (.attSignDone pl ms) s = .next s) ∧
    (s.dev.o 0x1450 4 pl = 2 → ∃ t, exec (.attSignDone pl ms) s = .next t ∧ t.dev.o 0x1450 4 pl = 3 ∧
      oget t.dev.sec.reports pl = some (s.dev.sec.attBody ++ fitTo 29792
        (slhSign identitySeed (Config.freeValue s.dev.free % 2 ^ 256) (slhMessage "ULUASH-ATTEST" s.dev.sec.attBody))) ∧
      t.dev.sec.attQueue = s.dev.sec.attQueue.filter (fun q => q.1 != pl)))

/-- A token is submitted for the challenge that stands, which is renewed; a second one is 0701h while one is verified. A token that is refused
is counted with its cause; one that passes opens its scope for its time, counted in device time, and extends measurement 5. A lock or the expiry closes the scope
and renews the challenge; with nothing open neither does anything. -/
def Obligations.DebugIsUnlockedByToken : Prop :=
  (∀ (s : State) (w pl : Nat), w < 8 → pl < 2 → s.writable w (okey 0x8000 3 pl) (toBytes 1 1) →
    (∀ x, s.dev.sec.verifying = some x → exec (.dbgSubmit w pl) s = .next (s.wrote w (okey 0x8000 3 pl) (toBytes 1 1) 0x701 id)) ∧
    (s.dev.sec.verifying = none → ∃ v, exec (.dbgSubmit w pl) s = .next (s.wrote w (okey 0x8000 3 pl) (toBytes 1 1) 0 fun d =>
      let e := (d.setO 0x8000 4 0 1).setO 0x8000 1 0 v
      { e with sec := { e.sec with verifying := some (w / 4, d.o 0x8000 1) }, free := e.free + 1 }))) ∧
  (∀ (s : State) (w : Nat) (pl : Nat), w < 8 → pl < 2 → s.writable w (okey 0x8000 3 pl) (toBytes 1 2) →
      exec (.dbgLock w pl) s = .next (s.wrote w (okey 0x8000 3 pl) (toBytes 1 2) 0 (fun d => d.after s.clk (dbgLock 0)))) ∧
  (∀ s : State, exec .dbgUnlockExpiry s = .next (s.on (s.dev.after s.clk (dbgLock 1)))) ∧
  (∀ (k : Clock) (d : Dev) (cause : Nat), let e := d.after k (dbgLock cause)
    (d.sec.dbgEnd = none → e = d) ∧
    (d.sec.dbgEnd ≠ none → e.sec.dbgEnd = none ∧ e.o 0x8000 5 = 0 ∧ e.o 0x8000 4 = (if d.sec.verifying.isSome then 1 else 0))) ∧
  (∀ s : State, (s.dev.sec.verifying = none → exec .dbgVerifyDone s = .next s) ∧
    (∀ pl ch, s.dev.sec.verifying = some (pl, ch) →
      let b := s.dev.tokenOf pl
      (∀ c, s.dev.tokenCause b ch = some c → ∃ t, exec .dbgVerifyDone s = .next t ∧ t.dev.sec.verifying = none ∧
        t.dev.o 0x8000 7 = (s.dev.addO 0x8000 7 0 1).o 0x8000 7 ∧ t.dev.o 0x8000 5 = s.dev.o 0x8000 5 ∧ t.dev.sec.dbgEnd = s.dev.sec.dbgEnd) ∧
      (s.dev.tokenCause b ch = none → ∃ t, exec .dbgVerifyDone s = .next t ∧ t.dev.sec.verifying = none ∧ t.dev.o 0x8000 4 = 2 ∧
        t.dev.o 0x8000 5 = byteAt b 2 ∧ t.dev.sec.dbgEnd = some (s.clk.dev + beAt b 4 4 * uS) ∧
        t.dev.o 0x1450 1 5 = ofBytes (shake256 (toBytes 32 (s.dev.o 0x1450 1 5) ++ b.take 64) 32))))

/-! ### Resets and islands (18) -/

/-- A power-on reset leaves what the record store, flash and fuses hold. A commanded reset waits, or is counted where one of its kind is in
progress, and returns 0000h; each kind begins when its command comes, the oldest request first. Power-up and device reset run from a clock
of zero; a data-plane reset that begins takes device time to zero. -/
def Obligations.ResetsBeginAndEnd : Prop :=
  (∀ s : State, exec .porstAssert s = .next (s.on (Dev.cold { s.dev with power := { s.dev.power with porst := true } }))) ∧
  (∀ d : Dev, d.cold.dict.epoch = d.dict.epoch ∧ d.cold.dict.pegs = d.dict.pegs ∧ d.cold.dict.shadow = [] ∧ d.cold.ev.slots = d.ev.present ∧
    d.cold.sec.flash = d.sec.flash ∧ d.cold.yard = {} ∧ ((∀ k ∈ d.sec.revoked, k < 4) → (∀ e ∈ d.sec.fuses, e.1 < 2) →
      ∀ key, keyIndex key ≠ 0x1400 → mget objDflt d.cold.objs key = if coldKeeps key then mget objDflt d.objs key else objDflt key)) ∧
  (∀ (s : State) (a b c e f g h i : List Nat), (Instr.powerUp a b c e f g h i).wf = true →
    (s.dev.power.porst = false → exec (.powerUp a b c e f g h i) s = .next s) ∧
    (s.dev.power.porst = true → exec (.powerUp a b c e f g h i) s = .next { s with
      clk := {}, dev := ({ s.dev.cold with power := { s.dev.cold.power with porst := false } } : Dev).after {} (powerUp 0 0 a b c e f g h i) })) ∧
  (∀ (s : State) (w : Nat) (c : Instr) (v : Nat), w < 8 → (c, v) ∈ [(Instr.warmRestartCmd w, 1), (Instr.dpResetCmd w, 2), (Instr.deviceResetCmd w, 3)] →
    s.writable w (okey 0x7000 1 0) (toBytes 1 v) →
    let busy : Prop := (v = 2 ∧ s.dev.o 0x7000 2 = 3) ∨ (v = 1 ∧ s.dev.power.warm = true)
    let done := fun f => exec c s = .next (s.wrote w (okey 0x7000 1 0) (toBytes 1 v) 0 f)
    (busy → done fun d => d.addO 0x7000 9 0 1) ∧
    (¬busy → done fun d => { d with power := { d.power with cmds := d.power.cmds ++ [(v, w / 4)] } })) ∧
  (∀ s : State,
    let d := s.dev
    (d.resetPending 2 = none → exec .dataPlaneReset s = .next s) ∧
    (∀ pl, d.resetPending 2 = some pl → d.o 0x7000 2 ≠ 2 → exec .dataPlaneReset s = .next (s.on (d.resetTaken 2 pl))) ∧
    (∀ pl, d.resetPending 2 = some pl → d.o 0x7000 2 = 2 → exec .dataPlaneReset s = .next { s with
      clk := { s.clk with dev := 0 }, dev := (d.resetTaken 2 pl).after s.clk (dpBegin (1 + pl) 0xFFFF) }) ∧
    (d.resetPending 1 = none → exec .warmRestart s = .next s) ∧
    (∀ pl, d.resetPending 1 = some pl → exec .warmRestart s = .next (s.on ((d.resetTaken 1 pl).after s.clk (warmRestart (1 + pl)))))) ∧
  (∀ (s : State) (a b c e f g h : List Nat), (Instr.deviceReset a b c e f g h).wf = true →
    (s.dev.resetPending 3 = none → exec (.deviceReset a b c e f g h) s = .next s) ∧
    (∀ pl, s.dev.resetPending 3 = some pl → exec (.deviceReset a b c e f g h) s = .next { s with
      clk := {}, dev := s.dev.cold.after {} (powerUp 3 (1 + pl) a b c e f g [] h) })) ∧
  (∀ (s : State) (l : List Nat), l.all (· < 384) = true → (s.dev.o 0x7000 2 ≠ 3 → exec (.dpReady l) s = .next s) ∧
    (s.dev.o 0x7000 2 = 3 → exec (.dpReady l) s = .next (s.on (s.dev.after s.clk (dpReady l)))))

/-- A crossing into an island that runs and is declared stalled puts the island into state 3, counted, with event 7031h, and has the
consequence of its kind; another crossing into it is declared, counted and told by itself, each once; the device clock restarts where that is a data-plane reset that begins. A stalled island that accepts data again
is in state 2. Any other island is left as it was. -/
def Obligations.CrossingsStallAndRecover : Prop :=
  (∀ (s : State) (i src : Nat), i < 680 → src < 680 →
    let st := s.dev.o 0x7010 1 i
    let known := if st = 3 then mget (dK []) s.dev.power.stalledBy i else []
    let g := s.dev.setO 0x7010 1 i 3
    let told := ({ g with power := { g.power with stalledBy := mset (dK []) g.power.stalledBy i (src :: known) } } : Dev).addO 0x7010 3 i 1
    let said := told.after s.clk (raiseEv 590 0x7031 2 i (told.o 0x7010 3 i) src)
    ((st ≠ 2 ∧ st ≠ 3) ∨ src ∈ known → exec (.crossingStall i src) s = .next s) ∧
    (st = 3 → src ∉ known → exec (.crossingStall i src) s = .next (s.on said)) ∧
    (st = 2 → ∃ e : Dev, e = said.after s.clk (stallAction i) ∧
      (((576 ≤ i ∧ i < 592) ∨ i = 675) ∧ s.dev.o 0x7000 2 = 2 → exec (.crossingStall i src) s = .next { s with clk := { s.clk with dev := 0 }, dev := e }) ∧
      (¬(((576 ≤ i ∧ i < 592) ∨ i = 675) ∧ s.dev.o 0x7000 2 = 2) → exec (.crossingStall i src) s = .next (s.on e)))) ∧
  (∀ (k : Clock) (d : Dev) (i : Nat), let e := d.after k (stallAction i)
    (i < 512 → e = d.after k (portEval (i % 256))) ∧ (592 ≤ i → i < 640 → e = d.after k (retire (i - 592) 2)) ∧
    (640 ≤ i → i < 672 → e = d.after k (coreStall (i - 640))) ∧ (i = 672 ∨ i = 673 → e = d.after k (coreUnplanned (i - 672) 2)) ∧
    (i = 674 → e = d.after k (hostVanish 4)) ∧ ((576 ≤ i ∧ i < 592) ∨ i = 675 → e = d.after k (dpBegin 3 i)) ∧ (676 ≤ i → e = d)) ∧
  (∀ (s : State) (i : Nat), i < 680 → let g := s.dev.setO 0x7010 1 i 2
    let e : Dev := { g with power := { g.power with stalledBy := mset (dK []) g.power.stalledBy i [] } }
    (s.dev.o 0x7010 1 i ≠ 3 → exec (.islandRecover i) s = .next s) ∧
    (s.dev.o 0x7010 1 i = 3 → exec (.islandRecover i) s = .next (s.on
      (if i < 512 then e.after s.clk (portEval (i % 256)) else if 640 ≤ i ∧ i < 672 then e.after s.clk (coreRejoin (i - 640)) else e))))

/-! ### Supplies, temperatures and SMBus (19) -/

/-- A rail sample is its reading, and gives the power, whose value is the mean of a millisecond; a rail of the first group below its range asserts PORST_N; for another one the tenth
sample in a row more than 8 percent off trips the supply, unless PORST_N holds the device or a trip stands. A sensor sample, with its offset, is its reading and raises its peak; at the
limit of 7042h.03 THERM_N is asserted, and the tenth in a row at 115 degrees trips. With island 679 stalled neither does anything. -/
def Obligations.RailsAndSensorsTrip : Prop :=
  (∀ (s : State) (k mv ma : Nat), k < 13 → mv < 65536 → ma < 2 ^ 32 →
    let d := s.dev
    let ans := exec (.railSample k mv ma) s
    let nom := (railSpec k).1
    let low := mv * 100 < nom * (100 - (railSpec k).2)
    let high := nom * (100 + (railSpec k).2) < mv * 100
    let far := mv * 100 < nom * 92 ∨ nom * 108 < mv * 100
    (3 ≤ d.o 0x7010 1 679 → ans = .next s) ∧
    (d.o 0x7010 1 679 < 3 → ∃ t, ans = .next t ∧ t.dev.o 0x7040 1 k = mv ∧ t.dev.o 0x7040 2 k = ma ∧
      (railFirst k = true → low → t.dev.power.porst = true) ∧ (railFirst k = true → ¬low →
        t.dev.power.porst = d.power.porst ∧ t.dev.power.supply = d.power.supply ∧ (nget t.dev.power.railOut k = if high then 1 else 0)) ∧
      (railFirst k = false → d.power.porst = true → nget t.dev.power.railOut k = 0 ∧ nget t.dev.power.railFar k = 0 ∧
        t.dev.o 0x7040 3 k = d.o 0x7040 3 k ∧ t.dev.power.supply = d.power.supply) ∧
      (d.power.porst = false →
      (railFirst k = false → ¬low → ¬high → t.dev.o 0x7040 3 k = 0 ∧ nget t.dev.power.railOut k = 0 ∧ nget t.dev.power.railFar k = 0) ∧
      (railFirst k = false → far → nget d.power.railFar k + 1 = 10 → t.dev.power.supply = (d.power.supply || !d.power.thermal)) ∧
      (railFirst k = false → far → nget d.power.railFar k + 1 ≠ 10 → nget t.dev.power.railFar k = nget d.power.railFar k + 1 ∧ t.dev.power.supply = d.power.supply) ∧
      (railFirst k = false → (low ∨ high) → ¬far → nget t.dev.power.railOut k = nget d.power.railOut k + 1 ∧ nget t.dev.power.railFar k = 0 ∧
        (nget d.power.railOut k + 1 = 1000 → t.dev.o 0x7040 3 k = (if low then 1 else 2) ∧ t.dev.o 0x7040 4 k = (d.addO 0x7040 4 k 1).o 0x7040 4 k))))) ∧
  (∀ (c : Clock) (d : Dev) (k mv ma : Nat), k < 13 → let e := d.after c (powerMeter k mv ma)
    mget (dK []) e.power.watts k = ((c.run, mv * ma) :: (mget (dK []) d.power.watts k).filter (fun x => c.run < x.1 + uMs)).take 1000 ∧
    e.o 0x7041 1 = min (2 ^ 32 - 1) (e.powerNow c.run) ∧ e.o 0x7041 2 = max (d.o 0x7041 2) (e.o 0x7041 1)) ∧
  (∀ (s : State) (k : Nat) (raw : Int), k < 16 → -(2 ^ 31) ≤ raw → raw < 2 ^ 31 →
    let d := s.dev
    let ans := exec (.sensorSample k raw) s
    let t := clampI (-(2 ^ 31)) (2 ^ 31 - 1) (raw + d.sensorOfs k)
    let n := if 115 * 65536 ≤ t ∧ d.power.porst = false then nget d.power.hot k + 1 else 0
    (3 ≤ d.o 0x7010 1 679 → ans = .next s) ∧
    (d.o 0x7010 1 679 < 3 → ∃ u, ans = .next u ∧ u.dev.o 0x7042 1 k = ofS 32 t ∧
      u.dev.power.therm = (d.power.therm || decide ((d.o 0x7042 3 : Int) * 65536 ≤ t)) ∧
      (n = 10 → u.dev.power.thermal = (d.power.thermal || !d.power.supply)) ∧
      (n ≠ 10 → u.dev.power.thermal = d.power.thermal ∧ nget u.dev.power.hot k = n ∧
        u.dev.o 0x7042 2 k = if d.oS 32 0x7042 2 k < t then ofS 32 t else d.o 0x7042 2 k))) ∧
  (∀ s : State, let cool : Prop := ∀ k, k < 16 → s.dev.sensor k + 3 * 65536 ≤ (s.dev.o 0x7042 3 : Int) * 65536
    (cool → exec .thermDeassert s = .next (s.on { s.dev with power := { s.dev.power with therm := false, ackTherm := false } })) ∧
    (¬cool → exec .thermDeassert s = .next s)) ∧
  (∀ s : State, let w := s.dev.o 0x7041 1
    (w ≤ s.dev.o 0x7041 3 → exec .powerWarnExceed s = .next s) ∧
    (s.dev.o 0x7041 3 < w → exec .powerWarnExceed s = .next (s.on (s.dev.after s.clk (raiseEv 580 0x7044 1 w (s.dev.o 0x7041 3) 0))))) ∧
  (∀ s : State, (3 ≤ s.dev.o 0x7010 1 679 → exec .lifeTick s = .next s) ∧ (s.dev.o 0x7010 1 679 < 3 → ∃ t, exec .lifeTick s = .next t ∧
    let f := s.dev.power.lifeFrac + lifeFactor s.dev.hottest * 100 / 78894
    let b := lifeBin s.dev.hottest
    let n := nget s.dev.power.binSecs b + 1
    t.dev.power.lifeFrac = f % 2 ^ 64 ∧ t.dev.o 0x7050 1 = (s.dev.addO 0x7050 1 0 (f / 2 ^ 64)).o 0x7050 1 ∧
    t.dev.power.swing = some (swingStep s.dev.hottest s.dev.power.swing).1 ∧
    nget t.dev.power.binSecs b = n % 3600 ∧ t.dev.o 0x7050 2 b = if n = 3600 then (s.dev.addO 0x7050 2 b 1).o 0x7050 2 b else s.dev.o 0x7050 2 b))

/-- While island 679 runs and its two rails are within range each SMBus read puts its data out, with the target's address and the packet error
code of the transaction (octet order and code are the model's choice, log entry 30): the hottest sensor, a sensor, a voltage, a current in
0.1 A, the power in W, the status; the identity puts out the part and serial numbers. The alert response answers while SMB_ALERT_N is
asserted, and takes it back for what asserts it now. Nothing else changes; a target that is not served answers nothing. -/
def Obligations.SmbusAnswersItsCommands : Prop :=
  ∀ s : State,
    let d := s.dev
    let served : Prop := d.o 0x7010 1 679 < 3 ∧ nget d.power.railOut 10 = 0 ∧ nget d.power.railOut 11 = 0
    let octet := fun (v : Nat) => BitVec.ofNat 8 v
    let answers := fun c (cmd : Nat) (count b : Bytes) =>
      (served → exec c s = .next (s.on { d with out := d.out ++
        [.smb smbTarget b (smbPec ([octet (2 * smbTarget), octet cmd, octet (2 * smbTarget + 1)] ++ count ++ b))] })) ∧
      (¬served → exec c s = .next s)
    let word := fun (v : Nat) => ([octet v, octet (v / 256)] : Bytes)
    answers .smbHottestSensor 0 [] (word (ofS 16 (d.hottest * 10 / 65536))) ∧
    (∀ k, k < 16 → answers (.smbSensor k) (k + 1) [] (word (ofS 16 (d.sensor k * 10 / 65536)))) ∧
    (∀ k, k < 13 → answers (.smbRailVoltage k) (0x20 + k) [] (word (d.o 0x7040 1 k)) ∧
      answers (.smbRailCurrent k) (0x30 + k) [] (word (d.o 0x7040 2 k / 100 % 65536))) ∧
    answers .smbTotalPower 0x40 [] (word (d.o 0x7041 1 / 1000 % 65536)) ∧
    answers .smbStatus 0x41 [] (word (ofBool d.faultPin + 2 * ofBool d.power.therm + 4 * ofBool d.power.porst + 8 * ofBool d.power.thermal +
      16 * ofBool d.power.supply + 32 * ofBool (d.o 0x7000 2 == 2))) ∧
    answers .smbIdentity 0x50 [24#8] (toBytes 8 (d.o 0x1000 3) ++ toBytes 16 (d.o 0x1000 5)) ∧
    (∀ k, k < 16 → d.sensor k ≤ d.hottest) ∧ (∃ k, k < 16 ∧ d.hottest = d.sensor k) ∧
    0x58 ≤ smbTarget ∧ smbTarget < 0x5C ∧
    (¬(served ∧ d.smbAlert = true) → exec .smbAlertResponse s = .next s) ∧
    (served → d.smbAlert = true → exec .smbAlertResponse s = .next (s.on { d with
      out := d.out ++ [.smb 0x0C [octet (2 * smbTarget)] (smbPec [0x19#8, octet (2 * smbTarget)])]
      power := { d.power with ackFault := d.faultPin, ackTherm := d.power.therm } }))

/-! ### Reads and table operations, on every form -/

/-- A read, a shadow read and a table operation complete on every operand. While the link is down nothing happens. A window read shows the
status of the first check that fails, 0701h while the function does not serve its plane (or the stalled store its Ledger window), and else
the value, with 0702h for an indeterminate object; a shadow read of a staged object shows its shadow value. A BAR0 read answers the
register, or zero where the map names none, which is counted; a page read answers its word or the half of a word, zero while the group is not marked. A table
operation on a busy window is counted and ignored; else the window shows what its checks or its run answer, and one on the flow table is
submitted as a task to its home Sill, or waits. -/
def Obligations.ReadsAndTableOperationsComplete : Prop :=
  (∀ (s : State) (w key : Nat), w < 8 → key < 2 ^ 48 →
    let d := s.dev
    let pl := w / 4
    let read := exec (.read (.obj w key)) s
    let shadow := exec (.readShadow w key) s
    let shows := fun (g : Dev) (op st : Nat) (v : Bytes) => Host.Outcome.next (φ := Fault) (ρ := Refusal) (s.on (g.winEnd w key (owCtrl op 0) st v))
    let serves : Prop := d.pcieUp = true ∧ d.hostOk pl = true
    (d.pcieUp = false → read = .next s ∧ shadow = .next s) ∧
    (d.pcieUp = true → d.hostOk pl = false → read = shows d 1 0x701 [] ∧ shadow = shows d 3 0x701 []) ∧
    (∀ e, serves → d.readCheck pl key = .error e → read = shows d 1 e [] ∧ shadow = shows d 3 e []) ∧
    (∀ r, serves → d.readCheck pl key = .ok r →
      let st := if d.dict.pegIndet.contains key then 0x702 else 0
      let closed : Prop := keyIndex key = 0x6420 ∧ keySub key = 2 ∧ 3 ≤ d.o 0x7010 1 678
      let x := ((readValue pl key r).run s.clk).run d
      (closed → read = shows d 1 0x701 []) ∧ (¬closed → read = shows x.2 1 st (toBytes r.ty.len x.1)) ∧
      (r.staged = true → shadow = shows d 3 st (toBytes r.ty.len (d.shadowObj pl key))) ∧
      (r.staged = false → (closed → shadow = shows d 3 0x701 []) ∧ (¬closed → shadow = shows x.2 3 st (toBytes r.ty.len x.1))))) ∧
  (∀ (s : State) (g h : Nat), (Target.half g h).wf = true →
    let d := s.dev
    let half := exec (.read (.half g h)) s
    let answer := fun (e : Dev) (b : Bytes) => half = .next (s.on { e with out := e.out ++ [Out.mmio b] })
    (d.pcieUp = false → half = .next s) ∧ (d.pcieUp = true → d.oB 0x6000 2 g = false → answer d (toBytes 4 0)) ∧
    (d.pcieUp = true → d.oB 0x6000 2 g = true → let x := ((groupWord g (h / 2)).run s.clk).run d
      answer x.2 (toBytes 4 (x.1 / 2 ^ (h % 2 * 32))))) ∧
  (∀ (s : State) (f o g i : Nat), (Target.bar f o).wf = true → (Target.page g i).wf = true →
    let d := s.dev
    let answer := fun (e : Dev) (b : Bytes) => Host.Outcome.next (φ := Fault) (ρ := Refusal) (s.on { e with out := e.out ++ [Out.mmio b] })
    let bar := exec (.read (.bar f o)) s
    let page := exec (.read (.page g i)) s
    (d.pcieUp = false → bar = .next s ∧ page = .next s) ∧
    (d.pcieUp = true →
      (∀ n v, d.barReg f o = some (.num n v) → bar = answer d (toBytes n v)) ∧
      (∀ b j, d.barReg f o = some (.bytes b j) → bar = answer d (slice b j 8)) ∧
      (d.barReg f o = none → bar = answer (d.addO 0x5402 4 0 1) (toBytes 4 0)) ∧
      (d.oB 0x6000 2 g = false → page = answer d (toBytes 8 0)) ∧
      (d.oB 0x6000 2 g = true → let x := ((groupWord g i).run s.clk).run d; page = answer x.2 (toBytes 8 x.1)))) ∧
  (∀ (s : State) (k ix sub addr op : Nat) (sh : Bool) (entry : Bytes) (c : Instr), k < 32 → ix < 65536 → sub < 256 → addr < 2 ^ 32 →
    (c, op) ∈ [(Instr.tblFind k ix sub sh entry, 1), (.tblInsert k ix sub sh addr entry, 2), (.tblDelete k ix sub sh addr entry, 3),
      (.tblNext k ix sub sh addr, 4), (.tblUpdate k ix sub sh addr entry, 5)] →
    let a := if op = 1 then 0 else addr
    let d := s.dev.tblLoad k ix sub op sh a (if op = 4 then [] else entry)
    let x : TblOp := ⟨k / 16, op, sh, ix, sub, a, fitTo (entryLen ix) (d.tblWin k).entry, 0, false⟩
    let ans := exec c s
    (s.dev.pcieUp = false → ans = .next s) ∧
    (s.dev.pcieUp = true → (s.dev.tblWin k).status = twBusy → ans = .next (s.on (s.dev.addO 0x5410 3 k 1))) ∧
    (s.dev.pcieUp = true → (s.dev.tblWin k).status ≠ twBusy →
      (s.dev.hostOk (k / 16) = false → ans = .next (s.on (d.after s.clk (tblFinish k op 0x701 0 [])))) ∧
      (∀ e, s.dev.hostOk (k / 16) = true → d.tableCheck x = some e → ans = .next (s.on (d.after s.clk (tblFinish k op e 0 [])))) ∧
      (s.dev.hostOk (k / 16) = true → d.tableCheck x = none → ix = 0x3800 → ans = .next (s.on
        ((d.setTblWin k { d.tblWin k with status := twBusy }).after s.clk
          (submitOrWait (flowHome op a x.entry) (2 + k / 16) (Work.table k op (k / 16) a (ofBytes x.entry)))))) ∧
      (s.dev.hostOk (k / 16) = true → d.tableCheck x = none → ix ≠ 0x3800 →
        let r := ((tableOp x).run s.clk).run d
        let y := ((addrField r.1.addr).run s.clk).run r.2
        ans = .next (s.on (y.2.tblEnd k op y.1 r.1)))))
end

