-- ==== Sys2Proof/Laws/Effects.lean ====
section
/-! SUPPORT. What an effect answers and leaves, construct by construct: the lemmas by which a proof runs a meaning without unfolding
the monad. -/

namespace Sys2Proof.Machine

/-- The result of an effect and the device after it. -/
def M.at {α : Type} (f : M α) (c : Clock) (d : Dev) : α × Dev := (f.run c).run d

theorem after_eq (d : Dev) (c : Clock) (f : M Unit) : d.after c f = (M.at f c d).2 := rfl

section
variable {α β : Type} (c : Clock) (d : Dev)

@[simp] theorem at_pure (a : α) : M.at (pure a) c d = (a, d) := (rfl)
theorem at_bind (f : M α) (g : α → M β) : M.at (f >>= g) c d = M.at (g (M.at f c d).1) c (M.at f c d).2 := (rfl)
@[simp] theorem at_map (g : α → β) (f : M α) : M.at (g <$> f) c d = (g (M.at f c d).1, (M.at f c d).2) := (rfl)
@[simp] theorem at_get : M.at get c d = (d, d) := (rfl)
@[simp] theorem at_read : M.at read c d = (c, d) := (rfl)
@[simp] theorem at_set (e : Dev) : M.at (set e) c d = ((), e) := (rfl)
@[simp] theorem at_modify (g : Dev → Dev) : M.at (modify g) c d = ((), g d) := (rfl)
@[simp] theorem at_ite (p : Prop) [Decidable p] (f g : M α) : M.at (if p then f else g) c d = if p then M.at f c d else M.at g c d := by
  split <;> rfl

/-! The named operations. -/

@[simp] theorem at_getO (ix sub i : Nat) : M.at (getO ix sub i) c d = (d.o ix sub i, d) := (rfl)
@[simp] theorem at_getB (ix sub i : Nat) : M.at (getB ix sub i) c d = (d.oB ix sub i, d) := (rfl)
@[simp] theorem at_setO (ix sub i v : Nat) : M.at (setO ix sub i v) c d = ((), d.setO ix sub i v) := (rfl)
@[simp] theorem at_addO (ix sub i n : Nat) : M.at (addO ix sub i n) c d = ((), d.addO ix sub i n) := (rfl)
@[simp] theorem at_incO (ix sub i : Nat) : M.at (incO ix sub i) c d = ((), d.addO ix sub i 1) := (rfl)
@[simp] theorem at_emit (x : Out) : M.at (emit x) c d = ((), { d with out := d.out ++ [x] }) := (rfl)
@[simp] theorem at_fresh : M.at fresh c d = (Config.freeValue d.free, { d with free := d.free + 1 }) := (rfl)
@[simp] theorem at_runNow : M.at runNow c d = (c.run, d) := (rfl)
@[simp] theorem at_devNow : M.at devNow c d = (c.dev, d) := (rfl)
@[simp] theorem at_netNow : M.at netNow c d = (c.net, d) := (rfl)
@[simp] theorem at_poolGive (i n : Nat) : M.at (poolGive i n) c d = ((), d.poolGive i n) := (rfl)
@[simp] theorem at_setFrame (f : Frame) :
    M.at (setFrame f) c d = ((), { d with yard := { d.yard with frames := oset d.yard.frames f.id (some f) } }) := (rfl)
@[simp] theorem at_dropFrame (id : Nat) :
    M.at (dropFrame id) c d = ((), { d with yard := { d.yard with frames := oset d.yard.frames id none } }) := (rfl)

/-! An effect followed by another. -/

@[simp] theorem at_pure_bind (a : α) (g : α → M β) : M.at (pure a >>= g) c d = M.at (g a) c d := (rfl)
@[simp] theorem at_get_bind (g : Dev → M β) : M.at (get >>= g) c d = M.at (g d) c d := (rfl)
@[simp] theorem at_read_bind (g : Clock → M β) : M.at (read >>= g) c d = M.at (g c) c d := (rfl)
@[simp] theorem at_set_bind (e : Dev) (g : PUnit → M β) : M.at (set e >>= g) c d = M.at (g ()) c e := (rfl)
@[simp] theorem at_modify_bind (f : Dev → Dev) (g : PUnit → M β) : M.at (modify f >>= g) c d = M.at (g ()) c (f d) := (rfl)
@[simp] theorem at_getO_bind (ix sub i : Nat) (g : Nat → M β) : M.at (getO ix sub i >>= g) c d = M.at (g (d.o ix sub i)) c d := (rfl)
@[simp] theorem at_getB_bind (ix sub i : Nat) (g : Bool → M β) : M.at (getB ix sub i >>= g) c d = M.at (g (d.oB ix sub i)) c d := (rfl)
@[simp] theorem at_setO_bind (ix sub i v : Nat) (g : Unit → M β) :
    M.at (setO ix sub i v >>= g) c d = M.at (g ()) c (d.setO ix sub i v) := (rfl)
@[simp] theorem at_addO_bind (ix sub i n : Nat) (g : Unit → M β) :
    M.at (addO ix sub i n >>= g) c d = M.at (g ()) c (d.addO ix sub i n) := (rfl)
@[simp] theorem at_incO_bind (ix sub i : Nat) (g : Unit → M β) :
    M.at (incO ix sub i >>= g) c d = M.at (g ()) c (d.addO ix sub i 1) := (rfl)
@[simp] theorem at_emit_bind (x : Out) (g : Unit → M β) :
    M.at (emit x >>= g) c d = M.at (g ()) c { d with out := d.out ++ [x] } := (rfl)
@[simp] theorem at_fresh_bind (g : Nat → M β) :
    M.at (fresh >>= g) c d = M.at (g (Config.freeValue d.free)) c { d with free := d.free + 1 } := (rfl)
@[simp] theorem at_runNow_bind (g : Nat → M β) : M.at (runNow >>= g) c d = M.at (g c.run) c d := (rfl)
@[simp] theorem at_devNow_bind (g : Nat → M β) : M.at (devNow >>= g) c d = M.at (g c.dev) c d := (rfl)
@[simp] theorem at_netNow_bind (g : Nat → M β) : M.at (netNow >>= g) c d = M.at (g c.net) c d := by
  rw [at_bind, at_netNow]
@[simp] theorem at_poolGive_bind (i n : Nat) (g : Unit → M β) : M.at (poolGive i n >>= g) c d = M.at (g ()) c (d.poolGive i n) := (rfl)
theorem at_bind_bind {γ : Type} (f : M α) (g : α → M β) (k : β → M γ) :
    M.at ((f >>= g) >>= k) c d = M.at (f >>= fun a => g a >>= k) c d := by rw [at_bind, at_bind, at_bind, at_bind]

/-- A function runs while its island has neither stalled nor failed. -/
theorem at_whileRunning (i : Nat) (f : M Unit) (h : d.o 0x7010 1 i < 3) : M.at (whileRunning i f) c d = M.at f c d := by
  simp [whileRunning, h]

/-- A function of a stalled or failed island does nothing. -/
theorem at_whileRunning_stalled (i : Nat) (f : M Unit) (h : 3 ≤ d.o 0x7010 1 i) : M.at (whileRunning i f) c d = ((), d) := by
  simp [whileRunning, Nat.not_lt.mpr h]

/-- An access that an island serves is served while the island runs. -/
theorem at_whileServed (i : Nat) (f : M Nat) (h : d.o 0x7010 1 i < 3) : M.at (whileServed i f) c d = M.at f c d := by
  simp [whileServed, h]

/-- It answers 0701h while the island has stalled or failed. -/
theorem at_whileServed_stalled (i : Nat) (f : M Nat) (h : 3 ≤ d.o 0x7010 1 i) : M.at (whileServed i f) c d = (0x701, d) := by
  simp [whileServed, Nat.not_lt.mpr h]

end

section
variable (c : Clock) (d : Dev)

@[simp] theorem after_pure : d.after c (pure ()) = d := rfl
theorem after_bind {α : Type} (f : M α) (g : α → M Unit) : d.after c (f >>= g) = (M.at f c d).2.after c (g (M.at f c d).1) := rfl

end

/-! Meanings. -/

/-- A meaning of a command that names what exists answers the device after its effect, and changes neither queue nor clock. -/
theorem run_next (i : Instr) (f : M Unit) (s : State) (h : i.wf = true) : run i f s = .next { s with dev := s.dev.after s.clk f } := by
  simp [run, h]

/-- It stops on one that does not. -/
theorem run_fault (i : Instr) (f : M Unit) (s : State) (h : i.wf = false) : run i f s = .fault .noSuchResource := by simp [run, h]

/-- The same for a meaning that moves the clock. -/
theorem runClk_next (i : Instr) (f : M Unit) (k : Dev → Clock → Clock) (s : State) (h : i.wf = true) :
    runClk i f k s = .next { s with dev := s.dev.after s.clk f, clk := k s.dev s.clk } := by simp [runClk, h]

theorem runClk_fault (i : Instr) (f : M Unit) (k : Dev → Clock → Clock) (s : State) (h : i.wf = false) :
    runClk i f k s = .fault .noSuchResource := by simp [runClk, h]

/-! Loops. -/

/-- What every pass of a loop keeps, the loop keeps. -/
theorem loop_keeps {α : Type} (P : Dev → Prop) (c : Clock) (l : List α) (f : α → M Unit)
    (h : ∀ a ∈ l, ∀ d, P d → P (M.at (f a) c d).2) (d : Dev) (hd : P d) :
    P (M.at (forIn l PUnit.unit (fun a _ => do f a; pure (ForInStep.yield PUnit.unit))) c d).2 := by
  induction l generalizing d with
  | nil => exact hd
  | cons a r ih =>
    rw [List.forIn_cons, at_bind_bind, at_bind, at_pure_bind]
    exact ih (fun b hb => h b (by simp [hb])) _ (h a (by simp) d hd)

end Sys2Proof.Machine
end

