-- ==== Sys2Proof/Laws/Maps.lean ====
section
/-! SUPPORT. Laws of the sparse maps: a read after a write, and the canonical form that every map operation keeps. -/

namespace Sys2Proof

variable {α : Type}

theorem mget_mdrop (d : Nat → α) (k j : Nat) (m : PMap α) : mget d (mdrop k m) j = if j = k then d k else mget d m j := by
  induction m with
  | nil => simp only [mdrop, mget]; split <;> simp_all
  | cons e r ih =>
    obtain ⟨i, w⟩ := e
    by_cases hk : i = k <;> by_cases hj : j = i <;> simp_all [mdrop, mget]

theorem mget_minsert (d : Nat → α) (k : Nat) (v : α) (j : Nat) (m : PMap α) (h : ∀ e ∈ m, e.1 ≠ k) :
    mget d (minsert k v m) j = if j = k then v else mget d m j := by
  induction m with
  | nil => simp [minsert, mget]
  | cons e r ih =>
    obtain ⟨i, w⟩ := e
    have hi : i ≠ k := h (i, w) (by simp)
    have ih := ih (fun e he => h e (by simp [he]))
    simp only [minsert]
    by_cases hlt : k < i
    · by_cases hj : j = i <;> simp_all [mget]
    · rw [if_neg hlt]
      by_cases hj : j = i <;> simp_all [mget]

theorem mem_mdrop_key (k : Nat) (m : PMap α) : ∀ e ∈ mdrop k m, e.1 ≠ k := by
  induction m with
  | nil => simp [mdrop]
  | cons e r ih =>
    obtain ⟨i, w⟩ := e
    by_cases hk : i = k
    · simp only [mdrop, hk, if_true]; exact ih
    · simp only [mdrop, hk, if_false, List.mem_cons]
      rintro e (rfl | he)
      · exact hk
      · exact ih e he

variable [DecidableEq α]

/-- What a map reads after a write. -/
theorem mget_mset (d : Nat → α) (m : PMap α) (k : Nat) (v : α) (j : Nat) :
    mget d (mset d m k v) j = if j = k then v else mget d m j := by
  unfold mset
  split
  · rename_i h; rw [mget_mdrop, h]
  · rw [mget_minsert d k v j _ (mem_mdrop_key k m), mget_mdrop]; split <;> rfl

@[simp] theorem mget_mset_same (d : Nat → α) (m : PMap α) (k : Nat) (v : α) : mget d (mset d m k v) k = v := by simp [mget_mset]

theorem mget_mset_ne (d : Nat → α) (m : PMap α) {k j : Nat} (v : α) (h : j ≠ k) : mget d (mset d m k v) j = mget d m j := by
  simp [mget_mset, h]

theorem mwfFrom_mono (d : Nat → α) (m : PMap α) (k i : Nat) (h : mwfFrom d (some i) m = true) (hk : k ≤ i) :
    mwfFrom d (some k) m = true := by
  cases m with
  | nil => rfl
  | cons e r => simp [mwfFrom] at h ⊢; exact ⟨⟨by omega, h.1.2⟩, h.2⟩

theorem mwfFrom_none (d : Nat → α) (m : PMap α) (i : Nat) (h : mwfFrom d (some i) m = true) : mwfFrom d none m = true := by
  cases m with
  | nil => rfl
  | cons e r => simp [mwfFrom] at h ⊢; exact ⟨h.1.2, h.2⟩

theorem mwfFrom_filter (d : Nat → α) (f : Nat × α → Bool) (m : PMap α) (lo : Option Nat) (h : mwfFrom d lo m = true) :
    mwfFrom d lo (m.filter f) = true := by
  induction m generalizing lo with
  | nil => rfl
  | cons e r ih =>
    obtain ⟨i, w⟩ := e
    have hr : mwfFrom d (some i) r = true := by simp [mwfFrom] at h; exact h.2
    by_cases hf : f (i, w)
    · rw [List.filter_cons_of_pos hf]
      simp only [mwfFrom, Bool.and_eq_true] at h ⊢
      exact ⟨h.1, ih _ hr⟩
    · rw [List.filter_cons_of_neg hf]
      cases lo with
      | none => exact ih _ (mwfFrom_none d r i hr)
      | some l =>
        simp [mwfFrom] at h
        exact ih _ (mwfFrom_mono d r l i hr (by omega))

omit [DecidableEq α] in
theorem mdrop_eq_filter (k : Nat) (m : PMap α) : mdrop k m = m.filter (fun e => decide (e.1 ≠ k)) := by
  induction m with
  | nil => rfl
  | cons e r ih =>
    obtain ⟨i, w⟩ := e
    by_cases hk : i = k <;> simp_all [mdrop]

theorem mwfFrom_minsert (d : Nat → α) (k : Nat) (v : α) (m : PMap α) (lo : Option Nat) (hv : v ≠ d k)
    (hlo : ∀ l, lo = some l → l < k) (hk : ∀ e ∈ m, e.1 ≠ k) (h : mwfFrom d lo m = true) :
    mwfFrom d lo (minsert k v m) = true := by
  induction m generalizing lo with
  | nil => cases lo <;> simp_all [minsert, mwfFrom]
  | cons e r ih =>
    obtain ⟨i, w⟩ := e
    have hik : i ≠ k := hk (i, w) (by simp)
    simp only [mwfFrom, Bool.and_eq_true] at h
    by_cases hlt : k < i
    · have h2 := h.1.2
      have h3 := h.2
      cases lo with
      | none => simp_all [minsert, mwfFrom]
      | some l =>
        have := hlo l rfl
        simp_all [minsert, mwfFrom]
    · simp only [minsert, hlt, if_false, mwfFrom, Bool.and_eq_true]
      exact ⟨h.1, ih (some i) (by intro l hl; injection hl; omega) (fun e he => hk e (by simp [he])) h.2⟩

/-- A write keeps the canonical form. -/
theorem mwf_mset (d : Nat → α) (m : PMap α) (k : Nat) (v : α) (h : mwf d m = true) : mwf d (mset d m k v) = true := by
  have hd : mwf d (mdrop k m) = true := by rw [mdrop_eq_filter]; exact mwfFrom_filter d _ m none h
  unfold mset
  split
  · exact hd
  · rename_i hv
    exact mwfFrom_minsert d k v _ none hv (by simp) (mem_mdrop_key k m) hd

/-- Keeping some keys keeps the canonical form. -/
theorem mwf_mfilter (d : Nat → α) (f : Nat → Bool) (m : PMap α) (h : mwf d m = true) : mwf d (mfilter f m) = true :=
  mwfFrom_filter d _ m none h

/-! The same for maps with a constant default. -/

@[simp] theorem nget_nset_same (m : PMap Nat) (k v : Nat) : nget (nset m k v) k = v := by simp [nget, nset]

theorem nget_nset (m : PMap Nat) (k v j : Nat) : nget (nset m k v) j = if j = k then v else nget m j := by simp [nget, nset, mget_mset]

@[simp] theorem oget_oset_same (m : PMap (Option α)) (k : Nat) (v : Option α) : oget (oset m k v) k = v := by simp [oget, oset]

theorem oget_oset (m : PMap (Option α)) (k : Nat) (v : Option α) (j : Nat) : oget (oset m k v) j = if j = k then v else oget m j := by
  simp [oget, oset, mget_mset]

end Sys2Proof
end

