-- ==== Sys2Proof/Laws/Engines.lean ====
section
/-! SUPPORT. Reading the engines' state after a write of it: what each setter of a map changes, and that it leaves the objects, the free
values and what has left the device. -/

namespace Sys2Proof.Machine

variable (d : Dev) (i j : Nat)

theorem port_setPort (x : PortSt) : (d.setPort i x).port j = if j = i then x else d.port j := by simp [Dev.port, Dev.setPort, mget_mset]
@[simp] theorem port_setPort_same (x : PortSt) : (d.setPort i x).port i = x := by simp [port_setPort]
@[simp] theorem setPort_objs (x : PortSt) : (d.setPort i x).objs = d.objs := rfl
@[simp] theorem setPort_free (x : PortSt) : (d.setPort i x).free = d.free := rfl
@[simp] theorem setPort_out (x : PortSt) : (d.setPort i x).out = d.out := rfl

theorem lane_setLane (x : LaneSt) : (d.setLane i x).lane j = if j = i then x else d.lane j := by simp [Dev.lane, Dev.setLane, mget_mset]
@[simp] theorem lane_setLane_same (x : LaneSt) : (d.setLane i x).lane i = x := by simp [lane_setLane]
@[simp] theorem setLane_objs (x : LaneSt) : (d.setLane i x).objs = d.objs := rfl
@[simp] theorem setLane_free (x : LaneSt) : (d.setLane i x).free = d.free := rfl
@[simp] theorem setLane_out (x : LaneSt) : (d.setLane i x).out = d.out := rfl

theorem thr_setThr (x : Thread) : (d.setThr i x).thr j = if j = i then x else d.thr j := by simp [Dev.thr, Dev.setThr, mget_mset]
@[simp] theorem thr_setThr_same (x : Thread) : (d.setThr i x).thr i = x := by simp [thr_setThr]
@[simp] theorem setThr_objs (x : Thread) : (d.setThr i x).objs = d.objs := rfl
@[simp] theorem setThr_free (x : Thread) : (d.setThr i x).free = d.free := rfl
@[simp] theorem setThr_out (x : Thread) : (d.setThr i x).out = d.out := rfl

theorem clamp_setClamp (x : Option Clamp) : (d.setClamp i x).clamp j = if j = i then x else d.clamp j := by simp [Dev.clamp, Dev.setClamp, oget_oset]
@[simp] theorem clamp_setClamp_same (x : Option Clamp) : (d.setClamp i x).clamp i = x := by simp [clamp_setClamp]
@[simp] theorem setClamp_objs (x : Option Clamp) : (d.setClamp i x).objs = d.objs := rfl
@[simp] theorem setClamp_free (x : Option Clamp) : (d.setClamp i x).free = d.free := rfl
@[simp] theorem setClamp_out (x : Option Clamp) : (d.setClamp i x).out = d.out := rfl

theorem chan_setChan (x : Chan) : (d.setChan i x).chan j = if j = i then x else d.chan j := by simp [Dev.chan, Dev.setChan, mget_mset]
@[simp] theorem chan_setChan_same (x : Chan) : (d.setChan i x).chan i = x := by simp [chan_setChan]
@[simp] theorem setChan_objs (x : Chan) : (d.setChan i x).objs = d.objs := rfl
@[simp] theorem setChan_free (x : Chan) : (d.setChan i x).free = d.free := rfl
@[simp] theorem setChan_out (x : Chan) : (d.setChan i x).out = d.out := rfl

theorem tasks_setTasks (x : List Task) : (d.setTasks i x).tasks j = if j = i then x else d.tasks j := by simp [Dev.tasks, Dev.setTasks, mget_mset]
@[simp] theorem tasks_setTasks_same (x : List Task) : (d.setTasks i x).tasks i = x := by simp [tasks_setTasks]
@[simp] theorem setTasks_objs (x : List Task) : (d.setTasks i x).objs = d.objs := rfl
@[simp] theorem setTasks_free (x : List Task) : (d.setTasks i x).free = d.free := rfl
@[simp] theorem setTasks_out (x : List Task) : (d.setTasks i x).out = d.out := rfl

theorem pg_setPg (x : PgSt) : (d.setPg i x).pg j = if j = i then x else d.pg j := by simp [Dev.pg, Dev.setPg, mget_mset]
@[simp] theorem pg_setPg_same (x : PgSt) : (d.setPg i x).pg i = x := by simp [pg_setPg]
@[simp] theorem setPg_objs (x : PgSt) : (d.setPg i x).objs = d.objs := rfl
@[simp] theorem setPg_free (x : PgSt) : (d.setPg i x).free = d.free := rfl
@[simp] theorem setPg_out (x : PgSt) : (d.setPg i x).out = d.out := rfl

theorem txTrib_setTxTrib (x : TxTrib) : (d.setTxTrib i x).txTrib j = if j = i then x else d.txTrib j := by simp [Dev.txTrib, Dev.setTxTrib, mget_mset]
@[simp] theorem txTrib_setTxTrib_same (x : TxTrib) : (d.setTxTrib i x).txTrib i = x := by simp [txTrib_setTxTrib]
@[simp] theorem setTxTrib_objs (x : TxTrib) : (d.setTxTrib i x).objs = d.objs := rfl
@[simp] theorem setTxTrib_free (x : TxTrib) : (d.setTxTrib i x).free = d.free := rfl
@[simp] theorem setTxTrib_out (x : TxTrib) : (d.setTxTrib i x).out = d.out := rfl

theorem rxTrib_setRxTrib (x : RxTrib) : (d.setRxTrib i x).rxTrib j = if j = i then x else d.rxTrib j := by simp [Dev.rxTrib, Dev.setRxTrib, mget_mset]
@[simp] theorem rxTrib_setRxTrib_same (x : RxTrib) : (d.setRxTrib i x).rxTrib i = x := by simp [rxTrib_setRxTrib]
@[simp] theorem setRxTrib_objs (x : RxTrib) : (d.setRxTrib i x).objs = d.objs := rfl
@[simp] theorem setRxTrib_free (x : RxTrib) : (d.setRxTrib i x).free = d.free := rfl
@[simp] theorem setRxTrib_out (x : RxTrib) : (d.setRxTrib i x).out = d.out := rfl

theorem rxLine_setRxLine (x : RxLine) : (d.setRxLine i x).rxLine j = if j = i then x else d.rxLine j := by simp [Dev.rxLine, Dev.setRxLine, mget_mset]
@[simp] theorem rxLine_setRxLine_same (x : RxLine) : (d.setRxLine i x).rxLine i = x := by simp [rxLine_setRxLine]
@[simp] theorem setRxLine_objs (x : RxLine) : (d.setRxLine i x).objs = d.objs := rfl
@[simp] theorem setRxLine_free (x : RxLine) : (d.setRxLine i x).free = d.free := rfl
@[simp] theorem setRxLine_out (x : RxLine) : (d.setRxLine i x).out = d.out := rfl

theorem txLine_setTxLine (x : TxLine) : (d.setTxLine i x).txLine j = if j = i then x else d.txLine j := by simp [Dev.txLine, Dev.setTxLine, mget_mset]
@[simp] theorem txLine_setTxLine_same (x : TxLine) : (d.setTxLine i x).txLine i = x := by simp [txLine_setTxLine]
@[simp] theorem setTxLine_objs (x : TxLine) : (d.setTxLine i x).objs = d.objs := rfl
@[simp] theorem setTxLine_free (x : TxLine) : (d.setTxLine i x).free = d.free := rfl
@[simp] theorem setTxLine_out (x : TxLine) : (d.setTxLine i x).out = d.out := rfl

theorem pm_setPm (x : PmSt) : (d.setPm i x).pm j = if j = i then x else d.pm j := by simp [Dev.pm, Dev.setPm, mget_mset]
@[simp] theorem pm_setPm_same (x : PmSt) : (d.setPm i x).pm i = x := by simp [pm_setPm]
@[simp] theorem setPm_objs (x : PmSt) : (d.setPm i x).objs = d.objs := rfl
@[simp] theorem setPm_free (x : PmSt) : (d.setPm i x).free = d.free := rfl
@[simp] theorem setPm_out (x : PmSt) : (d.setPm i x).out = d.out := rfl

theorem ring_setRing (x : Ring) : (d.setRing i x).ring j = if j = i then x else d.ring j := by simp [Dev.ring, Dev.setRing, mget_mset]
@[simp] theorem ring_setRing_same (x : Ring) : (d.setRing i x).ring i = x := by simp [ring_setRing]
@[simp] theorem setRing_objs (x : Ring) : (d.setRing i x).objs = d.objs := rfl
@[simp] theorem setRing_free (x : Ring) : (d.setRing i x).free = d.free := rfl
@[simp] theorem setRing_out (x : Ring) : (d.setRing i x).out = d.out := rfl

theorem batch_setBatch (x : BatchEng) : (d.setBatch i x).batch j = if j = i then x else d.batch j := by simp [Dev.batch, Dev.setBatch, mget_mset]
@[simp] theorem batch_setBatch_same (x : BatchEng) : (d.setBatch i x).batch i = x := by simp [batch_setBatch]
@[simp] theorem setBatch_objs (x : BatchEng) : (d.setBatch i x).objs = d.objs := rfl
@[simp] theorem setBatch_free (x : BatchEng) : (d.setBatch i x).free = d.free := rfl
@[simp] theorem setBatch_out (x : BatchEng) : (d.setBatch i x).out = d.out := rfl

theorem vector_setVector (x : Vector) : (d.setVector i x).vector j = if j = i then x else d.vector j := by simp [Dev.vector, Dev.setVector, mget_mset]
@[simp] theorem vector_setVector_same (x : Vector) : (d.setVector i x).vector i = x := by simp [vector_setVector]
@[simp] theorem setVector_objs (x : Vector) : (d.setVector i x).objs = d.objs := rfl
@[simp] theorem setVector_free (x : Vector) : (d.setVector i x).free = d.free := rfl
@[simp] theorem setVector_out (x : Vector) : (d.setVector i x).out = d.out := rfl

theorem fifo_setFifo (x : List Nat) : (d.setFifo i x).fifo j = if j = i then x else d.fifo j := by simp [Dev.fifo, Dev.setFifo, mget_mset]
@[simp] theorem fifo_setFifo_same (x : List Nat) : (d.setFifo i x).fifo i = x := by simp [fifo_setFifo]
@[simp] theorem setFifo_objs (x : List Nat) : (d.setFifo i x).objs = d.objs := rfl
@[simp] theorem setFifo_free (x : List Nat) : (d.setFifo i x).free = d.free := rfl
@[simp] theorem setFifo_out (x : List Nat) : (d.setFifo i x).out = d.out := rfl

theorem queue_setQueue (x : List Copy) : (d.setQueue i x).queue j = if j = i then x else d.queue j := by simp [Dev.queue, Dev.setQueue, mget_mset]
@[simp] theorem queue_setQueue_same (x : List Copy) : (d.setQueue i x).queue i = x := by simp [queue_setQueue]
@[simp] theorem setQueue_objs (x : List Copy) : (d.setQueue i x).objs = d.objs := rfl
@[simp] theorem setQueue_free (x : List Copy) : (d.setQueue i x).free = d.free := rfl
@[simp] theorem setQueue_out (x : List Copy) : (d.setQueue i x).out = d.out := rfl

theorem fifoB_setFifoB (x : List Copy) : (d.setFifoB i x).fifoB j = if j = i then x else d.fifoB j := by simp [Dev.fifoB, Dev.setFifoB, mget_mset]
@[simp] theorem fifoB_setFifoB_same (x : List Copy) : (d.setFifoB i x).fifoB i = x := by simp [fifoB_setFifoB]
@[simp] theorem setFifoB_objs (x : List Copy) : (d.setFifoB i x).objs = d.objs := rfl
@[simp] theorem setFifoB_free (x : List Copy) : (d.setFifoB i x).free = d.free := rfl
@[simp] theorem setFifoB_out (x : List Copy) : (d.setFifoB i x).out = d.out := rfl

theorem fifoT_setFifoT (x : List Copy) : (d.setFifoT i x).fifoT j = if j = i then x else d.fifoT j := by simp [Dev.fifoT, Dev.setFifoT, mget_mset]
@[simp] theorem fifoT_setFifoT_same (x : List Copy) : (d.setFifoT i x).fifoT i = x := by simp [fifoT_setFifoT]
@[simp] theorem setFifoT_objs (x : List Copy) : (d.setFifoT i x).objs = d.objs := rfl
@[simp] theorem setFifoT_free (x : List Copy) : (d.setFifoT i x).free = d.free := rfl
@[simp] theorem setFifoT_out (x : List Copy) : (d.setFifoT i x).out = d.out := rfl

theorem sessOf_setSess (x : Sess) : (d.setSess i x).sessOf j = if j = i then x else d.sessOf j := by simp [Dev.sessOf, Dev.setSess, mget_mset]
@[simp] theorem sessOf_setSess_same (x : Sess) : (d.setSess i x).sessOf i = x := by simp [sessOf_setSess]
@[simp] theorem setSess_objs (x : Sess) : (d.setSess i x).objs = d.objs := rfl
@[simp] theorem setSess_free (x : Sess) : (d.setSess i x).free = d.free := rfl
@[simp] theorem setSess_out (x : Sess) : (d.setSess i x).out = d.out := rfl

theorem win_setWin (x : ObjWin) : (d.setWin i x).win j = if j = i then x else d.win j := by simp [Dev.win, Dev.setWin, mget_mset]
@[simp] theorem win_setWin_same (x : ObjWin) : (d.setWin i x).win i = x := by simp [win_setWin]
@[simp] theorem setWin_objs (x : ObjWin) : (d.setWin i x).objs = d.objs := rfl
@[simp] theorem setWin_free (x : ObjWin) : (d.setWin i x).free = d.free := rfl
@[simp] theorem setWin_out (x : ObjWin) : (d.setWin i x).out = d.out := rfl

theorem tblWin_setTblWin (x : TblWin) : (d.setTblWin i x).tblWin j = if j = i then x else d.tblWin j := by simp [Dev.tblWin, Dev.setTblWin, mget_mset]
@[simp] theorem tblWin_setTblWin_same (x : TblWin) : (d.setTblWin i x).tblWin i = x := by simp [tblWin_setTblWin]
@[simp] theorem setTblWin_objs (x : TblWin) : (d.setTblWin i x).objs = d.objs := rfl
@[simp] theorem setTblWin_free (x : TblWin) : (d.setTblWin i x).free = d.free := rfl
@[simp] theorem setTblWin_out (x : TblWin) : (d.setTblWin i x).out = d.out := rfl

theorem input_setInput (x : InSt) : (d.setInput i x).input j = if j = i then x else d.input j := by simp [Dev.input, Dev.setInput, mget_mset]
@[simp] theorem input_setInput_same (x : InSt) : (d.setInput i x).input i = x := by simp [input_setInput]
@[simp] theorem setInput_objs (x : InSt) : (d.setInput i x).objs = d.objs := rfl
@[simp] theorem setInput_free (x : InSt) : (d.setInput i x).free = d.free := rfl
@[simp] theorem setInput_out (x : InSt) : (d.setInput i x).out = d.out := rfl

theorem fetches_setFetches (x : List Fetch) : (d.setFetches i x).fetches j = if j = i then x else d.fetches j := by simp [Dev.fetches, Dev.setFetches, mget_mset]
@[simp] theorem fetches_setFetches_same (x : List Fetch) : (d.setFetches i x).fetches i = x := by simp [fetches_setFetches]
@[simp] theorem setFetches_objs (x : List Fetch) : (d.setFetches i x).objs = d.objs := rfl
@[simp] theorem setFetches_free (x : List Fetch) : (d.setFetches i x).free = d.free := rfl
@[simp] theorem setFetches_out (x : List Fetch) : (d.setFetches i x).out = d.out := rfl

theorem dramQ_setDramQ (x : List DramReq) : (d.setDramQ i x).dramQ j = if j = i then x else d.dramQ j := by simp [Dev.dramQ, Dev.setDramQ, mget_mset]
@[simp] theorem dramQ_setDramQ_same (x : List DramReq) : (d.setDramQ i x).dramQ i = x := by simp [dramQ_setDramQ]
@[simp] theorem setDramQ_objs (x : List DramReq) : (d.setDramQ i x).objs = d.objs := rfl
@[simp] theorem setDramQ_free (x : List DramReq) : (d.setDramQ i x).free = d.free := rfl
@[simp] theorem setDramQ_out (x : List DramReq) : (d.setDramQ i x).out = d.out := rfl

theorem bank_setBank (x : Bank) : (d.setBank i x).bank j = if j = i then x else d.bank j := by simp [Dev.bank, Dev.setBank, mget_mset]
@[simp] theorem bank_setBank_same (x : Bank) : (d.setBank i x).bank i = x := by simp [bank_setBank]
@[simp] theorem setBank_objs (x : Bank) : (d.setBank i x).objs = d.objs := rfl
@[simp] theorem setBank_free (x : Bank) : (d.setBank i x).free = d.free := rfl
@[simp] theorem setBank_out (x : Bank) : (d.setBank i x).out = d.out := rfl

/-! ### Pools (R311) -/

variable (c : Clock)

/-- A message joins those that a pool holds for its consumer, last. -/
theorem at_poolKeep (n : Nat) : M.at (poolKeep i n) c d =
    ((), { d with yard.poolHeld := mset (dK []) d.yard.poolHeld i (mget (dK []) d.yard.poolHeld i ++ [n]) }) := rfl

/-- A pool that holds no message has nothing to give back, and takes no free value. -/
theorem at_poolDrain_empty (h : mget (dK []) d.yard.poolHeld i = []) : M.at (poolDrain i) c d = ((), d) := by
  simp [poolDrain, h]

end Sys2Proof.Machine
end

