-- ==== Sys2Proof/Laws/Meanings.lean ====
section
/-! SUPPORT. One lemma per command: which meaning runs it. -/

namespace Sys2Proof.Machine

theorem exec_read (s : State) {t} : exec (.read t) s = execRead t s := rfl
theorem exec_write (s : State) {t} {data} : exec (.write t data) s = execWrite t data s := rfl
theorem exec_readShadow (s : State) {w} {key} : exec (.readShadow w key) s = execReadShadow w key s := rfl
theorem exec_commit (s : State) {w} : exec (.commit w) s = execCommit w s := rfl
theorem exec_discard (s : State) {w} : exec (.discard w) s = execDiscard w s := rfl
theorem exec_peggedWrite (s : State) {w} {key} {data} {fail} : exec (.peggedWrite w key data fail) s = execPeggedWrite w key data fail s := rfl
theorem exec_areaSwap (s : State) {a} {part} : exec (.areaSwap a part) s = execAreaSwap a part s := rfl
theorem exec_shadowCopyStart (s : State) {a} : exec (.shadowCopyStart a) s = execShadowCopyStart a s := rfl
theorem exec_shadowCopyDone (s : State) {a} : exec (.shadowCopyDone a) s = execShadowCopyDone a s := rfl
theorem exec_bankBreak (s : State) {w} {a} : exec (.bankBreak w a) s = execBankBreak w a s := rfl
theorem exec_pegScrubPass (s : State) {bad} : exec (.pegScrubPass bad) s = execPegScrubPass bad s := rfl
theorem exec_tblFind (s : State) {k} {ix} {sub} {shadow} {entry} : exec (.tblFind k ix sub shadow entry) s = execTblFind k ix sub shadow entry s := rfl
theorem exec_tblInsert (s : State) {k} {ix} {sub} {shadow} {addr} {entry} : exec (.tblInsert k ix sub shadow addr entry) s = execTblInsert k ix sub shadow addr entry s := rfl
theorem exec_tblDelete (s : State) {k} {ix} {sub} {shadow} {addr} {entry} : exec (.tblDelete k ix sub shadow addr entry) s = execTblDelete k ix sub shadow addr entry s := rfl
theorem exec_tblUpdate (s : State) {k} {ix} {sub} {shadow} {addr} {entry} : exec (.tblUpdate k ix sub shadow addr entry) s = execTblUpdate k ix sub shadow addr entry s := rfl
theorem exec_tblNext (s : State) {k} {ix} {sub} {shadow} {cursor} : exec (.tblNext k ix sub shadow cursor) s = execTblNext k ix sub shadow cursor s := rfl
theorem exec_windowWriteIgnored (s : State) {table} {w} : exec (.windowWriteIgnored table w) s = execWindowWriteIgnored table w s := rfl
theorem exec_batchEnable (s : State) {f} {ie} : exec (.batchEnable f ie) s = execBatchEnable f ie s := rfl
theorem exec_batchErrorClear (s : State) {f} : exec (.batchErrorClear f) s = execBatchErrorClear f s := rfl
theorem exec_batchDescriptor (s : State) {f} {desc} {ops} {readErr} {writeErr} : exec (.batchDescriptor f desc ops readErr writeErr) s = execBatchDescriptor f desc ops readErr writeErr s := rfl
theorem exec_uopRequest (s : State) {chan} {num} {data} : exec (.uopRequest chan num data) s = execUopRequest chan num data s := rfl
theorem exec_hdlcFrame (s : State) {c} {octets} : exec (.hdlcFrame c octets) s = execHdlcFrame c octets s := rfl
theorem exec_sessionKeyWrite (s : State) {w} {k} {key} : exec (.sessionKeyWrite w k key) s = execSessionKeyWrite w k key s := rfl
theorem exec_crossingStall (s : State) {j} {src} : exec (.crossingStall j src) s = execCrossingStall j src s := rfl
theorem exec_islandRecover (s : State) {j} : exec (.islandRecover j) s = execIslandRecover j s := rfl
theorem exec_reconfigureDone (s : State) {p} : exec (.reconfigureDone p) s = execReconfigureDone p s := rfl
theorem exec_laneSignalDetect (s : State) {l} : exec (.laneSignalDetect l) s = execLaneSignalDetect l s := rfl
theorem exec_laneAdaptDone (s : State) {l} {ctle} {dfe} {snr} : exec (.laneAdaptDone l ctle dfe snr) s = execLaneAdaptDone l ctle dfe snr s := rfl
theorem exec_losDeclare (s : State) {l} : exec (.losDeclare l) s = execLosDeclare l s := rfl
theorem exec_losClear (s : State) {l} : exec (.losClear l) s = execLosClear l s := rfl
theorem exec_cdrLockChange (s : State) {l} {locked} : exec (.cdrLockChange l locked) s = execCdrLockChange l locked s := rfl
theorem exec_fecLockChange (s : State) {p} {locked} : exec (.fecLockChange p locked) s = execFecLockChange p locked s := rfl
theorem exec_deskewFault (s : State) {p} {on} : exec (.deskewFault p on) s = execDeskewFault p on s := rfl
theorem exec_remoteFaultRx (s : State) {p} {on} : exec (.remoteFaultRx p on) s = execRemoteFaultRx p on s := rfl
theorem exec_localFaultRx (s : State) {p} {on} : exec (.localFaultRx p on) s = execLocalFaultRx p on s := rfl
theorem exec_rxPpmMeasure (s : State) {p} {ofs} : exec (.rxPpmMeasure p ofs) s = execRxPpmMeasure p ofs s := rfl
theorem exec_errInject (s : State) {w} {l} {n} : exec (.errInject w l n) s = execErrInject w l n s := rfl
theorem exec_chkLockLoss (s : State) {l} : exec (.chkLockLoss l) s = execChkLockLoss l s := rfl
theorem exec_portAdmin (s : State) {w} {p} {on} : exec (.portAdmin w p on) s = execPortAdmin w p on s := rfl
theorem exec_upHoldExpiry (s : State) {p} : exec (.upHoldExpiry p) s = execUpHoldExpiry p s := rfl
theorem exec_downHoldoffExpiry (s : State) {p} : exec (.downHoldoffExpiry p) s = execDownHoldoffExpiry p s := rfl
theorem exec_dampTick (s : State) {p} : exec (.dampTick p) s = execDampTick p s := rfl
theorem exec_dampDisable (s : State) {w} {p} : exec (.dampDisable w p) s = execDampDisable w p s := rfl
theorem exec_frameReceive (s : State) {p} {id} {data} {fecBad} {idle} {frags} {frag} : exec (.frameReceive p id data fecBad idle frags frag) s = execFrameReceive p id data fecBad idle frags frag s := rfl
theorem exec_refFail (s : State) {r} {cause} : exec (.refFail r cause) s = execRefFail r cause s := rfl
theorem exec_refGood (s : State) {r} : exec (.refGood r) s = execRefGood r s := rfl
theorem exec_refRevertExpiry (s : State) : exec (.refRevertExpiry) s = execRefRevertExpiry s := rfl
theorem exec_offsetIn (s : State) {w} {o} : exec (.offsetIn w o) s = execOffsetIn w o s := rfl
theorem exec_feedTimeout (s : State) : exec (.feedTimeout) s = execFeedTimeout s := rfl
theorem exec_servoModeWrite (s : State) {w} {mode} : exec (.servoModeWrite w mode) s = execServoModeWrite w mode s := rfl
theorem exec_stepDelta (s : State) {w} {d} : exec (.stepDelta w d) s = execStepDelta w d s := rfl
theorem exec_stepSet (s : State) {w} {t} : exec (.stepSet w t) s = execStepSet w t s := rfl
theorem exec_stepApply (s : State) : exec (.stepApply) s = execStepApply s := rfl
theorem exec_tsReflDeliver (s : State) {p} : exec (.tsReflDeliver p) s = execTsReflDeliver p s := rfl
theorem exec_ppsOutEdge (s : State) {rise} : exec (.ppsOutEdge rise) s = execPpsOutEdge rise s := rfl
theorem exec_ppsInAbsent (s : State) : exec (.ppsInAbsent) s = execPpsInAbsent s := rfl
theorem exec_plumbFrameRx (s : State) {p} {blocks} : exec (.plumbFrameRx p blocks) s = execPlumbFrameRx p blocks s := rfl
theorem exec_plumbFrameTx (s : State) {p} : exec (.plumbFrameTx p) s = execPlumbFrameTx p s := rfl
theorem exec_cmPageSwap (s : State) {p} : exec (.cmPageSwap p) s = execCmPageSwap p s := rfl
theorem exec_rxMapWrite (s : State) {w} {sub} {e} {v} : exec (.rxMapWrite w sub e v) s = execRxMapWrite w sub e v s := rfl
theorem exec_pcFrameRx (s : State) {e} {data} {fecBad} : exec (.pcFrameRx e data fecBad) s = execPcFrameRx e data fecBad s := rfl
theorem exec_ohpFrame (s : State) {n} {rx} : exec (.ohpFrame n rx) s = execOhpFrame n rx s := rfl
theorem exec_berWindowEnd (s : State) {trib} {id} : exec (.berWindowEnd trib id) s = execBerWindowEnd trib id s := rfl
theorem exec_pmSecond (s : State) {trib} {id} : exec (.pmSecond trib id) s = execPmSecond trib id s := rfl
theorem exec_pmBinClose (s : State) {trib} {id} {day} : exec (.pmBinClose trib id day) s = execPmBinClose trib id day s := rfl
theorem exec_pgHoldoffExpiry (s : State) {g} {prot} : exec (.pgHoldoffExpiry g prot) s = execPgHoldoffExpiry g prot s := rfl
theorem exec_pgWtrExpiry (s : State) {g} : exec (.pgWtrExpiry g) s = execPgWtrExpiry g s := rfl
theorem exec_apsFopTimer (s : State) {g} : exec (.apsFopTimer g) s = execApsFopTimer g s := rfl
theorem exec_pgClear (s : State) {w} {g} : exec (.pgClear w g) s = execPgClear w g s := rfl
theorem exec_pgLockout (s : State) {w} {g} : exec (.pgLockout w g) s = execPgLockout w g s := rfl
theorem exec_pgForcedSwitch (s : State) {w} {g} : exec (.pgForcedSwitch w g) s = execPgForcedSwitch w g s := rfl
theorem exec_pgManualProtect (s : State) {w} {g} : exec (.pgManualProtect w g) s = execPgManualProtect w g s := rfl
theorem exec_pgManualWorking (s : State) {w} {g} : exec (.pgManualWorking w g) s = execPgManualWorking w g s := rfl
theorem exec_inputRawChange (s : State) {j} {level} : exec (.inputRawChange j level) s = execInputRawChange j level s := rfl
theorem exec_inputDwellExpiry (s : State) {j} : exec (.inputDwellExpiry j) s = execInputDwellExpiry j s := rfl
theorem exec_inputChatterRelease (s : State) {j} : exec (.inputChatterRelease j) s = execInputChatterRelease j s := rfl
theorem exec_inputStuck (s : State) {j} : exec (.inputStuck j) s = execInputStuck j s := rfl
theorem exec_inputStuckRelease (s : State) {j} : exec (.inputStuckRelease j) s = execInputStuckRelease j s := rfl
theorem exec_fifoEntry (s : State) {p} {data} {idle} : exec (.fifoEntry p data idle) s = execFifoEntry p data idle s := rfl
theorem exec_framePipeline (s : State) {id} {bad} : exec (.framePipeline id bad) s = execFramePipeline id bad s := rfl
theorem exec_prismScrubPass (s : State) {b} {bad} : exec (.prismScrubPass b bad) s = execPrismScrubPass b bad s := rfl
theorem exec_bayTableApply (s : State) {b} : exec (.bayTableApply b) s = execBayTableApply b s := rfl
theorem exec_bayCopyRepair (s : State) {b} {kind} {addr} : exec (.bayCopyRepair b kind addr) s = execBayCopyRepair b kind addr s := rfl
theorem exec_lpmReadyWrite (s : State) {w} {on} : exec (.lpmReadyWrite w on) s = execLpmReadyWrite w on s := rfl
theorem exec_trieRebuildDone (s : State) {b} : exec (.trieRebuildDone b) s = execTrieRebuildDone b s := rfl
theorem exec_learnRequest (s : State) : exec (.learnRequest) s = execLearnRequest s := rfl
theorem exec_moveRequest (s : State) : exec (.moveRequest) s = execMoveRequest s := rfl
theorem exec_moveSecondEnd (s : State) : exec (.moveSecondEnd) s = execMoveSecondEnd s := rfl
theorem exec_freezeExpiry (s : State) {addr} : exec (.freezeExpiry addr) s = execFreezeExpiry addr s := rfl
theorem exec_learnAgingPass (s : State) : exec (.learnAgingPass) s = execLearnAgingPass s := rfl
theorem exec_flowLookup (s : State) {id} {bad} : exec (.flowLookup id bad) s = execFlowLookup id bad s := rfl
theorem exec_flowFetchDone (s : State) {k} {wait} {bad} : exec (.flowFetchDone k wait bad) s = execFlowFetchDone k wait bad s := rfl
theorem exec_parkTimeout (s : State) {id} : exec (.parkTimeout id) s = execParkTimeout id s := rfl
theorem exec_flowCommit (s : State) {id} : exec (.flowCommit id) s = execFlowCommit id s := rfl
theorem exec_flowSample (s : State) {id} : exec (.flowSample id) s = execFlowSample id s := rfl
theorem exec_flowAgingPass (s : State) {k} : exec (.flowAgingPass k) s = execFlowAgingPass k s := rfl
theorem exec_poolScanDone (s : State) {n} : exec (.poolScanDone n) s = execPoolScanDone n s := rfl
theorem exec_taskDispatch (s : State) {k} : exec (.taskDispatch k) s = execTaskDispatch k s := rfl
theorem exec_microwordIssue (s : State) {n} {t} {err} {entry} {late} : exec (.microwordIssue n t err entry late) s = execMicrowordIssue n t err entry late s := rfl
theorem exec_waitEnd (s : State) {n} {t} : exec (.waitEnd n t) s = execWaitEnd n t s := rfl
theorem exec_dovetailRelease (s : State) {k} {d} : exec (.dovetailRelease k d) s = execDovetailRelease k d s := rfl
theorem exec_preemptPost (s : State) {k} : exec (.preemptPost k) s = execPreemptPost k s := rfl
theorem exec_taskRetryReady (s : State) {k} : exec (.taskRetryReady k) s = execTaskRetryReady k s := rfl
theorem exec_spawnTimeout (s : State) {n} {t} : exec (.spawnTimeout n t) s = execSpawnTimeout n t s := rfl
theorem exec_deadlockDetect (s : State) {n} : exec (.deadlockDetect n) s = execDeadlockDetect n s := rfl
theorem exec_clampWaitLimit (s : State) {n} {t} : exec (.clampWaitLimit n t) s = execClampWaitLimit n t s := rfl
theorem exec_dbgHalt (s : State) {w} {n} {t} : exec (.dbgHalt w n t) s = execDbgHalt w n t s := rfl
theorem exec_dbgResume (s : State) {w} {n} {t} : exec (.dbgResume w n t) s = execDbgResume w n t s := rfl
theorem exec_dbgRegWrite (s : State) {w} {n} {t} {r} {v} : exec (.dbgRegWrite w n t r v) s = execDbgRegWrite w n t r v s := rfl
theorem exec_dbgAbandon (s : State) {w} {n} {t} : exec (.dbgAbandon w n t) s = execDbgAbandon w n t s := rfl
theorem exec_dbgAbort (s : State) {w} {n} {t} : exec (.dbgAbort w n t) s = execDbgAbort w n t s := rfl
theorem exec_frameAdmit (s : State) {id} : exec (.frameAdmit id) s = execFrameAdmit id s := rfl
theorem exec_residueExpiry (s : State) {q} : exec (.residueExpiry q) s = execResidueExpiry q s := rfl
theorem exec_flushQueue (s : State) {w} {q} : exec (.flushQueue w q) s = execFlushQueue w q s := rfl
theorem exec_flushBounded (s : State) {w} {p} : exec (.flushBounded w p) s = execFlushBounded w p s := rfl
theorem exec_cellRemap (s : State) {cell} : exec (.cellRemap cell) s = execCellRemap cell s := rfl
theorem exec_poolProducerResume (s : State) {k} : exec (.poolProducerResume k) s = execPoolProducerResume k s := rfl
theorem exec_transmitOpportunity (s : State) {p} {e} {err} {cell} {gran} : exec (.transmitOpportunity p e err cell gran) s = execTransmitOpportunity p e err cell gran s := rfl
theorem exec_frameTxEnd (s : State) {p} {e} : exec (.frameTxEnd p e) s = execFrameTxEnd p e s := rfl
theorem exec_gateEvent (s : State) {p} : exec (.gateEvent p) s = execGateEvent p s := rfl
theorem exec_gateChangeSwap (s : State) {p} : exec (.gateChangeSwap p) s = execGateChangeSwap p s := rfl
theorem exec_verifyAttempt (s : State) {p} : exec (.verifyAttempt p) s = execVerifyAttempt p s := rfl
theorem exec_verifyResponse (s : State) {p} : exec (.verifyResponse p) s = execVerifyResponse p s := rfl
theorem exec_verifyTimeout (s : State) {p} : exec (.verifyTimeout p) s = execVerifyTimeout p s := rfl
theorem exec_policerWrite (s : State) {w} {sub} {j} {v} : exec (.policerWrite w sub j v) s = execPolicerWrite w sub j v s := rfl
theorem exec_pauseRx (s : State) {p} {data} {idle} : exec (.pauseRx p data idle) s = execPauseRx p data idle s := rfl
theorem exec_pauseExpiry (s : State) {p} {c} : exec (.pauseExpiry p c) s = execPauseExpiry p c s := rfl
theorem exec_fcEval (s : State) {p} {c} : exec (.fcEval p c) s = execFcEval p c s := rfl
theorem exec_pfcRepeat (s : State) {p} : exec (.pfcRepeat p) s = execPfcRepeat p s := rfl
theorem exec_fcWatchdogTrip (s : State) {p} {c} : exec (.fcWatchdogTrip p c) s = execFcWatchdogTrip p c s := rfl
theorem exec_fcWatchdogEnd (s : State) {p} {c} : exec (.fcWatchdogEnd p c) s = execFcWatchdogEnd p c s := rfl
theorem exec_dramRequest (s : State) {n} {lat} {err} : exec (.dramRequest n lat err) s = execDramRequest n lat err s := rfl
theorem exec_refreshTick (s : State) {n} {bank} : exec (.refreshTick n bank) s = execRefreshTick n bank s := rfl
theorem exec_dramTempRead (s : State) {n} {temp} : exec (.dramTempRead n temp) s = execDramTempRead n temp s := rfl
theorem exec_driftTrack (s : State) {n} {lane} {rd} {wr} {rw} {ww} : exec (.driftTrack n lane rd wr rw ww) s = execDriftTrack n lane rd wr rw ww s := rfl
theorem exec_scrubBurst (s : State) {n} {burst} {err} : exec (.scrubBurst n burst err) s = execScrubBurst n burst err s := rfl
theorem exec_chRetire (s : State) {w} {n} : exec (.chRetire w n) s = execChRetire w n s := rfl
theorem exec_segmentFillDone (s : State) {k} {seg} : exec (.segmentFillDone k seg) s = execSegmentFillDone k seg s := rfl
theorem exec_ringConfigWrite (s : State) {r} {reg} {v} : exec (.ringConfigWrite r reg v) s = execRingConfigWrite r reg v s := rfl
theorem exec_ringEnable (s : State) {r} {ie} : exec (.ringEnable r ie) s = execRingEnable r ie s := rfl
theorem exec_ringDisable (s : State) {r} : exec (.ringDisable r) s = execRingDisable r s := rfl
theorem exec_ringInterruptEnable (s : State) {r} {on} : exec (.ringInterruptEnable r on) s = execRingInterruptEnable r on s := rfl
theorem exec_ringErrorClear (s : State) {r} : exec (.ringErrorClear r) s = execRingErrorClear r s := rfl
theorem exec_ringTailPoll (s : State) {r} {err} : exec (.ringTailPoll r err) s = execRingTailPoll r err s := rfl
theorem exec_puntDeliver (s : State) {r} {desc} : exec (.puntDeliver r desc) s = execPuntDeliver r desc s := rfl
theorem exec_injectTake (s : State) {r} {desc} {data} {err} : exec (.injectTake r desc data err) s = execInjectTake r desc data err s := rfl
theorem exec_injectFifoEnter (s : State) {r} : exec (.injectFifoEnter r) s = execInjectFifoEnter r s := rfl
theorem exec_ledgerRecord (s : State) : exec (.ledgerRecord) s = execLedgerRecord s := rfl
theorem exec_msixHoldoffExpiry (s : State) {j} : exec (.msixHoldoffExpiry j) s = execMsixHoldoffExpiry j s := rfl
theorem exec_pcieError (s : State) {f} {kind} {aer} : exec (.pcieError f kind aer) s = execPcieError f kind aer s := rfl
theorem exec_barUnmappedAccess (s : State) : exec (.barUnmappedAccess) s = execBarUnmappedAccess s := rfl
theorem exec_linkRetrain (s : State) {rate} {width} : exec (.linkRetrain rate width) s = execLinkRetrain rate width s := rfl
theorem exec_hostAttach (s : State) {ready} : exec (.hostAttach ready) s = execHostAttach ready s := rfl
theorem exec_hostDetach (s : State) : exec (.hostDetach) s = execHostDetach s := rfl
theorem exec_hostHeartbeat (s : State) : exec (.hostHeartbeat) s = execHostHeartbeat s := rfl
theorem exec_hostWdogExpiry (s : State) : exec (.hostWdogExpiry) s = execHostWdogExpiry s := rfl
theorem exec_pcieLinkDown (s : State) : exec (.pcieLinkDown) s = execPcieLinkDown s := rfl
theorem exec_functionLevelReset (s : State) {f} : exec (.functionLevelReset f) s = execFunctionLevelReset f s := rfl
theorem exec_busMasterDisable (s : State) : exec (.busMasterDisable) s = execBusMasterDisable s := rfl
theorem exec_d3hotEntry (s : State) : exec (.d3hotEntry) s = execD3hotEntry s := rfl
theorem exec_perstAssert (s : State) : exec (.perstAssert) s = execPerstAssert s := rfl
theorem exec_perstRelease (s : State) {rate} {width} : exec (.perstRelease rate width) s = execPerstRelease rate width s := rfl
theorem exec_groupComposeWrite (s : State) {w} {j} {key} : exec (.groupComposeWrite w j key) s = execGroupComposeWrite w j key s := rfl
theorem exec_snapNow (s : State) {w} {g} : exec (.snapNow w g) s = execSnapNow w g s := rfl
theorem exec_snapInstant (s : State) : exec (.snapInstant) s = execSnapInstant s := rfl
theorem exec_snapSwap (s : State) : exec (.snapSwap) s = execSnapSwap s := rfl
theorem exec_bwWindowEnd (s : State) {p} {tx} : exec (.bwWindowEnd p tx) s = execBwWindowEnd p tx s := rfl
theorem exec_monConfigWrite (s : State) {w} {sub} {m} {v} : exec (.monConfigWrite w sub m v) s = execMonConfigWrite w sub m v s := rfl
theorem exec_monSample (s : State) {m} {v} : exec (.monSample m v) s = execMonSample m v s := rfl
theorem exec_monIntervalEnd (s : State) {m} : exec (.monIntervalEnd m) s = execMonIntervalEnd m s := rfl
theorem exec_traceClear (s : State) {w} : exec (.traceClear w) s = execTraceClear w s := rfl
theorem exec_uwordSample (s : State) {n} {t} : exec (.uwordSample n t) s = execUwordSample n t s := rfl
theorem exec_sampleClear (s : State) {w} {k} : exec (.sampleClear w k) s = execSampleClear w k s := rfl
theorem exec_exportFlushExpiry (s : State) {k} : exec (.exportFlushExpiry k) s = execExportFlushExpiry k s := rfl
theorem exec_exportTemplateSend (s : State) : exec (.exportTemplateSend) s = execExportTemplateSend s := rfl
theorem exec_limiterSecond (s : State) : exec (.limiterSecond) s = execLimiterSecond s := rfl
theorem exec_ledgerDiscardSummary (s : State) : exec (.ledgerDiscardSummary) s = execLedgerDiscardSummary s := rfl
theorem exec_ledgerRead (s : State) {w} {bad} : exec (.ledgerRead w bad) s = execLedgerRead w bad s := rfl
theorem exec_ledgerClear (s : State) {w} {v} : exec (.ledgerClear w v) s = execLedgerClear w v s := rfl
theorem exec_srcLatchClear (s : State) {w} {j} {v} : exec (.srcLatchClear w j v) s = execSrcLatchClear w j v s := rfl
theorem exec_operatingTimeTick (s : State) : exec (.operatingTimeTick) s = execOperatingTimeTick s := rfl
theorem exec_updChunk (s : State) {w} {k} {data} : exec (.updChunk w k data) s = execUpdChunk w k data s := rfl
theorem exec_updVerify (s : State) {w} : exec (.updVerify w) s = execUpdVerify w s := rfl
theorem exec_updVerifyDone (s : State) : exec (.updVerifyDone) s = execUpdVerifyDone s := rfl
theorem exec_updActivate (s : State) {w} : exec (.updActivate w) s = execUpdActivate w s := rfl
theorem exec_updConfirm (s : State) {w} {fail} : exec (.updConfirm w fail) s = execUpdConfirm w fail s := rfl
theorem exec_updAbort (s : State) {w} : exec (.updAbort w) s = execUpdAbort w s := rfl
theorem exec_updTrialExpiry (s : State) : exec (.updTrialExpiry) s = execUpdTrialExpiry s := rfl
theorem exec_coreBoot (s : State) {c} : exec (.coreBoot c) s = execCoreBoot c s := rfl
theorem exec_coreInService (s : State) {c} : exec (.coreInService c) s = execCoreInService c s := rfl
theorem exec_coreWdogExpiry (s : State) {c} : exec (.coreWdogExpiry c) s = execCoreWdogExpiry c s := rfl
theorem exec_coreRestartCmd (s : State) {w} {c} : exec (.coreRestartCmd w c) s = execCoreRestartCmd w c s := rfl
theorem exec_zeroize (s : State) {w} : exec (.zeroize w) s = execZeroize w s := rfl
theorem exec_keyLock (s : State) {w} : exec (.keyLock w) s = execKeyLock w s := rfl
theorem exec_userExtend (s : State) {w} {data} : exec (.userExtend w data) s = execUserExtend w data s := rfl
theorem exec_attRequest (s : State) {w} {pl} {nonce} : exec (.attRequest w pl nonce) s = execAttRequest w pl nonce s := rfl
theorem exec_attSignDone (s : State) {pl} {ms} : exec (.attSignDone pl ms) s = execAttSignDone pl ms s := rfl
theorem exec_dbgSubmit (s : State) {w} {pl} : exec (.dbgSubmit w pl) s = execDbgSubmit w pl s := rfl
theorem exec_dbgVerifyDone (s : State) : exec (.dbgVerifyDone) s = execDbgVerifyDone s := rfl
theorem exec_dbgLock (s : State) {w} {pl} : exec (.dbgLock w pl) s = execDbgLock w pl s := rfl
theorem exec_dbgUnlockExpiry (s : State) : exec (.dbgUnlockExpiry) s = execDbgUnlockExpiry s := rfl
theorem exec_porstAssert (s : State) : exec (.porstAssert) s = execPorstAssert s := rfl
theorem exec_powerUp (s : State) {slots} {pegs} {otp} {cells} {dram} {recs} {rails} {noClock} : exec (.powerUp slots pegs otp cells dram recs rails noClock) s = execPowerUp slots pegs otp cells dram recs rails noClock s := rfl
theorem exec_warmRestartCmd (s : State) {w} : exec (.warmRestartCmd w) s = execWarmRestartCmd w s := rfl
theorem exec_dpResetCmd (s : State) {w} : exec (.dpResetCmd w) s = execDpResetCmd w s := rfl
theorem exec_deviceResetCmd (s : State) {w} : exec (.deviceResetCmd w) s = execDeviceResetCmd w s := rfl
theorem exec_dataPlaneReset (s : State) : exec (.dataPlaneReset) s = execDataPlaneReset s := rfl
theorem exec_dpReady (s : State) {dram} : exec (.dpReady dram) s = execDpReady dram s := rfl
theorem exec_warmRestart (s : State) : exec (.warmRestart) s = execWarmRestart s := rfl
theorem exec_deviceReset (s : State) {slots} {pegs} {otp} {cells} {dram} {recs} {noClock} : exec (.deviceReset slots pegs otp cells dram recs noClock) s = execDeviceReset slots pegs otp cells dram recs noClock s := rfl
theorem exec_railSample (s : State) {k} {mv} {ma} : exec (.railSample k mv ma) s = execRailSample k mv ma s := rfl
theorem exec_sensorSample (s : State) {k} {raw} : exec (.sensorSample k raw) s = execSensorSample k raw s := rfl
theorem exec_thermDeassert (s : State) : exec (.thermDeassert) s = execThermDeassert s := rfl
theorem exec_powerWarnExceed (s : State) : exec (.powerWarnExceed) s = execPowerWarnExceed s := rfl
theorem exec_lifeTick (s : State) : exec (.lifeTick) s = execLifeTick s := rfl
theorem exec_smbHottestSensor (s : State) : exec (.smbHottestSensor) s = execSmbHottestSensor s := rfl
theorem exec_smbSensor (s : State) {k} : exec (.smbSensor k) s = execSmbSensor k s := rfl
theorem exec_smbRailVoltage (s : State) {k} : exec (.smbRailVoltage k) s = execSmbRailVoltage k s := rfl
theorem exec_smbRailCurrent (s : State) {k} : exec (.smbRailCurrent k) s = execSmbRailCurrent k s := rfl
theorem exec_smbTotalPower (s : State) : exec (.smbTotalPower) s = execSmbTotalPower s := rfl
theorem exec_smbStatus (s : State) : exec (.smbStatus) s = execSmbStatus s := rfl
theorem exec_smbIdentity (s : State) : exec (.smbIdentity) s = execSmbIdentity s := rfl
theorem exec_smbAlertResponse (s : State) : exec (.smbAlertResponse) s = execSmbAlertResponse s := rfl
theorem exec_fatalFirmwareFault (s : State) {c} : exec (.fatalFirmwareFault c) s = execFatalFirmwareFault c s := rfl
theorem exec_tableOpSubmitTimeout (s : State) {k} : exec (.tableOpSubmitTimeout k) s = execTableOpSubmitTimeout k s := rfl
theorem exec_chkLockAcquire (s : State) {l} : exec (.chkLockAcquire l) s = execChkLockAcquire l s := rfl

end Sys2Proof.Machine
end

