-- ==== Sys2Proof/Laws/State.lean ====
section
/-! SUPPORT. What the updates of the device leave: one lemma per field and update, and what an object reads after a write. -/

namespace Sys2Proof.Machine

/-! ### Object keys -/

theorem keyIndex_okey (ix sub i : Nat) : keyIndex (okey ix sub i) = ix := by
  simp only [keyIndex, okey, Nat.shiftLeft_eq, Nat.shiftRight_eq_div_pow]; omega

theorem keySub_okey (ix sub i : Nat) : keySub (okey ix sub i) = sub % 256 := by
  simp only [keySub, fld, okey, Nat.shiftLeft_eq, Nat.shiftRight_eq_div_pow]; omega

theorem keyInst_okey (ix sub i : Nat) : keyInst (okey ix sub i) = i % 16777216 := by
  simp only [keyInst, okey, Nat.shiftLeft_eq]; omega

/-- Two keys are the same where index, sub-index and instance are. -/
theorem okey_inj (ix sub i ix' sub' i' : Nat) :
    okey ix sub i = okey ix' sub' i' ↔ ix = ix' ∧ sub % 256 = sub' % 256 ∧ i % 16777216 = i' % 16777216 := by
  simp only [okey, Nat.shiftLeft_eq]; omega

/-! ### Objects -/

/-- What an object reads after a write. -/
theorem o_setO (d : Dev) (ix sub i v ix' sub' i' : Nat) :
    (d.setO ix sub i v).o ix' sub' i' = if ix' = ix ∧ sub' % 256 = sub % 256 ∧ i' % 16777216 = i % 16777216 then v else d.o ix' sub' i' := by
  simp only [Dev.o, Dev.setO, mget_mset, okey_inj]

@[simp] theorem o_setO_same (d : Dev) (ix sub i v : Nat) : (d.setO ix sub i v).o ix sub i = v := by simp [o_setO]

/-- A write keeps every other object. -/
theorem mget_setO_ne (d : Dev) (ix sub i v : Nat) {k : Nat} (h : k ≠ okey ix sub i) :
    mget objDflt (d.setO ix sub i v).objs k = mget objDflt d.objs k := mget_mset_ne _ _ _ h

/-- A write keeps the canonical form of the dictionary. -/
theorem setO_wf (d : Dev) (ix sub i v : Nat) (h : mwf objDflt d.objs = true) : mwf objDflt (d.setO ix sub i v).objs = true :=
  mwf_mset _ _ _ _ h

/-- What an object reads after a counter has counted. -/
theorem o_addO (d : Dev) (ix sub i n ix' sub' i' : Nat) :
    (d.addO ix sub i n).o ix' sub' i' =
      if ix' = ix ∧ sub' % 256 = sub % 256 ∧ i' % 16777216 = i % 16777216 then
        countUp (((findRow ix sub).map (fun r => r.ty.len)).getD 8) (d.o ix sub i) n
      else d.o ix' sub' i' := by
  simp only [Dev.addO, o_setO]

/-! ### Fields -/

@[simp] theorem setO_tbls (d : Dev) (ix sub i v : Nat) : (d.setO ix sub i v).tbls = d.tbls := rfl
@[simp] theorem setO_dict (d : Dev) (ix sub i v : Nat) : (d.setO ix sub i v).dict = d.dict := rfl
@[simp] theorem setO_objWins (d : Dev) (ix sub i v : Nat) : (d.setO ix sub i v).objWins = d.objWins := rfl
@[simp] theorem setO_tblWins (d : Dev) (ix sub i v : Nat) : (d.setO ix sub i v).tblWins = d.tblWins := rfl
@[simp] theorem setO_sess (d : Dev) (ix sub i v : Nat) : (d.setO ix sub i v).sess = d.sess := rfl
@[simp] theorem setO_uopRate (d : Dev) (ix sub i v : Nat) : (d.setO ix sub i v).uopRate = d.uopRate := rfl
@[simp] theorem setO_uopDrops (d : Dev) (ix sub i v : Nat) : (d.setO ix sub i v).uopDrops = d.uopDrops := rfl
@[simp] theorem setO_lists (d : Dev) (ix sub i v : Nat) : (d.setO ix sub i v).lists = d.lists := rfl
@[simp] theorem setO_ev (d : Dev) (ix sub i v : Nat) : (d.setO ix sub i v).ev = d.ev := rfl
@[simp] theorem setO_host (d : Dev) (ix sub i v : Nat) : (d.setO ix sub i v).host = d.host := rfl
@[simp] theorem setO_yard (d : Dev) (ix sub i v : Nat) : (d.setO ix sub i v).yard = d.yard := rfl
@[simp] theorem setO_eg (d : Dev) (ix sub i v : Nat) : (d.setO ix sub i v).eg = d.eg := rfl
@[simp] theorem setO_ports (d : Dev) (ix sub i v : Nat) : (d.setO ix sub i v).ports = d.ports := rfl
@[simp] theorem setO_lanes (d : Dev) (ix sub i v : Nat) : (d.setO ix sub i v).lanes = d.lanes := rfl
@[simp] theorem setO_time (d : Dev) (ix sub i v : Nat) : (d.setO ix sub i v).time = d.time := rfl
@[simp] theorem setO_plumb (d : Dev) (ix sub i v : Nat) : (d.setO ix sub i v).plumb = d.plumb := rfl
@[simp] theorem setO_bays (d : Dev) (ix sub i v : Nat) : (d.setO ix sub i v).bays = d.bays := rfl
@[simp] theorem setO_flow (d : Dev) (ix sub i v : Nat) : (d.setO ix sub i v).flow = d.flow := rfl
@[simp] theorem setO_dram (d : Dev) (ix sub i v : Nat) : (d.setO ix sub i v).dram = d.dram := rfl
@[simp] theorem setO_joinery (d : Dev) (ix sub i v : Nat) : (d.setO ix sub i v).joinery = d.joinery := rfl
@[simp] theorem setO_mon (d : Dev) (ix sub i v : Nat) : (d.setO ix sub i v).mon = d.mon := rfl
@[simp] theorem setO_sec (d : Dev) (ix sub i v : Nat) : (d.setO ix sub i v).sec = d.sec := rfl
@[simp] theorem setO_inputs (d : Dev) (ix sub i v : Nat) : (d.setO ix sub i v).inputs = d.inputs := rfl
@[simp] theorem setO_power (d : Dev) (ix sub i v : Nat) : (d.setO ix sub i v).power = d.power := rfl
@[simp] theorem setO_free (d : Dev) (ix sub i v : Nat) : (d.setO ix sub i v).free = d.free := rfl
@[simp] theorem setO_out (d : Dev) (ix sub i v : Nat) : (d.setO ix sub i v).out = d.out := rfl

@[simp] theorem addO_tbls (d : Dev) (ix sub i n : Nat) : (d.addO ix sub i n).tbls = d.tbls := rfl
@[simp] theorem addO_dict (d : Dev) (ix sub i n : Nat) : (d.addO ix sub i n).dict = d.dict := rfl
@[simp] theorem addO_objWins (d : Dev) (ix sub i n : Nat) : (d.addO ix sub i n).objWins = d.objWins := rfl
@[simp] theorem addO_tblWins (d : Dev) (ix sub i n : Nat) : (d.addO ix sub i n).tblWins = d.tblWins := rfl
@[simp] theorem addO_sess (d : Dev) (ix sub i n : Nat) : (d.addO ix sub i n).sess = d.sess := rfl
@[simp] theorem addO_uopRate (d : Dev) (ix sub i n : Nat) : (d.addO ix sub i n).uopRate = d.uopRate := rfl
@[simp] theorem addO_uopDrops (d : Dev) (ix sub i n : Nat) : (d.addO ix sub i n).uopDrops = d.uopDrops := rfl
@[simp] theorem addO_lists (d : Dev) (ix sub i n : Nat) : (d.addO ix sub i n).lists = d.lists := rfl
@[simp] theorem addO_ev (d : Dev) (ix sub i n : Nat) : (d.addO ix sub i n).ev = d.ev := rfl
@[simp] theorem addO_host (d : Dev) (ix sub i n : Nat) : (d.addO ix sub i n).host = d.host := rfl
@[simp] theorem addO_yard (d : Dev) (ix sub i n : Nat) : (d.addO ix sub i n).yard = d.yard := rfl
@[simp] theorem addO_eg (d : Dev) (ix sub i n : Nat) : (d.addO ix sub i n).eg = d.eg := rfl
@[simp] theorem addO_ports (d : Dev) (ix sub i n : Nat) : (d.addO ix sub i n).ports = d.ports := rfl
@[simp] theorem addO_lanes (d : Dev) (ix sub i n : Nat) : (d.addO ix sub i n).lanes = d.lanes := rfl
@[simp] theorem addO_time (d : Dev) (ix sub i n : Nat) : (d.addO ix sub i n).time = d.time := rfl
@[simp] theorem addO_plumb (d : Dev) (ix sub i n : Nat) : (d.addO ix sub i n).plumb = d.plumb := rfl
@[simp] theorem addO_bays (d : Dev) (ix sub i n : Nat) : (d.addO ix sub i n).bays = d.bays := rfl
@[simp] theorem addO_flow (d : Dev) (ix sub i n : Nat) : (d.addO ix sub i n).flow = d.flow := rfl
@[simp] theorem addO_dram (d : Dev) (ix sub i n : Nat) : (d.addO ix sub i n).dram = d.dram := rfl
@[simp] theorem addO_joinery (d : Dev) (ix sub i n : Nat) : (d.addO ix sub i n).joinery = d.joinery := rfl
@[simp] theorem addO_mon (d : Dev) (ix sub i n : Nat) : (d.addO ix sub i n).mon = d.mon := rfl
@[simp] theorem addO_sec (d : Dev) (ix sub i n : Nat) : (d.addO ix sub i n).sec = d.sec := rfl
@[simp] theorem addO_inputs (d : Dev) (ix sub i n : Nat) : (d.addO ix sub i n).inputs = d.inputs := rfl
@[simp] theorem addO_power (d : Dev) (ix sub i n : Nat) : (d.addO ix sub i n).power = d.power := rfl
@[simp] theorem addO_free (d : Dev) (ix sub i n : Nat) : (d.addO ix sub i n).free = d.free := rfl
@[simp] theorem addO_out (d : Dev) (ix sub i n : Nat) : (d.addO ix sub i n).out = d.out := rfl

end Sys2Proof.Machine
end

