-- ==== Sys2Proof/Laws/Raise.lean ====
section
/-! SUPPORT. The frame of a raise: what raising an event leaves as it was, under the per-code limit of R478 or without it. -/

namespace Sys2Proof.Machine

/-- Two devices agree but for the event messages, the objects of the event sources, and the occupancy of the message pools. -/
def Dev.eventsOnly (d e : Dev) : Prop :=
  (∀ ix sub i, ix ≠ 0x6400 → ix ≠ 0x4302 → e.o ix sub i = d.o ix sub i) ∧ { e with objs := d.objs, ev := d.ev } = d

theorem eventsOnly_refl (d : Dev) : d.eventsOnly d := ⟨fun _ _ _ _ _ => rfl, rfl⟩

theorem eventsOnly_trans {d e f : Dev} (h : d.eventsOnly e) (g : e.eventsOnly f) : d.eventsOnly f := by
  refine ⟨fun ix sub i a b => (g.1 ix sub i a b).trans (h.1 ix sub i a b), ?_⟩
  rw [← h.2, ← g.2]

theorem eventsOnly_ev (d : Dev) (x : Events) : d.eventsOnly { d with ev := x } := ⟨fun _ _ _ _ _ => rfl, rfl⟩

theorem eventsOnly_setO (d : Dev) (ix sub i v : Nat) (h : ix = 0x6400 ∨ ix = 0x4302) : d.eventsOnly (d.setO ix sub i v) := by
  refine ⟨fun ix' sub' i' a b => ?_, rfl⟩
  rw [o_setO, if_neg]
  rintro ⟨e, _, _⟩
  rcases h with h | h <;> simp_all

theorem eventsOnly_addO (d : Dev) (ix sub i n : Nat) (h : ix = 0x6400 ∨ ix = 0x4302) : d.eventsOnly (d.addO ix sub i n) :=
  eventsOnly_setO d ix sub i _ h

theorem eventsOnly_poolTake (d : Dev) (i n : Nat) : d.eventsOnly (d.poolTake i n) := by
  unfold Dev.poolTake
  dsimp only
  split
  · exact eventsOnly_trans (eventsOnly_setO d _ _ _ _ (.inr rfl)) (eventsOnly_setO _ _ _ _ _ (.inr rfl))
  · exact eventsOnly_setO d _ _ _ _ (.inr rfl)

theorem sendMsg_eventsOnly (c : Clock) (d : Dev) (m : EvMsg) : d.eventsOnly (M.at (sendMsg m) c d).2 := by
  unfold sendMsg
  simp only [at_get_bind]
  split
  · simp only [at_incO_bind, at_ite, at_modify, at_pure]
    refine eventsOnly_trans (e := d.addO 0x6400 6 m.src 1) (eventsOnly_addO d _ _ _ _ (.inl rfl)) ?_
    split
    · exact eventsOnly_ev _ _
    · exact eventsOnly_refl _
  · simp only [at_ite, at_set]
    split
    · exact eventsOnly_trans (eventsOnly_poolTake d _ _) (eventsOnly_ev _ _)
    · exact eventsOnly_ev _ _

/-- The source limiter changes the event side alone, whatever it answers. -/
theorem passLimiter_eventsOnly (c : Clock) (d : Dev) (m : EvMsg) : d.eventsOnly (M.at (passLimiter m) c d).2 := by
  unfold passLimiter
  simp only [at_ite, at_get_bind, at_runNow_bind, at_set_bind, at_pure, at_modify_bind, at_incO_bind]
  split
  · exact eventsOnly_refl d
  · split
    · exact eventsOnly_ev d _
    · exact eventsOnly_trans (eventsOnly_ev d _) (eventsOnly_trans (eventsOnly_addO _ _ _ _ _ (.inl rfl)) (eventsOnly_ev _ _))

theorem limitAndSend_eventsOnly (c : Clock) (d : Dev) (m : EvMsg) : d.eventsOnly (M.at (limitAndSend m) c d).2 := by
  unfold limitAndSend
  simp only [at_bind, at_ite, at_pure]
  refine eventsOnly_trans (passLimiter_eventsOnly c d m) ?_
  split
  · exact sendMsg_eventsOnly c _ m
  · exact eventsOnly_refl _

theorem raise1_eventsOnly (c : Clock) (d : Dev) (src code sev : Nat) : d.eventsOnly (d.raise1 c src code sev) := by
  unfold Dev.raise1
  exact eventsOnly_trans (eventsOnly_trans (eventsOnly_trans (eventsOnly_addO d _ _ _ _ (.inl rfl)) (eventsOnly_setO _ _ _ _ _ (.inl rfl)))
    (eventsOnly_setO _ _ _ _ _ (.inl rfl))) (eventsOnly_setO _ _ _ _ _ (.inl rfl))

/-- A raise changes no more than the event side of the device. -/
theorem raiseEv_eventsOnly (c : Clock) (d : Dev) (src code sev p1 p2 p3 : Nat) :
    d.eventsOnly (M.at (raiseEv src code sev p1 p2 p3) c d).2 := by
  unfold raiseEv
  simp only [at_ite, at_read_bind, at_modify_bind, at_get_bind, at_pure]
  split
  · exact eventsOnly_refl d
  · split
    · exact eventsOnly_trans (raise1_eventsOnly c d src code sev) (limitAndSend_eventsOnly c _ _)
    · exact raise1_eventsOnly c d src code sev

/-- A message that passes the limiter is sent, and its limit begins. -/
theorem sendLim_eventsOnly (c : Clock) (d : Dev) (m : EvMsg) (l : List CodeLimit) :
    d.eventsOnly (M.at (do
      if ← passLimiter m then
        modify fun d => if d.takesMsg m then { d with ev.limits := l } else d
        sendMsg m) c d).2 := by
  rw [at_bind]
  refine eventsOnly_trans (passLimiter_eventsOnly c d m) ?_
  rw [at_ite]
  split
  · rw [at_modify_bind]
    refine eventsOnly_trans ?_ (sendMsg_eventsOnly c _ m)
    split
    · exact eventsOnly_ev _ _
    · exact eventsOnly_refl _
  · exact eventsOnly_refl _

/-- Nor does a raise under a limit of its code. -/
theorem raiseLim_eventsOnly (c : Clock) (d : Dev) (src code sev inst p1 p2 p3 pos : Nat) :
    d.eventsOnly (M.at (raiseLim src code sev inst p1 p2 p3 pos) c d).2 := by
  unfold raiseLim
  simp only [at_ite, at_read_bind, at_modify_bind, at_get_bind, at_pure, at_set]
  split
  · exact eventsOnly_refl d
  · split
    · refine eventsOnly_trans (raise1_eventsOnly c d src code sev) ?_
      repeat' split
      all_goals first
        | exact eventsOnly_ev _ _
        | exact sendLim_eventsOnly c _ _ _
    · exact raise1_eventsOnly c d src code sev

section
variable (c : Clock) (d : Dev) (src code sev p1 p2 p3 inst pos : Nat)

theorem raiseEv_o (ix sub i : Nat) (h : ix ≠ 0x6400) (h2 : ix ≠ 0x4302) :
    (M.at (raiseEv src code sev p1 p2 p3) c d).2.o ix sub i = d.o ix sub i := (raiseEv_eventsOnly c d src code sev p1 p2 p3).1 ix sub i h h2

theorem raiseLim_o (ix sub i : Nat) (h : ix ≠ 0x6400) (h2 : ix ≠ 0x4302) :
    (M.at (raiseLim src code sev inst p1 p2 p3 pos) c d).2.o ix sub i = d.o ix sub i :=
  (raiseLim_eventsOnly c d src code sev inst p1 p2 p3 pos).1 ix sub i h h2

@[simp] theorem raiseEv_tbls : (M.at (raiseEv src code sev p1 p2 p3) c d).2.tbls = d.tbls := by
  have h := congrArg Dev.tbls (raiseEv_eventsOnly c d src code sev p1 p2 p3).2; exact h
@[simp] theorem raiseEv_dict : (M.at (raiseEv src code sev p1 p2 p3) c d).2.dict = d.dict := by
  have h := congrArg Dev.dict (raiseEv_eventsOnly c d src code sev p1 p2 p3).2; exact h
@[simp] theorem raiseEv_objWins : (M.at (raiseEv src code sev p1 p2 p3) c d).2.objWins = d.objWins := by
  have h := congrArg Dev.objWins (raiseEv_eventsOnly c d src code sev p1 p2 p3).2; exact h
@[simp] theorem raiseEv_tblWins : (M.at (raiseEv src code sev p1 p2 p3) c d).2.tblWins = d.tblWins := by
  have h := congrArg Dev.tblWins (raiseEv_eventsOnly c d src code sev p1 p2 p3).2; exact h
@[simp] theorem raiseEv_sess : (M.at (raiseEv src code sev p1 p2 p3) c d).2.sess = d.sess := by
  have h := congrArg Dev.sess (raiseEv_eventsOnly c d src code sev p1 p2 p3).2; exact h
@[simp] theorem raiseEv_uopRate : (M.at (raiseEv src code sev p1 p2 p3) c d).2.uopRate = d.uopRate := by
  have h := congrArg Dev.uopRate (raiseEv_eventsOnly c d src code sev p1 p2 p3).2; exact h
@[simp] theorem raiseEv_uopDrops : (M.at (raiseEv src code sev p1 p2 p3) c d).2.uopDrops = d.uopDrops := by
  have h := congrArg Dev.uopDrops (raiseEv_eventsOnly c d src code sev p1 p2 p3).2; exact h
@[simp] theorem raiseEv_lists : (M.at (raiseEv src code sev p1 p2 p3) c d).2.lists = d.lists := by
  have h := congrArg Dev.lists (raiseEv_eventsOnly c d src code sev p1 p2 p3).2; exact h
@[simp] theorem raiseEv_host : (M.at (raiseEv src code sev p1 p2 p3) c d).2.host = d.host := by
  have h := congrArg Dev.host (raiseEv_eventsOnly c d src code sev p1 p2 p3).2; exact h
@[simp] theorem raiseEv_yard : (M.at (raiseEv src code sev p1 p2 p3) c d).2.yard = d.yard := by
  have h := congrArg Dev.yard (raiseEv_eventsOnly c d src code sev p1 p2 p3).2; exact h
@[simp] theorem raiseEv_eg : (M.at (raiseEv src code sev p1 p2 p3) c d).2.eg = d.eg := by
  have h := congrArg Dev.eg (raiseEv_eventsOnly c d src code sev p1 p2 p3).2; exact h
@[simp] theorem raiseEv_ports : (M.at (raiseEv src code sev p1 p2 p3) c d).2.ports = d.ports := by
  have h := congrArg Dev.ports (raiseEv_eventsOnly c d src code sev p1 p2 p3).2; exact h
@[simp] theorem raiseEv_lanes : (M.at (raiseEv src code sev p1 p2 p3) c d).2.lanes = d.lanes := by
  have h := congrArg Dev.lanes (raiseEv_eventsOnly c d src code sev p1 p2 p3).2; exact h
@[simp] theorem raiseEv_time : (M.at (raiseEv src code sev p1 p2 p3) c d).2.time = d.time := by
  have h := congrArg Dev.time (raiseEv_eventsOnly c d src code sev p1 p2 p3).2; exact h
@[simp] theorem raiseEv_plumb : (M.at (raiseEv src code sev p1 p2 p3) c d).2.plumb = d.plumb := by
  have h := congrArg Dev.plumb (raiseEv_eventsOnly c d src code sev p1 p2 p3).2; exact h
@[simp] theorem raiseEv_bays : (M.at (raiseEv src code sev p1 p2 p3) c d).2.bays = d.bays := by
  have h := congrArg Dev.bays (raiseEv_eventsOnly c d src code sev p1 p2 p3).2; exact h
@[simp] theorem raiseEv_flow : (M.at (raiseEv src code sev p1 p2 p3) c d).2.flow = d.flow := by
  have h := congrArg Dev.flow (raiseEv_eventsOnly c d src code sev p1 p2 p3).2; exact h
@[simp] theorem raiseEv_dram : (M.at (raiseEv src code sev p1 p2 p3) c d).2.dram = d.dram := by
  have h := congrArg Dev.dram (raiseEv_eventsOnly c d src code sev p1 p2 p3).2; exact h
@[simp] theorem raiseEv_joinery : (M.at (raiseEv src code sev p1 p2 p3) c d).2.joinery = d.joinery := by
  have h := congrArg Dev.joinery (raiseEv_eventsOnly c d src code sev p1 p2 p3).2; exact h
@[simp] theorem raiseEv_mon : (M.at (raiseEv src code sev p1 p2 p3) c d).2.mon = d.mon := by
  have h := congrArg Dev.mon (raiseEv_eventsOnly c d src code sev p1 p2 p3).2; exact h
@[simp] theorem raiseEv_sec : (M.at (raiseEv src code sev p1 p2 p3) c d).2.sec = d.sec := by
  have h := congrArg Dev.sec (raiseEv_eventsOnly c d src code sev p1 p2 p3).2; exact h
@[simp] theorem raiseEv_inputs : (M.at (raiseEv src code sev p1 p2 p3) c d).2.inputs = d.inputs := by
  have h := congrArg Dev.inputs (raiseEv_eventsOnly c d src code sev p1 p2 p3).2; exact h
@[simp] theorem raiseEv_power : (M.at (raiseEv src code sev p1 p2 p3) c d).2.power = d.power := by
  have h := congrArg Dev.power (raiseEv_eventsOnly c d src code sev p1 p2 p3).2; exact h
@[simp] theorem raiseEv_free : (M.at (raiseEv src code sev p1 p2 p3) c d).2.free = d.free := by
  have h := congrArg Dev.free (raiseEv_eventsOnly c d src code sev p1 p2 p3).2; exact h
@[simp] theorem raiseEv_out : (M.at (raiseEv src code sev p1 p2 p3) c d).2.out = d.out := by
  have h := congrArg Dev.out (raiseEv_eventsOnly c d src code sev p1 p2 p3).2; exact h
@[simp] theorem raiseLim_tbls : (M.at (raiseLim src code sev inst p1 p2 p3 pos) c d).2.tbls = d.tbls := by
  have h := congrArg Dev.tbls (raiseLim_eventsOnly c d src code sev inst p1 p2 p3 pos).2; exact h
@[simp] theorem raiseLim_dict : (M.at (raiseLim src code sev inst p1 p2 p3 pos) c d).2.dict = d.dict := by
  have h := congrArg Dev.dict (raiseLim_eventsOnly c d src code sev inst p1 p2 p3 pos).2; exact h
@[simp] theorem raiseLim_objWins : (M.at (raiseLim src code sev inst p1 p2 p3 pos) c d).2.objWins = d.objWins := by
  have h := congrArg Dev.objWins (raiseLim_eventsOnly c d src code sev inst p1 p2 p3 pos).2; exact h
@[simp] theorem raiseLim_tblWins : (M.at (raiseLim src code sev inst p1 p2 p3 pos) c d).2.tblWins = d.tblWins := by
  have h := congrArg Dev.tblWins (raiseLim_eventsOnly c d src code sev inst p1 p2 p3 pos).2; exact h
@[simp] theorem raiseLim_sess : (M.at (raiseLim src code sev inst p1 p2 p3 pos) c d).2.sess = d.sess := by
  have h := congrArg Dev.sess (raiseLim_eventsOnly c d src code sev inst p1 p2 p3 pos).2; exact h
@[simp] theorem raiseLim_uopRate : (M.at (raiseLim src code sev inst p1 p2 p3 pos) c d).2.uopRate = d.uopRate := by
  have h := congrArg Dev.uopRate (raiseLim_eventsOnly c d src code sev inst p1 p2 p3 pos).2; exact h
@[simp] theorem raiseLim_uopDrops : (M.at (raiseLim src code sev inst p1 p2 p3 pos) c d).2.uopDrops = d.uopDrops := by
  have h := congrArg Dev.uopDrops (raiseLim_eventsOnly c d src code sev inst p1 p2 p3 pos).2; exact h
@[simp] theorem raiseLim_lists : (M.at (raiseLim src code sev inst p1 p2 p3 pos) c d).2.lists = d.lists := by
  have h := congrArg Dev.lists (raiseLim_eventsOnly c d src code sev inst p1 p2 p3 pos).2; exact h
@[simp] theorem raiseLim_host : (M.at (raiseLim src code sev inst p1 p2 p3 pos) c d).2.host = d.host := by
  have h := congrArg Dev.host (raiseLim_eventsOnly c d src code sev inst p1 p2 p3 pos).2; exact h
@[simp] theorem raiseLim_yard : (M.at (raiseLim src code sev inst p1 p2 p3 pos) c d).2.yard = d.yard := by
  have h := congrArg Dev.yard (raiseLim_eventsOnly c d src code sev inst p1 p2 p3 pos).2; exact h
@[simp] theorem raiseLim_eg : (M.at (raiseLim src code sev inst p1 p2 p3 pos) c d).2.eg = d.eg := by
  have h := congrArg Dev.eg (raiseLim_eventsOnly c d src code sev inst p1 p2 p3 pos).2; exact h
@[simp] theorem raiseLim_ports : (M.at (raiseLim src code sev inst p1 p2 p3 pos) c d).2.ports = d.ports := by
  have h := congrArg Dev.ports (raiseLim_eventsOnly c d src code sev inst p1 p2 p3 pos).2; exact h
@[simp] theorem raiseLim_lanes : (M.at (raiseLim src code sev inst p1 p2 p3 pos) c d).2.lanes = d.lanes := by
  have h := congrArg Dev.lanes (raiseLim_eventsOnly c d src code sev inst p1 p2 p3 pos).2; exact h
@[simp] theorem raiseLim_time : (M.at (raiseLim src code sev inst p1 p2 p3 pos) c d).2.time = d.time := by
  have h := congrArg Dev.time (raiseLim_eventsOnly c d src code sev inst p1 p2 p3 pos).2; exact h
@[simp] theorem raiseLim_plumb : (M.at (raiseLim src code sev inst p1 p2 p3 pos) c d).2.plumb = d.plumb := by
  have h := congrArg Dev.plumb (raiseLim_eventsOnly c d src code sev inst p1 p2 p3 pos).2; exact h
@[simp] theorem raiseLim_bays : (M.at (raiseLim src code sev inst p1 p2 p3 pos) c d).2.bays = d.bays := by
  have h := congrArg Dev.bays (raiseLim_eventsOnly c d src code sev inst p1 p2 p3 pos).2; exact h
@[simp] theorem raiseLim_flow : (M.at (raiseLim src code sev inst p1 p2 p3 pos) c d).2.flow = d.flow := by
  have h := congrArg Dev.flow (raiseLim_eventsOnly c d src code sev inst p1 p2 p3 pos).2; exact h
@[simp] theorem raiseLim_dram : (M.at (raiseLim src code sev inst p1 p2 p3 pos) c d).2.dram = d.dram := by
  have h := congrArg Dev.dram (raiseLim_eventsOnly c d src code sev inst p1 p2 p3 pos).2; exact h
@[simp] theorem raiseLim_joinery : (M.at (raiseLim src code sev inst p1 p2 p3 pos) c d).2.joinery = d.joinery := by
  have h := congrArg Dev.joinery (raiseLim_eventsOnly c d src code sev inst p1 p2 p3 pos).2; exact h
@[simp] theorem raiseLim_mon : (M.at (raiseLim src code sev inst p1 p2 p3 pos) c d).2.mon = d.mon := by
  have h := congrArg Dev.mon (raiseLim_eventsOnly c d src code sev inst p1 p2 p3 pos).2; exact h
@[simp] theorem raiseLim_sec : (M.at (raiseLim src code sev inst p1 p2 p3 pos) c d).2.sec = d.sec := by
  have h := congrArg Dev.sec (raiseLim_eventsOnly c d src code sev inst p1 p2 p3 pos).2; exact h
@[simp] theorem raiseLim_inputs : (M.at (raiseLim src code sev inst p1 p2 p3 pos) c d).2.inputs = d.inputs := by
  have h := congrArg Dev.inputs (raiseLim_eventsOnly c d src code sev inst p1 p2 p3 pos).2; exact h
@[simp] theorem raiseLim_power : (M.at (raiseLim src code sev inst p1 p2 p3 pos) c d).2.power = d.power := by
  have h := congrArg Dev.power (raiseLim_eventsOnly c d src code sev inst p1 p2 p3 pos).2; exact h
@[simp] theorem raiseLim_free : (M.at (raiseLim src code sev inst p1 p2 p3 pos) c d).2.free = d.free := by
  have h := congrArg Dev.free (raiseLim_eventsOnly c d src code sev inst p1 p2 p3 pos).2; exact h
@[simp] theorem raiseLim_out : (M.at (raiseLim src code sev inst p1 p2 p3 pos) c d).2.out = d.out := by
  have h := congrArg Dev.out (raiseLim_eventsOnly c d src code sev inst p1 p2 p3 pos).2; exact h
end

end Sys2Proof.Machine
end

