-- ==== Sys2Proof/Laws/Windows.lean ====
section
/-! SUPPORT. What a write or a read through a window does, once it has passed its checks. -/

namespace Sys2Proof.Machine

/-- The row of a write that no check refuses is the dictionary's. -/
theorem writeCheck_row (d : Dev) (pl key : Nat) (data : Bytes) (r : ObjRow) (h : d.writeCheck pl key data = .ok r) :
    rowOf (keyIndex key) (keySub key) = some r := by
  unfold Dev.writeCheck at h
  split at h
  · cases h
  · split at h
    · cases h
    · rename_i r' hl
      have : r' = r := by
        split at h
        · cases h
        split at h
        · cases h
        split at h
        · cases h
        split at h
        · cases h
        · injection h
      subst this
      unfold Dev.locate at hl
      simp only at hl
      split at hl
      · cases hl
      split at hl
      · cases hl
      split at hl
      · cases hl
      · rename_i r2 hr
        split at hl
        · cases hl
        split at hl
        · cases hl
        · injection hl with e; rw [hr, e]

/-- A write that no check refuses, before and after the requests that go first where it is one to a table manager (R184, R192). -/
theorem at_objWrite (d : Dev) (c : Clock) (pl key : Nat) (core : Option Nat) (data : Bytes) (fail : List Nat) (r r' : ObjRow)
    (h : d.writeCheck pl key data = .ok r) (h' : (d.after c (managerFirst key)).writeCheck pl key data = .ok r') :
   M.at (objWrite pl core key data fail) c d = M.at (if r.staged then stagedWrite pl key (ofBytes data)
    else if r.pegged then peggedWrite pl key (ofBytes data) fail
    else if r.acc = .w1c then clearWrite key (ofBytes data)
    else plainWrite pl core key (ofBytes data) fail) c (d.after c (managerFirst key)) := by
  rw [after_eq] at h'
  simp only [objWrite, at_bind, at_get, h, h', after_eq]

/-- Requests go first only where the object is the table managers'. -/
theorem managerFirst_pure (key : Nat) (h : baysObject (keyIndex key) = false) (h' : keyIndex key ≠ 0x3430) : managerFirst key = pure () := by
  simp [managerFirst, h, h']

/-- A window write that passes every check, of an object that no table manager holds, does what the object's write does, with its status. -/
theorem winWriteFail_ok (s : State) (w key : Nat) (data : Bytes) (fail : List Nat) (r : ObjRow)
    (h : s.writable w key data) (hr : rowOf (keyIndex key) (keySub key) = some r)
    (hb : baysObject (keyIndex key) = false) (hb' : keyIndex key ≠ 0x3430) :
    s.dev.after s.clk (winWriteFail w key data fail) = 
     (let x := M.at (if r.staged then stagedWrite (w/4) key (ofBytes data)
    else if r.pegged then peggedWrite (w/4) key (ofBytes data) fail
    else if r.acc = .w1c then clearWrite key (ofBytes data)
    else plainWrite (w/4) none key (ofBytes data) fail) s.clk (s.dev.winBegin w data)
      x.2.winEnd w key (owCtrl 2 data.length) x.1 []) := by
  obtain ⟨h1, h2, h3, r', h4⟩ := h
  have := writeCheck_row _ _ _ _ _ h4
  rw [hr] at this; cases this
  have hm := managerFirst_pure key hb hb'
  have h5 : ((s.dev.winBegin w data).after s.clk (managerFirst key)).writeCheck (w / 4) key data = .ok r := by
    rw [hm, after_eq, at_pure]; exact h4
  simp only [after_eq, winWriteFail, winRun, h1, h2, Nat.not_lt.mpr h3, if_true, if_false, at_bind, at_get, at_modify, at_pure,
    at_objWrite _ _ _ _ _ _ _ _ _ h4 h5, hm]

/-- The same for a write of a number. -/
theorem winPut_ok (s : State) (w ix sub i n v : Nat) (r : ObjRow) (h : s.writable w (okey ix sub i) (toBytes n v))
    (hr : rowOf ix (sub % 256) = some r) (hb : baysObject ix = false) (hb' : ix ≠ 0x3430) :
    s.dev.after s.clk (winPut w ix sub i n v) =
      (let key := okey ix sub i
       let x := M.at (if r.staged then stagedWrite (w / 4) key (ofBytes (toBytes n v))
         else if r.pegged then peggedWrite (w / 4) key (ofBytes (toBytes n v)) []
         else if r.acc = .w1c then clearWrite key (ofBytes (toBytes n v))
         else plainWrite (w / 4) none key (ofBytes (toBytes n v)) []) s.clk (s.dev.winBegin w (toBytes n v))
       x.2.winEnd w key (owCtrl 2 (toBytes n v).length) x.1 []) :=
  winWriteFail_ok s w _ _ [] r h (by rw [keyIndex_okey, keySub_okey]; exact hr) (by rw [keyIndex_okey]; exact hb)
    (by rw [keyIndex_okey]; exact hb')

theorem toBytes_length (n x : Nat) : (toBytes n x).length = n := by
  induction n with
  | zero => rfl
  | succ n ih => simp [toBytes, ih]

theorem foldl_bytes (b : Bytes) (a : Nat) : b.foldl (fun a x => a * 256 + x.toNat) a = a * 256 ^ b.length + ofBytes b := by
  unfold ofBytes
  induction b generalizing a with
  | nil => simp
  | cons x r ih =>
    simp only [List.foldl_cons, List.length_cons]
    rw [ih, ih (0 * 256 + x.toNat), Nat.pow_succ, Nat.add_mul, Nat.mul_assoc, Nat.mul_comm 256]
    simp only [Nat.zero_mul, Nat.zero_add]; omega

theorem ofBytes_cons (x : BitVec 8) (r : Bytes) : ofBytes (x :: r) = x.toNat * 256 ^ r.length + ofBytes r := by
  show List.foldl _ (0 * 256 + x.toNat) r = _
  rw [foldl_bytes]; simp

/-- The number that the octets of a number spell. -/
theorem ofBytes_toBytes (n x : Nat) : ofBytes (toBytes n x) = x % 256 ^ n := by
  induction n with
  | zero => simp [toBytes, ofBytes, Nat.mod_one]
  | succ n ih =>
    rw [toBytes, ofBytes_cons, ih, toBytes_length]
    have h : (256 : Nat) ^ n = 2 ^ (8 * n) := by rw [Nat.pow_mul]
    rw [BitVec.toNat_ofNat, Nat.shiftRight_eq_div_pow, ← h, Nat.pow_succ 256 n, Nat.mod_mul (a := 256 ^ n) (b := 256),
      Nat.mul_comm (256 ^ n) (x / 256 ^ n % 256)]
    show _ * _ + _ = _ + _
    rw [show (2 : Nat) ^ 8 = 256 from rfl]; omega

/-- The checks of a write, as one Boolean. -/
def State.canWrite (s : State) (w key : Nat) (data : Bytes) : Bool :=
  s.dev.pcieUp && s.dev.hostOk (w / 4) && decide (data.length ≤ 256) &&
    (match (s.dev.winBegin w data).writeCheck (w / 4) key data with | .ok _ => true | .error _ => false)

theorem writable_of (s : State) (w key : Nat) (data : Bytes) (h : s.canWrite w key data = true) : s.writable w key data := by
  simp only [State.canWrite, Bool.and_eq_true, decide_eq_true_eq] at h
  obtain ⟨⟨⟨h1, h2⟩, h3⟩, h4⟩ := h
  refine ⟨h1, h2, h3, ?_⟩
  split at h4
  · exact ⟨_, ‹_›⟩
  · cases h4

/-- A list of writes that pass. -/
theorem writable_all (l : List (State × Nat × Nat × Bytes)) (h : l.all (fun x => x.1.canWrite x.2.1 x.2.2.1 x.2.2.2) = true) :
    ∀ x ∈ l, x.1.writable x.2.1 x.2.2.1 x.2.2.2 := fun x hx =>
  writable_of _ _ _ _ (List.all_eq_true.mp h x hx)

end Sys2Proof.Machine
end

