-- ==== Sys2Proof/Laws/Slh.lean ====
section
/-! SUPPORT. SLH-DSA-SHAKE-256s (R421, R438, R440): a signature that the seed of a key makes verifies under that key. -/

namespace Sys2Proof
open Sys2Proof.Machine

/-! ### Octet strings and hashes -/

theorem slice_append_right (a b : Bytes) (o n : Nat) : slice (a ++ b) (a.length + o) n = slice b o n := by
  simp only [slice, List.drop_append, List.drop_eq_nil_of_le (Nat.le_add_right a.length o), List.nil_append, Nat.add_sub_cancel_left]

theorem slice_append_left (a b : Bytes) (o n : Nat) (h : o + n ≤ a.length) : slice (a ++ b) o n = slice a o n := by
  simp only [slice, List.drop_append, show o - a.length = 0 by omega, List.drop_zero]
  rw [List.take_append_of_le_length (by simp; omega)]

theorem slice_all (a b : Bytes) (n : Nat) (h : a.length = n) : slice (a ++ b) 0 n = a := by
  subst h; simp [slice]

theorem slice_blocks (l : List Bytes) (r : Bytes) (h : ∀ x ∈ l, x.length = 32) (i : Nat) (hi : i < l.length) :
    slice (l.flatten ++ r) (32 * i) 32 = l[i] := by
  induction l generalizing i with
  | nil => simp at hi
  | cons x l ih =>
    have hx := h x (by simp)
    cases i with
    | zero => simp only [List.flatten_cons, List.append_assoc]; exact slice_all _ _ _ hx
    | succ i =>
      have := slice_append_right x (l.flatten ++ r) (32 * i) 32
      rw [hx] at this
      simp only [List.flatten_cons, List.append_assoc, show 32 * (i + 1) = 32 + 32 * i by omega, this, List.getElem_cons_succ]
      exact ih (fun y hy => h y (by simp [hy])) i (by simpa using hi)

theorem flatten_blocks (l : List Bytes) (n : Nat) (h : ∀ x ∈ l, x.length = n) : l.flatten.length = n * l.length := by
  induction l with
  | nil => simp
  | cons x l ih =>
    simp only [List.flatten_cons, List.length_append, List.length_cons, h x (by simp), ih (fun y hy => h y (by simp [hy])), Nat.mul_succ]
    omega

theorem pow_octets (n : Nat) : (256 : Nat) ^ n = 2 ^ (8 * n) := by rw [Nat.pow_mul]

theorem toBytes_add_mul (n o k : Nat) : toBytes n (o + k * 256 ^ n) = toBytes n o := by
  induction n generalizing k with
  | zero => rfl
  | succ n ih =>
    have e : o + k * 256 ^ (n + 1) = o + (k * 256) * 256 ^ n := by rw [Nat.pow_succ, Nat.mul_assoc, Nat.mul_comm 256]
    rw [e, toBytes, toBytes, ih, Nat.shiftRight_eq_div_pow, Nat.shiftRight_eq_div_pow, ← pow_octets, Nat.add_mul_div_right _ _ (Nat.pow_pos (by decide))]
    congr 1
    apply BitVec.eq_of_toNat_eq
    simp only [BitVec.toNat_ofNat]
    omega

theorem ofBytes_lt (b : Bytes) : ofBytes b < 256 ^ b.length := by
  induction b with
  | nil => decide
  | cons x b ih =>
    rw [ofBytes_cons, List.length_cons, Nat.pow_succ]
    have : x.toNat * 256 ^ b.length ≤ 255 * 256 ^ b.length := Nat.mul_le_mul_right _ (by omega)
    omega

theorem toBytes_ofBytes (b : Bytes) (n : Nat) (h : b.length = n) : toBytes n (ofBytes b) = b := by
  subst h
  induction b with
  | nil => rfl
  | cons x b ih =>
    rw [List.length_cons, toBytes, ofBytes_cons, Nat.add_comm, toBytes_add_mul, ih, Nat.shiftRight_eq_div_pow, ← pow_octets,
      Nat.add_mul_div_right _ _ (Nat.pow_pos (by decide)), Nat.div_eq_of_lt (ofBytes_lt b)]
    congr 1
    apply BitVec.eq_of_toNat_eq
    simp only [BitVec.toNat_ofNat, Nat.zero_add]
    omega

theorem keccakF_length (a : List Nat) (h : a.length = 25) : (keccakF a).length = 25 := by
  have : ∀ (l : List Nat) (a : List Nat), a.length = 25 → (l.foldl keccakRound a).length = 25 := by
    intro l
    induction l with
    | nil => exact fun _ h => h
    | cons r l ih => exact fun a _ => ih _ (by simp [keccakRound, List.range_succ])
  exact this _ _ h

theorem absorbAll_length (n : Nat) (a : List Nat) (b : Bytes) (h : a.length = 25) : (absorbAll n a b).length = 25 := by
  induction n generalizing a b with
  | zero => exact h
  | succ n ih => exact ih _ _ (keccakF_length _ (by simp))

theorem squeeze_length (n : Nat) (a : List Nat) (h : a.length = 25) : (squeeze n a).length = 136 * n := by
  induction n generalizing a with
  | zero => rfl
  | succ n ih =>
    have hb : ∀ l : List Nat, (l.flatMap fun x => (toBytes 8 x).reverse).length = 8 * l.length := by
      intro l
      induction l with
      | nil => rfl
      | cons x l ih => simp only [List.flatMap_cons, List.length_append, List.length_reverse, toBytes_length, ih, List.length_cons]; omega
    have : (squeezeBlock a).length = 136 := by rw [squeezeBlock, hb]; simp [h]
    rw [squeeze, List.length_append, this, ih _ (keccakF_length a h)]
    omega

theorem shake256_length (m : Bytes) (n : Nat) : (shake256 m n).length = n := by
  simp only [shake256, sponge, List.length_take]
  rw [squeeze_length _ _ (absorbAll_length _ _ _ (by simp))]
  simp only [ceilDiv]
  omega

theorem slhHash_length (pk : Bytes) (a : Adrs) (m : Bytes) : (slhHash pk a m).length = 32 := shake256_length _ _

/-! ### WOTS+ -/

theorem wotsChain_add (pk : Bytes) (a : Adrs) (s t i : Nat) (x : Bytes) :
    wotsChain pk a t (i + s) (wotsChain pk a s i x) = wotsChain pk a (s + t) i x := by
  induction s generalizing i x with
  | zero => simp [wotsChain]
  | succ s ih =>
    rw [show s + 1 + t = (s + t) + 1 by omega, wotsChain, wotsChain, ← ih, show i + (s + 1) = i + 1 + s by omega]

theorem wotsChain_length (pk : Bytes) (a : Adrs) (s i : Nat) (x : Bytes) (h : x.length = 32) : (wotsChain pk a s i x).length = 32 := by
  induction s generalizing i x with
  | zero => exact h
  | succ s ih => exact ih _ _ (slhHash_length _ _ _)

theorem wotsDigits_length (m : Bytes) : (wotsDigits m).length = 67 := by simp [wotsDigits, slhDigits]

theorem wotsDigits_lt (m : Bytes) : ∀ d ∈ wotsDigits m, d ≤ 15 := by
  intro d h
  simp only [wotsDigits, slhDigits, List.mem_append, List.mem_map] at h
  rcases h with ⟨i, -, rfl⟩ | ⟨i, -, rfl⟩ <;> omega

/-- The parts of a WOTS+ signature. -/
def wotsParts (m sk pk : Bytes) (a : Adrs) : List Bytes :=
  (wotsDigits m).zipIdx.map fun e => wotsChain pk { a with w1 := e.2 } e.1 0 (wotsSecret sk pk a e.2)

theorem wotsParts_length (m sk pk : Bytes) (a : Adrs) : (wotsParts m sk pk a).length = 67 := by simp [wotsParts, wotsDigits_length]

theorem wotsParts_size (m sk pk : Bytes) (a : Adrs) : ∀ x ∈ wotsParts m sk pk a, x.length = 32 := by
  intro x h
  obtain ⟨e, -, rfl⟩ := List.mem_map.1 h
  exact wotsChain_length _ _ _ _ _ (slhHash_length _ _ _)

theorem wotsSign_length (m sk pk : Bytes) (a : Adrs) : (wotsSign m sk pk a).length = 2144 := by
  show (wotsParts m sk pk a).flatten.length = _
  rw [flatten_blocks _ 32 (wotsParts_size m sk pk a), wotsParts_length]

/-- wots_pkFromSig recovers the public key from a signature, whatever stands behind it. -/
theorem wotsFromSig_sign (m sk pk r : Bytes) (a : Adrs) : wotsFromSig (wotsSign m sk pk a ++ r) m pk a = wotsPublic sk pk a := by
  unfold wotsFromSig wotsPublic
  congr 1
  apply List.ext_getElem
  · simp [wotsDigits_length]
  · intro i h1 h2
    have hi : i < 67 := by simpa using h2
    have hd : i < (wotsDigits m).length := by rw [wotsDigits_length]; exact hi
    simp only [List.getElem_map, List.getElem_zipIdx, List.getElem_range, Nat.zero_add]
    have hs : slice (wotsSign m sk pk a ++ r) (32 * i) 32 = wotsChain pk { a with w1 := i } (wotsDigits m)[i] 0 (wotsSecret sk pk a i) := by
      show slice ((wotsParts m sk pk a).flatten ++ r) (32 * i) 32 = _
      rw [slice_blocks _ r (wotsParts_size m sk pk a) i (by rw [wotsParts_length]; exact hi)]
      simp [wotsParts]
    have hb := wotsDigits_lt m _ (List.getElem_mem hd)
    rw [hs]
    have := wotsChain_add pk { a with w1 := i } (wotsDigits m)[i] (15 - (wotsDigits m)[i]) 0 (wotsSecret sk pk a i)
    rw [Nat.zero_add, show (wotsDigits m)[i] + (15 - (wotsDigits m)[i]) = 15 by omega] at this
    exact this

/-! ### XMSS and the hypertree -/

theorem xmssNode_length (sk pk : Bytes) (a : Adrs) (z i : Nat) : (xmssNode sk pk a z i).length = 32 := by
  cases z <;> exact slhHash_length _ _ _

theorem xor_one (q : Nat) : q ^^^ 1 = if q % 2 = 0 then q + 1 else q - 1 := by
  have h1 : (q ^^^ 1) / 2 = q / 2 := by rw [Nat.xor_div_two]; simp
  have h2 : (q ^^^ 1) % 2 = (q % 2) ^^^ 1 := Nat.xor_mod_two_pow (n := 1)
  rcases Nat.mod_two_eq_zero_or_one q with h | h <;> rw [h] at h2
  all_goals simp only [h, Nat.zero_xor, Nat.xor_self] at h2 ⊢
  · simp only [if_true]; omega
  · simp only [if_false, Nat.one_ne_zero]; omega

/-- The authentication path of a leaf leads from its node to the one above it at any height. -/
theorem treeUp_path (sk pk : Bytes) (a : Adrs) (idx n k : Nat) :
    treeUp pk { layer := a.layer, tree := a.tree, type := 2 } ((List.range' k n).map fun j => xmssNode sk pk a j ((idx / 2 ^ j) ^^^ 1)) k (idx / 2 ^ k)
      (xmssNode sk pk a k (idx / 2 ^ k)) = xmssNode sk pk a (k + n) (idx / 2 ^ (k + n)) := by
  induction n generalizing k with
  | zero => rfl
  | succ n ih =>
    rw [List.range'_succ, List.map_cons, treeUp]
    have e : idx / 2 ^ (k + 1) = idx / 2 ^ k / 2 := by rw [Nat.div_div_eq_div_mul, Nat.pow_succ]
    have step : ∀ q, slhHash pk { layer := a.layer, tree := a.tree, type := 2, w1 := k + 1, w2 := q / 2 }
        (if q % 2 = 0 then xmssNode sk pk a k q ++ xmssNode sk pk a k (q ^^^ 1)
          else xmssNode sk pk a k (q ^^^ 1) ++ xmssNode sk pk a k q) = xmssNode sk pk a (k + 1) (q / 2) := by
      intro q
      rw [xmssNode, xor_one]
      split
      · rw [show 2 * (q / 2) = q by omega]
      · rw [show 2 * (q / 2) = q - 1 by omega, show q - 1 + 1 = q by omega]
    have := ih (k + 1)
    rw [show k + 1 + n = k + (n + 1) by omega, e, ← step (idx / 2 ^ k)] at this
    exact this

theorem path_size (sk pk : Bytes) (a : Adrs) (idx n : Nat) :
    ∀ x ∈ (List.range n).map (fun j => xmssNode sk pk a j ((idx / 2 ^ j) ^^^ 1)), x.length = 32 := by
  intro x h
  obtain ⟨j, -, rfl⟩ := List.mem_map.1 h
  exact xmssNode_length _ _ _ _ _

theorem xmssSign_length (m sk pk : Bytes) (idx : Nat) (a : Adrs) : (xmssSign m sk pk idx a).length = 2400 := by
  rw [xmssSign, List.length_append, wotsSign_length, List.flatMap_def, flatten_blocks _ 32 (path_size sk pk a idx 8)]
  simp

/-- xmss_pkFromSig leads to the root of the tree, whatever stands behind the signature. -/
theorem xmssFromSig_sign (m sk pk r : Bytes) (idx : Nat) (a : Adrs) (h : idx < 256) :
    xmssFromSig idx (xmssSign m sk pk idx a ++ r) m pk a = xmssNode sk pk a 8 0 := by
  have parts : slhParts (xmssSign m sk pk idx a ++ r) 2144 8 = (List.range 8).map fun j => xmssNode sk pk a j ((idx / 2 ^ j) ^^^ 1) := by
    apply List.ext_getElem
    · simp [slhParts]
    · intro i h1 h2
      have hi : i < 8 := by simpa using h2
      rw [xmssSign, List.append_assoc]
      have := slice_append_right (wotsSign m sk pk { a with type := 0, kp := idx })
        (((List.range 8).flatMap fun j => xmssNode sk pk a j ((idx / 2 ^ j) ^^^ 1)) ++ r) (32 * i) 32
      rw [wotsSign_length] at this
      simp only [slhParts, List.getElem_map, List.getElem_range, this]
      rw [List.flatMap_def, slice_blocks _ r (path_size sk pk a idx 8) i (by simpa using hi)]
      simp
  have up := treeUp_path sk pk a idx 8 0
  have top : idx / 2 ^ 8 = 0 := Nat.div_eq_of_lt h
  rw [← List.range_eq_range', Nat.pow_zero, Nat.div_one, Nat.zero_add, top] at up
  rw [xmssFromSig, parts]
  rw [show xmssSign m sk pk idx a ++ r = wotsSign m sk pk { a with type := 0, kp := idx } ++
    (((List.range 8).flatMap fun j => xmssNode sk pk a j ((idx / 2 ^ j) ^^^ 1)) ++ r) by rw [xmssSign, List.append_assoc], wotsFromSig_sign]
  exact up

theorem htSign_length (sk pk : Bytes) (n j t l : Nat) (m : Bytes) : (htSign sk pk n j t l m).length = 2400 * n := by
  induction n generalizing j t l m with
  | zero => rfl
  | succ n ih => rw [htSign, List.length_append, xmssSign_length, ih]; omega

/-- A hypertree signature leads to the root of the top tree. -/
theorem htRoot_sign (sk pk : Bytes) (n j t l : Nat) (m : Bytes) (h : l < 256) :
    htRoot pk (n + 1) j t l (htSign sk pk (n + 1) j t l m) m = xmssNode sk pk { layer := j + n, tree := t / 256 ^ n } 8 0 := by
  induction n generalizing j t l m with
  | zero => rw [htSign, htRoot, htRoot, xmssFromSig_sign _ _ _ _ _ _ h]; simp
  | succ n ih =>
    rw [htSign, htRoot, xmssFromSig_sign _ _ _ _ _ _ h]
    have own := xmssFromSig_sign m sk pk [] l { layer := j, tree := t } h
    rw [List.append_nil] at own
    have cut : ∀ b : Bytes, (xmssSign m sk pk l { layer := j, tree := t } ++ b).drop 2400 = b := by
      intro b
      rw [← xmssSign_length m sk pk l { layer := j, tree := t }, List.drop_left]
    simp only [own, cut]
    rw [ih _ _ _ _ (Nat.mod_lt _ (by decide)), Nat.div_div_eq_div_mul, Nat.pow_succ', show j + 1 + n = j + (n + 1) by omega]

/-! ### Signatures -/

theorem forsSign_length (md sk pk : Bytes) (a : Adrs) : (forsSign md sk pk a).length = 10560 := by
  rw [forsSign, List.flatMap_def, flatten_blocks _ 480]
  · simp [slhDigits]
  · intro x h
    obtain ⟨e, -, rfl⟩ := List.mem_map.1 h
    rw [List.length_append, List.flatMap_def, flatten_blocks _ 32]
    · simp [forsSecret, slhHash_length]
    · intro y hy
      obtain ⟨j, -, rfl⟩ := List.mem_map.1 hy
      cases j <;> exact slhHash_length _ _ _

theorem beAt_lt (b : Bytes) (o n : Nat) : beAt b o n < 256 ^ n := by
  unfold beAt
  induction n with
  | zero => exact Nat.one_pos
  | succ n ih =>
    rw [List.range_succ, List.foldl_append, List.foldl_cons, List.foldl_nil, Nat.pow_succ]
    have : byteAt b (o + n) < 256 := (b.getD (o + n) 0#8).isLt
    omega

theorem slhRoot_length (seed : Nat) : (slhRoot seed).length = 32 := xmssNode_length _ _ _ _ _

theorem slhPart_length (seed i : Nat) (h : i < 3) : (slhPart seed i).length = 32 := by
  simp only [slhPart, slice, List.length_take, List.length_drop, toBytes_length]
  omega

/-- The octets of a public key. -/
theorem slhPublic_bytes (seed : Nat) : toBytes 64 (slhPublic seed) = slhPart seed 2 ++ slhRoot seed := by
  rw [slhPublic]
  exact toBytes_ofBytes _ _ (by rw [List.length_append, slhPart_length _ _ (by decide), slhRoot_length])

theorem slhSign_length (seed rand : Nat) (m : Bytes) : (slhSign seed rand m).length = 29792 := by
  rw [slhSign]
  simp only [List.length_append, shake256_length, forsSign_length, htSign_length]

/-- A signature that a seed makes verifies under its public key. -/
theorem slhVerify_sign (seed rand : Nat) (m : Bytes) : slhVerify (slhPublic seed) m (slhSign seed rand m) = true := by
  have len := slhSign_length seed rand m
  rw [slhVerify, slhPublic_bytes, len, slhSign]
  have hp := slhPart_length seed 2 (by decide)
  generalize hr : shake256 (slhPart seed 1 ++ toBytes 32 rand ++ m) 32 = r
  have rl : r.length = 32 := by rw [← hr]; exact shake256_length _ _
  rcases hd : slhDigest r (slhPart seed 2 ++ slhRoot seed) m with ⟨md, tree, leaf⟩
  have ht : tree < 256 ^ 7 := by rw [show tree = (slhDigest r (slhPart seed 2 ++ slhRoot seed) m).2.1 by rw [hd]]; exact beAt_lt _ _ _
  have hl : leaf < 256 := by
    rw [show leaf = (slhDigest r (slhPart seed 2 ++ slhRoot seed) m).2.2 by rw [hd]]; exact (List.getD _ _ _ : BitVec 8).isLt
  generalize hf : forsSign md (slhPart seed 0) (slhPart seed 2) { tree := tree, type := 3, kp := leaf } = f
  have fl : f.length = 10560 := by rw [← hf]; exact forsSign_length _ _ _ _
  have k1 : (slhPart seed 2 ++ slhRoot seed).take 32 = slhPart seed 2 := by rw [← hp, List.take_left]
  have k2 : (slhPart seed 2 ++ slhRoot seed).drop 32 = slhRoot seed := by rw [← hp, List.drop_left]
  simp only [List.append_assoc, k1, k2]
  generalize hh : htSign (slhPart seed 0) (slhPart seed 2) 8 0 tree leaf (forsFromSig f md (slhPart seed 2) { tree := tree, type := 3, kp := leaf }) = h
  have r1 : (r ++ (f ++ h)).take 32 = r := by rw [← rl, List.take_left]
  have r2 : slice (r ++ (f ++ h)) 32 10560 = f := by
    have := slice_append_right r (f ++ h) 0 10560
    rw [rl, Nat.add_zero] at this
    rw [this, slice_all _ _ _ fl]
  have r3 : (r ++ (f ++ h)).drop 10592 = h := by
    rw [show 10592 = (r ++ f).length by rw [List.length_append, rl, fl], ← List.append_assoc, List.drop_left]
  simp only [hf, hh, r1, r2, r3, hd]
  rw [← hh, htRoot_sign _ _ 7 0 tree leaf _ hl, Nat.div_eq_of_lt ht]
  simp [slhRoot]

end Sys2Proof
end

