-- ==== Sys2Proof/Tests/Slice0.lean ====
section
/-! SUPPORT. Tests: ill-formed commands are refused; for every statement with premises, states and operands that meet them (`witness_…`); small
runs of one command against the spec's own values (`test_…`, the rule in the comment). -/

namespace Sys2Proof.Tests
open Sys2Proof Sys2Proof.Machine
set_option Elab.async false

/-! ### Small states -/

/-- A device whose link is up, with the data plane ready. -/
def bare : Dev := { (({} : Dev).setO 0x5401 1 0 5).setO 0x7000 2 0 2 with power := { porst := false } }

def up : State := State.reset.on bare

/-- Objects (index, sub-index, instance, value) set in a state. -/
def withO (s : State) (l : List (Nat × Nat × Nat × Nat)) : State := s.on (l.foldl (fun d x => d.setO x.1 x.2.1 x.2.2.1 x.2.2.2) s.dev)

/-- The host attached; the debug scopes open; core 0 in service. -/
def host : State := withO up [(0x5400, 1, 0, 1)]
def dbg : State := withO up [(0x8000, 5, 0, 7)]
def served : State := withO up [(0x1460, 1, 0, 2)]

/-- A frame in the buffer. -/
def withF (s : State) (f : Frame) : State := s.on { s.dev with yard.frames := oset s.dev.yard.frames f.id (some f) }

/-- A command answers a next state of which `p` holds. -/
def gives (c : Instr) (s : State) (p : State → Bool) : Bool :=
  match exec c s with
  | .next t => p t
  | _ => false

/-! ### Ill-formed commands -/

/-- A command for each bound, one beyond it. -/
def illFormed : List Instr :=
  [.read (.obj 8 0), .read (.half 0 1024), .write (.obj 0 (2 ^ 48)) [], .commit 8, .laneSignalDetect 1024, .fecLockChange 256 true, .stepDelta 0 (2 ^ 64), .refFail 2 0,
   .areaSwap 36 0, .cmPageSwap 256, .ohpFrame 8 [], .pmSecond true 40960, .pgClear 0 (2 ^ 24), .inputStuck 18, .bayTableApply 64, .prismScrubPass 0 [16384],
   .flowAgingPass 2, .poolScanDone 32, .microwordIssue 32 0 0 0 [], .waitEnd 0 16, .residueExpiry 32768, .flushQueue 0 (2 ^ 24), .cellRemap 1572864,
   .poolProducerResume 16, .transmitOpportunity 256 0 0 0 0, .policerWrite 0 5 0 0, .dramRequest 48 0 0, .refreshTick 0 16, .segmentFillDone 0 1536,
   .ringDisable 35, .puntDeliver 0 [], .injectTake 16 [] [] 0, .msixHoldoffExpiry 128, .linkRetrain 6 1, .linkRetrain 1 3, .pcieError 2 0 0,
   .groupComposeWrite 0 (2 ^ 24) 0, .monSample 64 0, .ledgerClear 0 256, .srcLatchClear 0 640 256, .updChunk 0 (2 ^ 24) [], .coreBoot 2, .attSignDone 2 0,
   .dbgLock 0 (2 ^ 24), .crossingStall 680 0, .railSample 13 0 0, .sensorSample 16 0, .sensorSample 0 (2 ^ 31), .smbRailVoltage 13, .dpReady [384],
   .powerUp [131080] [] [] [] [] [] [] [], .tableOpSubmitTimeout 35, .frameReceive 0 0 [] false false 0 3, .microwordIssue 0 0 0 0 [16], .tblFind 32 0 0 false []]

theorem test_ill_formed_refused : illFormed.all (fun c => !c.wf) = true := by decide +kernel

theorem test_ill_formed_faults : (match exec (.coreBoot 2) up with | .fault .noSuchResource => true | _ => false) = true := by decide +kernel

/-! ### Witnesses: the writes that pass every check -/

def put (ix sub i n v : Nat) : State × Nat × Nat × Bytes := (host, 4, okey ix sub i, toBytes n v)
def putH (ix sub i n v : Nat) : State × Nat × Nat × Bytes := (host, 0, okey ix sub i, toBytes n v)

theorem witness_writable : ∀ x ∈
    [put 0x1020 1 0 1 1, put 0x1020 1 0 1 2, put 0x1020 6 0 1 9, put 0x1020 6 0 1 255, putH 0x1140 2 63 32 5, put 0x1420 3 65535 256 7,
     put 0x1420 5 0 1 1, put 0x1420 5 0 1 2, put 0x1420 5 0 1 3, put 0x1420 5 0 1 4, put 0x1430 2 0 1 1, put 0x1430 3 0 1 1, put 0x1450 2 0 32 9,
     put 0x1450 3 1 32 9, put 0x1460 4 1 1 1, put 0x1820 1 0 1 2, put 0x1820 2 0 8 (2 ^ 64 - 1), put 0x2040 6 1023 2 65535, put 0x2400 2 255 1 1,
     put 0x2410 3 255 1 0, put 0x3441 2 0 1 1, putH 0x4060 1 32767 1 1, putH 0x4060 2 255 1 1, put 0x4440 1 16383 4 800000000, put 0x4440 2 1 4 1538,
     put 0x4440 4 1 4 268435455, put 0x5001 4 47 1 1, put 0x6001 1 130815 8 0, put 0x6002 1 0 2 16383, put 0x6002 1 0 2 16384,
     put 0x6002 1 0 2 65535, put 0x6030 1 63 1 1, put 0x6030 2 63 4 0, put 0x6041 6 0 1 1, put 0x6051 5 1 1 1, put 0x6400 3 639 1 15,
     put 0x6420 4 0 1 4, put 0x6420 4 0 1 5, put 0x7000 1 0 1 1, put 0x7000 1 0 1 2, put 0x7000 1 0 1 3, put 0x8000 3 1 1 1, put 0x8000 3 1 1 2,
     (dbg, 4, okey 0x8400 1 511, [1#8]), (dbg, 4, okey 0x8400 1 511, [0#8]), (dbg, 4, okey 0x8400 2 511, [1#8]), (dbg, 4, okey 0x8400 3 511, [1#8]),
     (dbg, 4, okey 0x8400 4 16383, toBytes 8 7), put 0x28C1 1 1023 1 0, put 0x28C1 1 1023 1 1, put 0x28C1 1 1023 1 2, put 0x28C1 1 1023 1 3,
     put 0x28C1 1 1023 1 4, put 0x1801 1 0 8 7, put 0x1801 2 0 10 7, put 0x2820 1 40959 1 1, put 0x2820 4 40959 2 1],
    x.1.writable x.2.1 x.2.2.1 x.2.2.2 := writable_all _ (by decide +kernel)

/-! ### Witnesses: queue, clock, reset, events -/

theorem witness_StepRunsFrontCommand : ({ up with pending := [.hostHeartbeat, .hostDetach] } : State).pending = .hostHeartbeat :: [.hostDetach] := rfl

theorem witness_IdleStepPassesOneNanosecond : up.pending = [] ∧ up.clk.inRange ∧ up.dev.time.freq = 0 :=
  ⟨rfl, by unfold Clock.inRange; decide, rfl⟩

theorem witness_WellFormedCommandsComplete : (Instr.coreBoot 1).wf = true ∧ (Instr.coreBoot 2).wf = false := by decide

theorem witness_OnlyStepsAndResetsMoveClock : gives .hostHeartbeat up (fun _ => true) = true ∧ gives .stepApply up (fun _ => true) = true ∧
    gives (.powerUp [] [] [] [] [] [] [] []) up (fun _ => true) = true ∧ gives .dataPlaneReset up (fun _ => true) = true := by decide +kernel

theorem witness_ClockStaysInRange : up.clk.inRange ∧ (match step up with | .next _ => true | _ => false) = true :=
  ⟨by unfold Clock.inRange; decide, by decide +kernel⟩

theorem witness_SafeQueueDrains : Safe { up with pending := [.hostHeartbeat, .coreBoot 1] } := by unfold Safe; decide

theorem witness_CountersWrapOrSaturate : (findRow 0x2420 1).map (fun r => r.ty.len) = some 8 ∧ (findRow 0x4000 6).map (fun r => r.ty.len) = some 4 := by
  decide +kernel

theorem witness_RaiseCountsLatchesAndNotes : reservedSource 0 = false ∧ reservedSource 637 = false ∧ (withO up [(0x6400, 1, 5, 0)]).dev.oB 0x6400 1 5 = false := by
  decide +kernel

/-- Source 5 holds a message, as R401 lets it. -/
def holding (v : Nat) : State := up.on { up.dev with ev.held := oset up.dev.ev.held 5 (some (mkMsg up.clk up.dev 5 0x2405 v 0 0 0)) }
def limited : State := up.on { up.dev with ev.limits := [⟨0x4001, 3, up.clk.dev, 2⟩] }

theorem witness_MessagesAreQueuedOrSuppressed : oget up.dev.ev.held 5 = none ∧ up.dev.poolRoom 15 1 = true ∧
    (withO up [(0x4302, 1, 15, 2 ^ 20)]).dev.poolRoom 15 1 = false ∧ (oget (holding 1).dev.ev.held 5).isSome = true ∧
    findLimit limited.dev.ev.limits 0x4001 3 = some ⟨0x4001, 3, up.clk.dev, 2⟩ ∧ (up.clk.dev : Int) < (up.clk.dev : Int) + uS ∧ reservedSource 320 = false ∧
    limited.dev.oB 0x6400 1 320 = true := by decide +kernel

/-! ### Witnesses: objects (02) -/

theorem witness_WritesAreCheckedInOrder :
    let chk := fun (s : State) pl key n => match s.dev.writeCheck pl key (List.replicate n 0#8) with | .ok _ => 0 | .error e => e
    chk (withO up [(0x7000, 2, 0, 3)]) 1 (okey 0x2400 2 0) 1 = 0x701 ∧ chk up 1 (okey 0x0FFF 1 0) 1 = 0x101 ∧ chk up 1 (okey 0x2400 0x3F 0) 1 = 0x102 ∧
    chk up 1 (okey 0x2400 2 256) 1 = 0x103 ∧ chk up 1 (okey 0x8400 1 0) 1 = 0x201 ∧ chk up 1 (okey 0x2400 3 0) 1 = 0x202 ∧
    chk up 1 (okey 0x2400 2 0) 2 = 0x301 ∧ chk up 1 (okey 0x2400 2 255) 1 = 0 ∧ up.dev.pcieUp = true ∧ up.dev.hostOk 1 = true ∧ up.dev.hostOk 0 = false := by
  decide +kernel

theorem witness_ReadsReturnLitOrShadow :
    let chk := fun (s : State) pl key => match s.dev.readCheck pl key with | .ok r => some (r.acc, r.staged) | .error _ => none
    (chk up 1 (okey 0x2420 1 255)).isSome = true ∧ chk up 1 (okey 0x1430 4 0) = some (.rc, false) ∧ (chk up 1 (okey 0x2400 1 255)).map Prod.snd = some true ∧
    ((up.on (up.dev.setBank 9 { up.dev.bank 9 with owner := 2 })).dev.bank (areaOfKey (okey 0x2400 1 255))).owner = 4 / 4 + 1 := by decide +kernel

theorem witness_StagedAndClearingWrites :
    up.canWrite 4 (okey 0x2400 1 255) (toBytes 1 6) = true ∧ (rowOf 0x2400 1).map (·.staged) = some true ∧ up.dev.bankFree 9 1 = true ∧
    (up.on (up.dev.setBank 9 { up.dev.bank 9 with owner := 1 })).dev.bankFree 9 1 = false ∧
    (rowOf 0x6400 3).map (fun r => (r.acc, r.staged, r.pegged)) = some (.w1c, false, false) := by decide +kernel

/-- Plane M owns the bank of the ports, with a mode staged. -/
def owning : State := up.on { up.dev.setBank 9 { up.dev.bank 9 with owner := 2 } with dict.shadow := [(okey 0x2400 1 0, some 6)] }

theorem witness_CommitTakesOneEpoch : up.dev.commitsFull = false ∧ up.dev.owned 1 = [] ∧ owning.dev.owned 1 = [9] ∧ owning.dev.commitsFull = false ∧
    owning.dev.o 0x7000 2 ≠ 3 ∧ owning.canWrite 4 (okey 0x1020 1 0) (toBytes 1 1) = true ∧
    (let s := host.on ((host.dev.setBank 0x0A { host.dev.bank 0x0A with owner := 2 })) |> fun s =>
        s.on { s.dev with dict.shadow := [(okey 0x2810 1 0, some 1)] };
      0x0A ∈ s.dev.owned 1 ∧ s.dev.dict.commits = [] ∧ s.dev.dict.shadow.any (fun x => keyIndex x.1 == 0x2810 || keyIndex x.1 == 0x2811) = true ∧
      (List.range 256).all (fun p => !(s.dev.slotted p && s.dev.oB 0x2400 2 p)) = true ∧ s.canWrite 4 (okey 0x1020 1 0) (toBytes 1 1) = true) := by decide +kernel

theorem witness_DiscardReloadsOwnedBanks : owning.canWrite 4 (okey 0x1020 1 0) (toBytes 1 2) = true ∧ owning.dev.owned 1 = [9] ∧
    areaOfKey (okey 0x2400 1 0) = 9 ∧ areaOfTkey (tkey 0x3440 1 0) = 0x0D ∧ up.dev.owned 1 = [] := by decide +kernel

/-- The bank of area 9 in a phase, with an owner, used at `last`. -/
def bankAt (p : BankPhase) (owner last : Nat) : State := up.on (up.dev.setBank 9 { up.dev.bank 9 with phase := p, owner := owner, last := last })

theorem witness_BankBreakFollowsItsRules :
    areaOf (36 * 0x400) ≠ some 36 ∧ areaOf (9 * 0x400) = some 9 ∧ areaOf (255 * 0x400) ≠ some 255 ∧
    ((bankAt .swapping 0 0).dev.bank 9).phase ≠ .idle ∧ ((bankAt .copying 0 0).dev.bank 9).phase ≠ .idle ∧
    ((bankAt .idle 0 0).dev.bank 9).owner = 0 ∧ ((bankAt .idle 2 0).dev.bank 9).owner = 4 / 4 + 1 ∧
    (let s := bankAt .idle 1 0; (s.dev.bank 9).owner ≠ 4 / 4 + 1 ∧ s.clk.run < (s.dev.bank 9).last + s.dev.o 0x1020 7 * uS ∧
      s.canWrite 4 (okey 0x1020 6 0) (toBytes 1 9) = true) ∧
    (let s := { bankAt .idle 1 0 with clk.run := up.dev.o 0x1020 7 * uS }; (s.dev.bank 9).last + s.dev.o 0x1020 7 * uS ≤ s.clk.run) := by decide +kernel

/-- A commit of epoch 5 that has yet to swap parts. -/
def swapping (left : List (Nat × Nat)) : State :=
  bankAt .swapping 0 0 |> fun s => s.on { s.dev with dict.commits := [{ epoch := 5, plane := 1, left := left }], dict.baysNew := [3] }

theorem witness_AreaSwapAndCopy :
    (swapping [(0x10, 0)]).dev.pendingPart 0x10 0 = some 5 ∧ (swapping [(0x0C, 256)]).dev.pendingPart 0x0C 256 = some 5 ∧
    (swapping [(0x0C, 0)]).dev.dict.baysNew ≠ [] ∧ ((swapping []).dev.bank 9).phase = .swapping ∧
    (swapping []).dev.dict.commits.any (fun c => c.left.any (fun x => x.1 == 9)) = false ∧ up.dev.oldBankDone = true ∧
    ((bankAt .copying 0 0).dev.bank 9).phase = .copying ∧
    ((up.on (up.dev.setBank 0x0C { up.dev.bank 0x0C with phase := .copying })).dev.bank 0x0C).phase = .copying ∧
    owning.dev.dict.shadow = [(okey 0x2400 1 0, some 6)] ∧ owning.dev.inPart 9 0 (okey 0x2400 1 0) = true := by decide +kernel

theorem witness_PeggedObjectsAreWrittenAndScrubbed :
    (rowOf 0x1020 7).map (fun r => (r.staged, r.pegged)) = some (false, true) ∧ up.canWrite 4 (okey 0x1020 7 0) (toBytes 4 100) = true ∧
    up.dev.commitsFull = false ∧ (findRow 0x1020 7).map (fun r => (r.pegged, decide (0 < r.size))) = some (true, true) ∧
    (let key := okey 0x1020 7 0
      let c : PegCopy := ⟨objDflt key, 0, true⟩
      up.dev.pegTriple key = ⟨c, c, c⟩ ∧ mget objDflt up.dev.objs key = c.val ∧ up.dev.dict.pegIndet = [] ∧ up.dev.dict.pegs = []) := by decide +kernel

theorem witness_EpochsCompareAsSerialNumbers : epochHigher 1 0 = true ∧ epochHigher (2 ^ 31 - 1) 0 = true ∧ epochHigher (2 ^ 31) 0 = false ∧
    epochHigher 0 (2 ^ 31) = false ∧ epochHigher 0 (2 ^ 32 - 1) = true ∧ epochHigher 7 7 = false := by decide +kernel

/-- A table operation of window 16 (plane M, function 1). -/
def tblop (ix : Nat) (entry : Bytes) : TblOp := ⟨1, 1, false, ix, 1, 0, fitTo (entryLen ix) entry, 0, false⟩

theorem witness_TableCommandsReturnResults : (up.dev.tblWin 16).status ≠ twBusy ∧ up.dev.hostOk (16 / 16) = true ∧
    (up.dev.tblLoad 16 0x3440 1 1 false 0 []).tableCheck (tblop 0x3440 []) = none ∧
    ((up.dev.tblLoad 16 0x3FFF 1 1 false 0 []).tableCheck (tblop 0x3FFF [])).isSome = true := by decide +kernel

theorem witness_TrieInsertThenFind : (tblop 0x3440 []).entry.length = 36 ∧ (up.dev.entries 0x3440 1).find? (fun e => trieKey e.2 == trieKey 0) = none ∧
    (up.dev.forwardObj 0x3440 2 0).getD 0 + (prefixOf 0).units ≤ 2097152 ∧ firstFree ((up.dev.entries 0x3440 1).map Prod.fst) 0 < 2 ^ 32 ∧
    (let s := up.on { up.dev with tbls := oset up.dev.tbls (tkey 0x3440 1 4) (some 0) };
      (s.dev.entries 0x3440 1).find? (fun e => trieKey e.2 == trieKey 0) = some (4, 0)) := by decide +kernel

def zeros (n : Nat) : Bytes := List.replicate n 0#8
/-- The batch engine of function 1 with one descriptor to take. -/
def batching : State := up.on (up.dev.setBatch 1 { up.dev.batch 1 with en := true, size := 64, head := 63, tail := 0 })
def tableWaits : State := up.on { up.dev with joinery.waiting := [(0, { ({} : Task) with work := .table 3 1 1 0 0 })] }

theorem witness_BatchesRunTheirDescriptors :
    tableWaits.dev.joinery.waiting = [(0, { ({} : Task) with work := .table 3 1 1 0 0 })] ∧ batchSizeOk 64 = true ∧ batchSizeOk 65 = false ∧
    (let x := batching.dev.batch 1; x.en = true ∧ batching.dev.hostOk 1 = true ∧ x.size ≠ 0 ∧ x.head ≠ x.tail % x.size) ∧
    (let b := List.replicate 8 0#8 ++ toBytes 4 (2 ^ 20) ++ List.replicate 12 0#8 ++ toBytes 4 16 ++ List.replicate 4 0#8;
      b.length = 32 ∧ ¬(2 ^ 20 < beAt b 8 4 ∨ beAt b 24 4 < 16)) ∧
    oget batching.dev.lists 1 = none ∧
    (let b := toBytes 1 0x10 ++ zeros 63;
      (((runList 1 1 none false 64 1 b {}).run batching.clk).run batching.dev).1.wait = none) ∧
    (let b := List.replicate 24 0#8 ++ toBytes 4 15 ++ List.replicate 4 0#8; b.length = 32 ∧ (2 ^ 20 < beAt b 8 4 ∨ beAt b 24 4 < 16)) := by decide +kernel

/-- Session 1 enabled on channel 0 of the data channels, with its management core in service, key 5 and H = 9. -/
def session : State := withO served [(0x1140, 1, 0, 1), (0x1140, 2, 0, 5), (0x1140, 6, 0, 9), (0x2870, 1, 0, 1)]
/-- The head of a UOP request of session 1 with no operations, and the request with a tag. -/
def uopHead (seq : Nat) : Bytes := toBytes 1 1 ++ toBytes 1 0 ++ toBytes 2 1 ++ toBytes 4 seq ++ toBytes 2 0 ++ toBytes 2 0
def uopMsg (seq : Nat) (tag : Bytes) : Bytes := uopHead seq ++ tag

/-- Port 0 takes UOP frames; a frame for it with an FCS. -/
def uopPort : State := withO up [(0x1100, 1, 0, 1), (0x2400, 3, 0, 3), (0x2400, 2, 0, 1)] |> fun s =>
  s.on { s.dev with objs := minsert (okey 0x1100 3 0) 0x020000000002 s.dev.objs }
def withFcs (b : Bytes) : Bytes := b ++ fcsBytes b
def uopFrame : Bytes :=
  withFcs (toBytes 6 0x020000000002 ++ toBytes 6 0x020000000001 ++ toBytes 2 0x88B5 ++ fitTo 46 (uopHead 10))

theorem uopTag_take (k : Nat) (b : Bytes) : (uopTag k b).take 16 = uopTag k b := by simp [uopTag, kmac256, sponge, List.take_take]

theorem slice_tag (h t : Bytes) (hl : h.length = 12) (ht : t.take 16 = t) : slice (h ++ t) 12 16 = t := by
  simp [slice, ← hl, ht]

theorem witness_UopMessagesAreCarriedAndAnswered :
    (session.dev.inService 0 || session.dev.inService 1) = true ∧ (((uopRate true 0).run session.clk).run session.dev).1 = true ∧
    (((poolTakeOrDrop 3 1).run session.clk).run (((uopRate true 0).run session.clk).run session.dev).2).1 = true ∧
    (let m := uopMsg 10 (List.replicate 16 0#8); byteAt m 0 = 1 ∧ bitOf (byteAt m 1) 7 = false ∧ beAt m 10 2 ≤ 1444 ∧ m.length = 28 + beAt m 10 2 ∧ beAt m 2 2 = 1 ∧ m.take 12 = uopHead 10) ∧
    seqOk (session.dev.o 0x1140 6 0) (session.dev.sessOf 0).mask 10 = true ∧ (uopTag 5 (uopHead 10)).length = 16 ∧
    session.dev.uopSession true 0 0 = true ∧ up.dev.uopSession true 0 0 = false ∧
    seqOk (session.dev.o 0x1140 6 0) (session.dev.sessOf 0).mask 0 = false ∧ session.dev.o 0x2870 1 0 = 1 := by decide +kernel

/-- A right tag, and one of two tags that is wrong. -/
theorem witness_uop_tags : slice (uopMsg 10 (uopTag 5 (uopHead 10))) 12 16 = uopTag 5 (uopHead 10) ∧
    ¬(List.replicate 16 0#8 = uopTag 5 (uopHead 10) ∧ List.replicate 16 1#8 = uopTag 5 (uopHead 10)) :=
  ⟨slice_tag _ _ (by decide) (uopTag_take _ _), fun h => absurd (h.1.trans h.2.symm) (by decide)⟩

theorem witness_uop_frames :
    hdlcUnescape [0x7D#8] = none ∧ (hdlcUnescape [1#8, 2#8]).isSome = true ∧
    (let b := [0xFF#8, 0x03#8, 0x88#8, 0xB5#8]
      let x := b ++ fcsBytes b
      8 ≤ x.length ∧ fcsBytes (x.take 4) = x.drop 4 ∧ (hdlcUnescape x).isSome = true) ∧
    uopPort.dev.receives 0 = true ∧ 64 ≤ uopFrame.length ∧ fcsBytes (uopFrame.take (uopFrame.length - 4)) = uopFrame.drop (uopFrame.length - 4) ∧
    (uopPort.dev.uopSpan 0 uopFrame).isSome = true ∧ beAt uopFrame (etherOfs uopFrame) 2 = uopPort.dev.o 0x1100 2 ∧
    beAt uopFrame 0 6 = uopPort.dev.o 0x1100 3 := by decide +kernel

/-! ### Witnesses: lanes, ports, time (03, 04) -/

theorem witness_LanesAndPortsFollowTheirConditions :
    (let st := fun (v : Nat) => (withO up [(0x2000, 1, 1023, v)]).dev.o 0x2000 1 1023;
      st 0 = 0 ∧ st 1 = 1 ∧ st 2 = 2 ∧ st 3 = 3 ∧ st 4 = 4) ∧
    (let d := (withO up [(0x2000, 1, 0, 2)]).dev;
      2 ≤ d.o 0x2000 1 0 ∧ ¬(d.o 0x2020 1 0 = 2 ∧ (d.lane 0).adapted = true) ∧ ¬(d.o 0x2020 1 0 = 1 ∧ (d.lane 0).wasUp = true)) ∧
    (let d := (withO up [(0x2020, 1, 0, 1)]).dev.setLane 0 { wasUp := true };
      d.o 0x2020 1 0 = 1 ∧ (d.lane 0).wasUp = true) ∧
    (let d := (withO up [(0x2020, 1, 0, 2)]).dev.setLane 0 { adapted := true };
      d.o 0x2020 1 0 = 2 ∧ (d.lane 0).adapted = true) ∧
    (let d := (withO up [(0x2400, 2, 255, 1), (0x2400, 3, 255, 1), (0x2000, 1, 1020, 3), (0x2000, 1, 1021, 3), (0x2000, 1, 1022, 4), (0x2000, 1, 1023, 4)]).dev;
      d.oB 0x2400 2 255 = true ∧ d.o 0x2400 3 255 ≠ 7 ∧ (d.lanesOf 255).all (fun l => decide (3 ≤ d.o 0x2000 1 l)) = true) ∧
    (let d := (withO up [(0x2400, 2, 255, 1), (0x2400, 3, 255, 7), (0x2000, 1, 1020, 2)]).dev;
      ¬(d.oB 0x2400 2 255 = true ∧ d.o 0x2400 3 255 ≠ 7) ∧ (d.lanesOf 255).all (fun l => decide (3 ≤ d.o 0x2000 1 l)) = false) ∧
    (2500 < (-2501 : Int).natAbs ∧ (2400 : Int).natAbs ≤ 2400 ∧ ¬2500 < (2401 : Int).natAbs ∧ ¬(2401 : Int).natAbs ≤ 2400) := by decide +kernel

theorem witness_PortsAreAdministered :
    host.canWrite 4 (okey 0x2400 2 255) (toBytes 1 true.toNat) = true ∧ host.canWrite 0 (okey 0x2400 2 0) (toBytes 1 false.toNat) = true ∧
    (let d := (withO up [(0x2400, 3, 0, 2), (0x2440, 1, 0, 0)]).dev;
      d.o 0x2400 3 0 = 2 ∧ d.o 0x2440 1 0 = 0) ∧
    (withO up [(0x2400, 3, 0, 4)]).dev.o 0x2400 3 0 = 4 ∧ (withO up [(0x2400, 3, 0, 7)]).dev.o 0x2400 3 0 = 7 ∧
    (let s := withO up [(0x2400, 3, 0, 5)]; s.dev.o 0x2400 3 0 = 5 ∧ s.dev.figure 0 ≤ figUnit * s.dev.o 0x2410 7 0) ∧
    host.canWrite 4 (okey 0x2410 3 255) (toBytes 1 0) = true ∧ host.canWrite 4 (okey 0x2040 6 1023) (toBytes 2 65535) = true ∧
    up.dev.o 0x2040 2 0 = 0 ∧ (withO up [(0x2040, 2, 1023, 3)]).dev.o 0x2040 2 1023 ≠ 0 ∧ up.dev.oB 0x2040 3 0 = false ∧
    (withO up [(0x2040, 3, 1023, 1)]).dev.oB 0x2040 3 1023 = true := by decide +kernel

/-- The servo in state 2 of mode 1. -/
def locked : State := withO host [(0x1820, 1, 0, 1), (0x1800, 2, 0, 2)]

theorem witness_ServoAndTimeBaseMove :
    locked.canWrite 4 (okey 0x1820 2 0) (toBytes 8 (2 ^ 64 - 1)) = true ∧ locked.dev.o 0x1820 13 = 0 ∧ locked.dev.o 0x1820 1 = 1 ∧
    locked.dev.o 0x1800 2 = 2 ∧ (up.dev.o 0x1820 13 ≠ 0 ∨ (withO up [(0x1820, 1, 0, 0)]).dev.o 0x1820 1 ≠ 1) ∧
    (let t := (locked.dev.o 0x1820 5 * 65536 : Nat);
      (t : Int).natAbs ≤ t ∧ t < ((t : Int) + 1).natAbs ∧ locked.dev.time.consec + 1 < locked.dev.o 0x1820 6) ∧
    (let d := (withO locked [(0x1820, 6, 0, 1)]).dev; d.o 0x1820 6 ≤ d.time.consec + 1) ∧
    (host.canWrite 4 (okey 0x1820 1 0) (toBytes 1 0) = true ∧ host.canWrite 4 (okey 0x1820 1 0) (toBytes 1 2) = true ∧
      host.dev.commitsFull = false) ∧
    (withO locked [(0x1800, 2, 0, 1)]).dev.o 0x1800 2 = 1 := by decide +kernel

/-- A time-stamp ring with room, and a Reflection of port 255. -/
def reflecting : State := up.on { up.dev.setRing 32 { up.dev.ring 32 with running := true, size := 64, en := true } with
  time.refl := [(255, [List.replicate 24 7#8])] }

theorem witness_ReferenceReflectionsAndPps :
    (let d := (withO up [(0x1802, 1, 0, 2), (0x1802, 2, 0, 1), (0x1802, 3, 0, 2)]).dev;
      d.o 0x1802 1 = 2 ∧ d.o 0x1802 2 = 1 ∧ d.o 0x1802 3 0 = 2) ∧
    (let d := (withO up [(0x1802, 1, 0, 1)]).dev; d.o 0x1802 1 < 2 ∧ d.o 0x1802 2 = d.o 0x1802 2) ∧
    (let d := (withO up [(0x1802, 1, 0, 2), (0x1802, 2, 0, 0), (0x1802, 3, 0, 2)]).dev;
      d.o 0x1802 1 = 2 ∧ d.o 0x1802 2 < 2 ∧ d.o 0x1802 3 (d.o 0x1802 2) = 2) ∧
    (let d := (withO up [(0x1802, 1, 0, 2), (0x1802, 2, 0, 0), (0x1802, 3, 0, 1), (0x1802, 3, 1, 2)]).dev;
      d.o 0x1802 2 = 0 ∧ d.o 0x1802 3 0 ≠ 2 ∧ d.o 0x1802 3 1 = 2) ∧
    (let d := (withO up [(0x1802, 1, 0, 2), (0x1802, 3, 0, 1), (0x1802, 3, 1, 0)]).dev; d.o 0x1802 3 0 ≠ 2 ∧ d.o 0x1802 3 1 ≠ 2) ∧
    mget (dK []) up.dev.time.refl 255 = [] ∧
    (let x := reflecting.dev.ring 32;
      mget (dK []) reflecting.dev.time.refl 255 = [List.replicate 24 7#8] ∧ reflecting.dev.o 0x1830 5 255 = 0 ∧
      x.running = true ∧ x.size ≠ 0 ∧ (x.head + 1) % x.size ≠ x.seen) ∧
    (let d := (withO reflecting [(0x1830, 5, 255, 1), (0x1460, 6, 0, 1), (0x1460, 1, 1, 2)]).dev;
      d.o 0x1830 5 255 ≠ 0 ∧ d.inService (d.o 0x1460 6) = true) ∧
    (let d := (withO reflecting [(0x1830, 5, 255, 1), (0x1460, 6, 0, 0xFF)]).dev;
      d.o 0x1830 5 255 ≠ 0 ∧ d.inService (d.o 0x1460 6) = false ∧ d.anyCore = false) ∧
    (let d := (withO reflecting [(0x1830, 5, 255, 1), (0x1460, 6, 0, 1), (0x1460, 1, 0, 2)]).dev;
      d.o 0x1830 5 255 ≠ 0 ∧ d.inService (d.o 0x1460 6) = false ∧ d.anyCore = true) ∧
    (let d := (withO up [(0x1840, 1, 0, 1), (0x1800, 3, 0, 1), (0x1800, 2, 0, 2)]).dev; d.ppsOn = true ∧ d.time.ppsOut = false ∧
      d.ppsDue {} = true ∧ d.ppsDue { run := 5 * uNs, secs := 0, ns := 5 } = false) := by decide +kernel

def stepping : State := host.on { host.dev with time.step := some { plane := 1, absolute := true, amount := 7, instant := 0, apply := 0 } }

theorem witness_StepRequestedThenApplied :
    host.canWrite 4 (okey 0x1801 1 0) (toBytes 8 (2 ^ 64 - 1)) = true ∧ host.canWrite 4 (okey 0x1801 2 0) (toBytes 10 7) = true ∧
    stepping.canWrite 4 (okey 0x1801 1 0) (toBytes 8 1) = true ∧ stepping.dev.time.step.isSome = true ∧ host.dev.time.step = none := by
  decide +kernel

/-! ### Witnesses: slotted transport, maintenance (05, 06) -/

/-- Port 0 slotted with one unit, enabled, in state 3; the head block of unit 0 with multiframe number 5. -/
def slottedPort : State := withO host [(0x2400, 1, 0, 0x11), (0x2400, 2, 0, 1), (0x2400, 3, 0, 3), (0x2800, 1, 0, 1)]
def alignBlock (m : Nat) : Nat := 2 * 2 ^ 64 + 0xC6 * 2 ^ 56 + m * 2 ^ 48
def rxLineIs (s : State) (l : RxLine) : State := s.on (s.dev.setRxLine 0 l)

theorem witness_PlumbFramesAreReceivedAndSent :
    (let d := slottedPort.dev;
      d.slotted 0 = true ∧ d.oB 0x2400 2 0 = true ∧ d.o 0x2400 3 0 ≠ 6 ∧ d.o 0x2400 3 0 ≠ 7 ∧ bitOf (d.o 0x2880 1 0) 0 = false ∧
      d.o 0x2800 1 0 ≠ 2 ∧ d.txStopped 0 = false ∧ d.lineOf 0 = [0]) ∧ up.dev.slotted 255 = false ∧
    bitOf ((withO slottedPort [(0x2880, 1, 0, 1)]).dev.o 0x2880 1 0) 0 = true ∧
    (let k := slottedPort.dev.slotsOf 0 / 20;
      let h := frameHead k ((List.range k).map (fun u => alignBlock (32 * u + 5))).toArray;
      h.1 = true ∧ h.2.1 = true ∧ (rxLineIs slottedPort { cand := some 4 }).dev.rxLine 0 = { cand := some 4 } ∧ (some 4 : Option Nat) = some ((h.2.2 + 31) % 32) ∧
      (frameHead k #[0]).1 = false) ∧
    (let d := (withO (rxLineIs slottedPort { miss := 2 }) [(0x2800, 1, 0, 2)]).dev; d.o 0x2800 1 0 = 2 ∧ 2 ≤ (d.rxLine 0).miss) := by decide +kernel

/-- The connection page of port 0 waits to swap; the multiframe has begun. -/
def pageWaits : State := slottedPort.on { slottedPort.dev.setTxLine 0 { since := 8, mfn := 0 } with
  dict.commits := [{ epoch := 5, plane := 1, left := [(0x0A, 1)] }] }

theorem witness_ConnectionPagesSwapWhenDue :
    slottedPort.dev.pendingPart 0x0A 1 = none ∧ slottedPort.dev.pageDue slottedPort.clk 0 = false ∧
    pageWaits.dev.pendingPart 0x0A 1 = some 5 ∧ pageWaits.dev.pageDue pageWaits.clk 0 = true ∧ pageWaits.dev.slotted 0 = true ∧
    pageWaits.dev.oB 0x2400 2 0 = true ∧ pageWaits.dev.shrinks 0 pageWaits.clk.dev = none ∧
    host.canWrite 4 (okey 0x2820 1 40959) (toBytes 1 255) = false ∧ host.canWrite 4 (okey 0x2820 1 40959) (toBytes 1 2) = true ∧
    host.canWrite 4 (okey 0x2820 4 0) (toBytes 2 1) = true ∧ host.dev.o 0x2800 2 (40959 / 160) = (1 - 1) / 2 ∧
    host.dev.o 0x2800 2 0 ≠ (4 - 1) / 2 ∧ up.dev.o 0x7010 1 676 < 3 ∧ 3 ≤ (withO up [(0x7010, 1, 676, 3)]).dev.o 0x7010 1 676 := by decide +kernel

/-- Ten seconds of one class at port 0, before the next. -/
def secondsOf (s : State) (cls : Nat) : State := s.on (s.dev.setPm 0 { secs := List.replicate 9 ⟨cls, true, true⟩, stopped := false })

theorem witness_DefectsCloseIntoBinsAndSeconds :
    (let par : Parity := { winFrames := 3 }; par.winBad = false ∧ par.winFrames ≠ 0 ∧ par.win = []) ∧ ({ winBad := true } : Parity).winBad = true ∧
    (let d := up.dev.setPm (256 + 40959) { old15 := some ({ es := 4 }, 900), old24 := some ({}, 86400) };
      (d.pm (256 + 40959)).old15 = some ({ es := 4 }, 900) ∧ (d.pm (256 + 40959)).old24 = some ({}, 86400)) ∧ (up.dev.pm 0).old15 = none ∧
    up.dev.slotted 0 = false ∧ slottedPort.dev.slotted 0 = true ∧
    (let d := (secondsOf (withO slottedPort [(0x2880, 1, 0, 256)]) 2).dev;
      let last := ((⟨2, true, true⟩ : PmSec) :: (d.pm 0).secs).take 10;
      bitOf (d.o 0x2880 1 0) 8 = true ∧ d.o 0x2890 8 0 = 0 ∧ last.length = 10 ∧ (last.all (fun z => z.cls == 2)) = true) ∧
    (let d := (secondsOf (withO slottedPort [(0x2890, 8, 0, 1)]) 0).dev;
      let last := ((⟨0, true, true⟩ : PmSec) :: (d.pm 0).secs).take 10;
      d.o 0x2890 8 0 ≠ 0 ∧ last.length = 10 ∧ (last.all (fun z => z.cls != 2)) = true) ∧
    (((0 : Nat) + uS / 2) / uS % 900 = 0 ∧ ((uS : Nat) + uS / 2) / uS % 900 ≠ 0) := by decide +kernel

/-- Group 1023 in service; a failure on its protection line; an accepted far message of a bridge that differs. -/
def groupUp : State := withO host [(0x28C1, 2, 1023, 2)]
def groupHas (s : State) (x : PgSt) : State := s.on (s.dev.setPg 1023 x)
def inputIs (s : State) (x : InSt) (st : Nat) : State := withO (s.on (s.dev.setInput 17 x)) [(0x28E0, 5, 17, st)]

theorem witness_ProtectionAndInputsAct :
    groupUp.canWrite 4 (okey 0x28C1 1 1023) (toBytes 1 4) = true ∧ host.dev.pgValid 1023 = false ∧ groupUp.dev.pgValid 1023 = true ∧
    (let d := groupUp.dev; ¬(7 < (d.pgTop 1023 (d.pgConditions 1023) (d.pgFar 1023)).2 ∨ 7 < d.pgFar 1023 ∨ d.pgDefect 1023 (d.o 0x28C0 3 1023) 9 = true)) ∧
    (let d := (groupHas groupUp { cmd := [15] }).dev; 7 < (d.pgTop 1023 (d.pgConditions 1023) (d.pgFar 1023)).2) ∧
    (let d := (withO groupUp [(0x28C0, 5, 1023, 0), (0x28C1, 5, 1023, 1)]).dev;
      d.oB 0x28C0 5 1023 = false ∧ d.o 0x28C1 5 1023 = 1 ∧ (d.pg 1023).dec ≤ 2) ∧
    ((groupHas groupUp { wtr := some 0 }).dev.pg 1023).wtr.isSome = true ∧ groupUp.dev.pgMismatch 1023 = groupUp.dev.o 0x28C1 8 1023 ∧
    (let d := (groupHas groupUp { far := some 0xF880 }).dev; d.o 0x28C1 8 1023 = 0 ∧ d.pgMismatch 1023 ≠ 0) ∧
    (let d := (withO groupUp [(0x28C1, 8, 1023, 1)]).dev; d.o 0x28C1 8 1023 ≠ 0 ∧ d.pgMismatch 1023 ≠ d.o 0x28C1 8 1023) ∧
    (up.dev.input 17).raw = false ∧ (up.dev.input 17).raw ≠ true ∧
    (let d := (inputIs (withO up [(0x28E0, 2, 17, 1)]) { changes := [0] } 0).dev;
      d.o 0x28E0 5 17 < 2 ∧ d.o 0x28E0 2 17 < (((d.input 17).changes.filter (fun t => decide (0 < t + uS))) ++ [0]).length) ∧
    (up.dev.input 17).raw = (up.dev.input 17).filt ∧ ((inputIs up { raw := true } 2).dev.input 17).raw ≠ ((inputIs up { raw := true } 2).dev.input 17).filt ∧
    2 ≤ (inputIs up { raw := true } 2).dev.o 0x28E0 5 17 ∧ (inputIs up { raw := true } 1).dev.o 0x28E0 5 17 < 2 ∧
    (inputIs up { filt := false } 3).dev.o 0x28E0 5 17 = 3 ∧ (withO (inputIs up {} 1) [(0x28E0, 3, 17, 5)]).dev.o 0x28E0 3 17 ≠ 0 := by decide +kernel

/-! ### Witnesses: reception, bays, forwarding (03, 07, 08) -/

/-- Octets whose FCS is that of a stomped frame. -/
def withStomp (b : Bytes) : Bytes := b ++ toBytes 4 (ofBytes (fcsBytes b) ^^^ 0x5A5A5A5A)
/-- Port 0 receives: Ethernet, state 3. -/
def receiving : State := withO up [(0x2400, 2, 0, 1), (0x2400, 3, 0, 3), (0x2400, 3, 255, 3)]
/-- A control frame of the head of 14 octets. -/
def controlHead : Bytes := zeros 12 ++ toBytes 2 0x8808

theorem witness_FramesAreCheckedAndEnd :
    (let d := up.dev; d.o 0x2400 5 0 ≤ (zeros (d.o 0x2400 5 0)).length ∧ 64 ≤ d.o 0x2400 5 0 ∧ (zeros 63).length < 64 ∧
      d.o 0x2400 4 0 + 1 < d.o 0x2400 5 0 ∧ d.o 0x2400 4 0 < (zeros (d.o 0x2400 4 0 + 1)).length ∧ 64 ≤ d.o 0x2400 4 0) ∧
    (let b := withStomp (zeros 60); b.length = 64 ∧ b.drop 60 = toBytes 4 (ofBytes (fcsBytes (b.take 60)) ^^^ 0x5A5A5A5A) ∧ b.drop 60 ≠ fcsBytes (b.take 60)) ∧
    (let b := zeros 64; b.drop 60 ≠ toBytes 4 (ofBytes (fcsBytes (b.take 60)) ^^^ 0x5A5A5A5A) ∧ b.drop 60 ≠ fcsBytes (b.take 60)) ∧
    (let b := withFcs (zeros 60); b.drop 60 ≠ toBytes 4 (ofBytes (fcsBytes (b.take 60)) ^^^ 0x5A5A5A5A) ∧ b.drop 60 = fcsBytes (b.take 60)) ∧
    up.dev.receives 255 = false ∧ receiving.dev.receives 255 = true ∧ (withO receiving [(0x4410, 1, 0, 1)]).dev.oB 0x4410 1 0 = true ∧
    beAt controlHead 12 2 = 0x8808 ∧ receiving.dev.frame 7 = none ∧ beAt (zeros 64) 12 2 ≠ 0x8808 ∧
    (withF receiving { id := 7 }).dev.receiving 0 7 = some { id := 7 } ∧ receiving.dev.yard.nextId ≤ 7 ∧ receiving.dev.uopSpan 0 (zeros 64) = none ∧
    (let s := receiving.on { receiving.dev with yard.nextId := 8 }; s.dev.frame 7 = none ∧ 7 < s.dev.yard.nextId) ∧
    (let d := receiving.dev.setPort 0 { jabber := true };
      (((rxStart 0 false).run {}).run d).1 = false ∧ (((rxStart 0 true).run {}).run d).1 = true ∧ (receiving.dev.port 0).jabber = false) ∧
    (withO receiving [(0x4410, 1, 0, 1), (0x2440, 3, 0, 0)]).dev.txStopped 0 = false := by decide +kernel

/-- An aligned packet-client tributary. -/
def client (label : Nat) : State := up.on (up.dev.setRxTrib 40959 { mode := 2, slots := [40959], label := some label })
/-- Inject ring 15 holds a frame of 64 octets. -/
def injected : State := up.on { up.dev with host.inj := [(15, [{ desc := zeros 32, data := zeros 60, units := 1 }])] }

theorem witness_FramesEnterTheFifo :
    receiving.dev.receives 0 = true ∧ beAt (zeros 64) 12 2 ≠ 0x8808 ∧ up.dev.o 0x6040 1 63 ≠ 1 ∧
    (up.dev.fifo 63).length < 1024 ∧ (up.dev.fifo 63).length < up.dev.o 0x3023 8 ∧ (2 ≤ ({ origin := 2 } : Frame).origin) ∧
    (withO up [(0x3023, 1, 0, 0)]).dev.o 0x3023 1 ≤ (up.dev.fifo 0).length ∧ ({} : Frame).tf 393 1 = 0 ∧
    (up.dev.rxTrib 40959).mode ≠ 2 ∧
    (let d := (client 1).dev; (d.rxTrib 40959).mode = 2 ∧ (d.rxTrib 40959).slots ≠ [] ∧ d.clientKey 40959 = some 40959 ∧
      (d.rxTrib 40959).label.getD 0 = 1 ∧ 64 ≤ d.o 0x2832 1 40959 ∧ (withFcs (zeros 60)).length ≤ d.o 0x2832 1 40959 ∧ d.bayStopped 63 = false) ∧
    ((client 3).dev.rxTrib 40959).label.getD 0 = 3 ∧ ((client 2).dev.rxTrib 40959).label.getD 0 = 2 ∧
    mget (dK []) up.dev.host.inj 15 = [] ∧ mget (dK []) injected.dev.host.inj 15 = [{ desc := zeros 32, data := zeros 60, units := 1 }] ∧
    (injected.dev.fifo 0).length < injected.dev.o 0x3023 (byteAt (zeros 32) 14 + 1) ∧ injected.dev.bayStopped 0 = false ∧
    (withO injected [(0x7010, 1, 512, 3)]).dev.bayStopped 0 = true := by decide +kernel

/-- Frame 7 in the FIFO of bay 0. -/
def inFifo (f : Frame) : State := withF up f |> fun s => s.on (s.dev.setFifo 0 [f.id])

/-- The header graph has state 0, which ends the walk. -/
def graphOf (e : Bytes) : State := up.on { up.dev with tbls := [(tkey 0x3000 1 0, some (ofBytes (fitTo 204 e)))] }
def graphed : State := graphOf ([0#8, 0x80#8] ++ zeros 6 ++ [0x80#8])

theorem witness_BayPipelineRuns :
    up.dev.frame 7 = none ∧ (inFifo { id := 7 }).dev.frame 7 = some { id := 7 } ∧ (inFifo { id := 7 }).dev.fifo 0 = 7 :: [] ∧
    (inFifo { id := 7 }).dev.bayStopped 0 = false ∧ (withO (inFifo { id := 7 }) [(0x7010, 1, 512, 3)]).dev.bayStopped 0 = true ∧
    ((withF up { id := 7 }).dev.fifo 0).head? ≠ some 7 ∧ (inFifo { id := 7, origin := 3 }).dev.fifo 0 = 7 :: [] ∧
    (inFifo { id := 7, phase := 1, asked := true, looked := true }).dev.bayStopped 0 = false ∧
    ({ parkedAt := some 0 } : Frame).parkedAt ≠ none ∧
    (let x := graphed.dev.parse (graphed.dev.bankOf 0) 0 (withFcs (zeros 60)); x.unknown = none ∧ x.incons = 0 ∧ x.trunc = false) ∧
    (let x := (graphOf (zeros 2 ++ [4#8, 0#8])).dev.parse 0 0 (withFcs (zeros 60)); x.incons ≠ 0 ∨ x.trunc = true ∨ x.unknown ≠ none) ∧
    (let d := (withO up [(0x3010, 2, 0, 2)]).dev; d.ob (d.bankOf 0) 0x3010 2 0 = 2) := by decide +kernel

theorem witness_ForwardingCopiesFollow :
    oget up.dev.bays.rebuild 63 = none ∧ oget (oset up.dev.bays.rebuild 63 (some 5)) 63 = some 5 ∧ [0, 16383].all (· < 16384) = true ∧
    ((up.on { up.dev with tbls := [(tkey 0x3200 1 16383, some 1)] }).dev.bayTbl 63 (tkey 0x3200 1 16383) ≠ none) ∧
    (let d : Dev := { up.dev with bays.log := [⟨true, tkey 0x3200 1 3, some 1⟩] }; d.unapplied 63 = [⟨true, tkey 0x3200 1 3, some 1⟩]) ∧
    (up.on { up.dev with tbls := [(tkey 0x3200 1 16383, some 1)] }).dev.prismAt 63 16383 = some (16383, 1) ∧
    (host.canWrite 4 (okey 0x3441 2 0) (toBytes 1 true.toNat) = true ∧ host.canWrite 4 (okey 0x3441 2 0) (toBytes 1 false.toNat) = true) ∧
    (withO up [(0x3441, 1, 0, 2)]).dev.o 0x3441 1 = 2 := by decide +kernel

/-- Table 0 learns, with one bucket row in each half; an entry of key 5 located at port 0. -/
def learns : State := withO up [(0x3430, 1, 0, 0), (0x3401, 1, 0, 1)]
def entryOf (ctrl : Nat) : Nat := (1 <<< 472) * ctrl + (1 <<< 104) * (1 <<< 20) + (5 <<< (8 * (60 - 4 - learns.dev.emKeyLen 0)))
def learned (ctrl : Nat) : State := learns.on { learns.dev with
  tbls := (learns.dev.emSlots 0 5 0).take 1 |>.map (fun a => (tkey 0x3400 1 a, some (entryOf ctrl))) }

theorem witness_LearningMovesAndAges :
    up.dev.bays.learnQ = [] ∧ (let r : LearnReq := ⟨true, 0, 5, 1 <<< 20 + 255⟩; r.move = true ∧ r.loc < 2 ^ 24 ∧ r.loc ≠ locOf (entryOf 0x80)) ∧
    (bucketTake (learns.dev.o 0x3430 6) (learns.dev.o 0x3430 6 / 10) 0 none).1 = true ∧
    (bucketTake 1000 100 0 (some ⟨0, 0⟩)).1 = false ∧ learns.dev.emFind 0 5 (learns.dev.emMaster 0) = none ∧
    5 < 256 ^ learns.dev.emKeyLen 0 ∧ ¬((1 <<< 20 + 255) >>> 20 = 1 ∧ learns.dev.o 0x3433 1 255 ≠ 0) ∧
    ((learns.dev.emSlots 0 5 0 ++ learns.dev.emSlots 0 5 1).find? (fun a => (learns.dev.emMaster 0 a).isNone)).isSome = true ∧
    ((learned 0x80).dev.emFind 0 5 ((learned 0x80).dev.emMaster 0)).isSome = true ∧ entryOf 0xFF < 2 ^ 480 ∧
    bitOf (emCtrl (entryOf 0x80)) 6 = false ∧ bitOf (emCtrl (entryOf 0xC0)) 6 = true ∧ bitOf (emCtrl (entryOf 0x80)) 3 = false ∧
    bitOf (emCtrl (entryOf 0x88)) 3 = true ∧
    (let d := (withO learns [(0x3433, 1, 255, 1)]).on { (withO learns [(0x3433, 1, 255, 1)]).dev with bays.learnRate := none } |>.dev;
      (1 <<< 20 + 255) >>> 20 = 1 ∧ d.o 0x3433 1 255 ≠ 0 ∧ ¬d.o 0x3433 1 255 ≤ d.learnedNow 255) ∧
    ((withO (learned 0x80) [(0x3433, 1, 0, 1)]).dev.o 0x3433 1 0 ≤ (withO (learned 0x80) [(0x3433, 1, 0, 1)]).dev.learnedNow 0) ∧
    (let s := (learned 0x80).on { (learned 0x80).dev with bays.moves := [(5, 4)] }; s.dev.bays.moves = [(5, 4)] ∧ 4 ≤ s.dev.o 0x3430 7) ∧
    (withO up [(0x3430, 7, 0, 3)]).dev.o 0x3430 7 < 4 ∧ (withO up [(0x3430, 9, 0, 0)]).dev.o 0x3430 9 = 0 ∧ up.dev.o 0x3430 9 ≠ 0 ∧
    mwf (dK none) (learned 0x80).dev.tbls = true ∧ (learned 0x80).dev.learnTable < 8 ∧ ((learned 0x80).dev.entries 0x3400 1).length = 1 ∧
    fld (emCtrl (entryOf 0xA0)) 4 2 = 2 ∧ fld (emCtrl (entryOf 0x80)) 4 2 < 2 ∧ (learned 0x80).dev.emKey 0 (entryOf 0x80) = 5 := by decide +kernel

/-! ### Witnesses: flow state (09) -/

/-- A parsed frame that has sent its request for key 0; the cached record and the slot of key 0. -/
def asking : State := withF up { id := 7, phase := 1, asked := true }
def cached (s : State) : State := s.on { s.dev with flow.cache := [(cacheBase 0 0 0 0, some { addr := 4 })] }
def inSlot (s : State) : State := s.on { s.dev with flow.slots := [(tblAddr 0 ((probeOrder 0 0).headD 0), some ⟨0, false⟩)] }

theorem witness_FlowLookupsAndFetches :
    asking.dev.frame 7 = some { id := 7, phase := 1, asked := true } ∧ asking.dev.sillFailed 0 = false ∧
    (withO asking [(0x5021, 3, 0, 1)]).dev.sillFailed 0 = true ∧ (cached asking).dev.cacheFind 0 0 0 = some (cacheBase 0 0 0 0) ∧
    asking.dev.cacheFind 0 0 0 = none ∧ (cached asking).dev.cacheAt (cacheBase 0 0 0 0) = some { addr := 4 } ∧ rf 0 67 2 = 0 ∧
    ((up.dev.fetches 1).find? (fun x => !x.task)) = none ∧
    (((up.dev.setFetches 1 [{ key := 0, kdir := 0 }]).fetches 1).find? (fun x => !x.task)) = some { key := 0, kdir := 0 } ∧
    (inSlot up).dev.findSlot 0 0 0 = some (tblAddr 0 ((probeOrder 0 0).headD 0)) ∧ up.dev.findSlot 0 0 0 = none ∧
    (withO up [(0x3802, 2, 15, 1)]).dev.o 0x3802 2 15 = 1 ∧ (withO up [(0x3802, 2, 15, 0)]).dev.o 0x3802 2 15 = 0 ∧ (up.dev.tasks 1).length + 1024 ≤ 61440 ∧
    up.dev.flow.scanning.contains 31 = false ∧ ({ up.dev with flow.scanning := [31] } : Dev).flow.scanning.contains 31 = true := by decide +kernel

/-- A whole frame that holds the record of key 0. -/
def committing (fault : Option Nat) : State := withF up { id := 7, whole := true, slot := some 4, fault := fault, data := zeros 64 }
def sampled : State := up.on { up.dev with flow.samples := [⟨7, 0, 0, 0, 0, 20⟩] }

theorem witness_FlowCommitsCountFrames :
    up.dev.frame 7 = none ∧ (committing none).dev.frame 7 = some { id := 7, whole := true, slot := some 4, data := zeros 64 } ∧
    (committing none).dev.cacheFind 0 0 0 = none ∧ (cached (committing (some 4))).dev.cacheFind 0 0 0 = some (cacheBase 0 0 0 0) ∧
    (let x : CacheEnt := { addr := 4 }; x.err + 1 ≤ 0xFF ∧ x.pk + 1 ≤ 0xFFFFFF ∧ x.oct + 64 ≤ 0xFFFFFFFF - 16383) ∧
    up.dev.flow.samples.find? (fun x => x.frame == 7) = none ∧ sampled.dev.flow.samples.find? (fun x => x.frame == 7) = some ⟨7, 0, 0, 0, 0, 20⟩ ∧
    sampled.dev.cacheFind 0 0 0 = none ∧ (cached sampled).dev.cacheAt (cacheBase 0 0 0 0) = some { addr := 4 } ∧
    ({ addr := 4 } : CacheEnt).hist.getD 3 0 + 1 ≤ 0xFF := by decide +kernel

/-! ### Witnesses: the Joinery (10) -/

/-- Tasks of Sill 1; a thread of it. -/
def tasked (l : List Task) : State := host.on (host.dev.setTasks 1 l)
def threaded (s : State) (i : Nat) (x : Thread) : State := s.on (s.dev.setThr i x)
/-- Thread 15 of core 31 runs task 0 of Sill 1 at word 0 of the patch RAM, which holds `w`. -/
def running (x : Thread) (w : Nat) : State := threaded (tasked [{ st := 1 }]) 511 { x with root := true } |> fun s =>
  s.on { s.dev with joinery.patch := if w = 0 then [] else [(1024, w)] }
/-- It runs the ROM routine of its kind. -/
def runningRom (x : Thread) : State := threaded (tasked [{ st := 1, work := .aging 0 }]) 511 { x with root := true, pc := 0 } |> fun s =>
  s.on { s.dev with objs := minsert (okey 0x3841 1 256) 0 s.dev.objs }

theorem witness_TasksAreDispatched :
    (let d := (tasked [{}]).dev;
      (oget d.joinery.apply 1).isSome = false ∧ (d.tasks 1).filter (d.ready 1) = [{}] ∧ firstTask [({} : Task)] = some {} ∧ d.pickCore 1 = some 16 ∧
      (d.freeThreads 16).head? = some 257) ∧
    ((up.dev.tasks 1).filter (up.dev.ready 1) = []) ∧
    (let d := (tasked [{ st := 3, ctrl := 4, domain := 9 }]).dev;
      (d.tasks 1).find? (fun t => t.st == 3 && bitOf t.ctrl 2 && t.domain == 9 && !d.domainHeld 1 t) = some { st := 3, ctrl := 4, domain := 9 }) ∧
    (withO up [(0x3843, 1, 0, 0)]).dev.o 0x3843 1 = 0 ∧ (up.dev.pickCore 1).isSome = true ∧
    (let s := threaded (tasked [{ st := 1, seq := 4 }, { seq := 5, ctrl := 64 }]) 257 { st := 1, task := 4, root := true };
      let d := (withO (s.on { s.dev with joinery.off := (List.range 16).map (· + 16) }) [(0x3843, 1, 0, 1)]).dev;
      firstReady [{ seq := 1, readyAt := 9 }, { seq := 2, readyAt := 3 }, { seq := 3, readyAt := 3 }] = some { seq := 2, readyAt := 3 } ∧ d.o 0x3843 1 ≠ 0 ∧ d.pickCore 1 = none ∧ firstTask ((d.tasks 1).filter (fun t => d.ready 1 t && !t.asked)) = some { seq := 5, ctrl := 64 } ∧
      d.preemptVictim 1 { seq := 5, ctrl := 64 } = some { st := 1, seq := 4 } ∧ d.taskThreads 1 4 = [257]) := by decide +kernel

theorem witness_MicrowordsIssueOrWait :
    ¬((up.dev.thr 511).st = 1 ∧ (up.dev.thr 511).parked = false) ∧ (threaded up 511 { st := 1, task := 9 }).dev.taskOf 1 9 = none ∧
    (let d := (running { st := 1, pc := 17408 } 0).dev; (d.thr 511).st = 1 ∧ 17408 ≤ (d.thr 511).pc ∧ d.taskOf 1 0 = some { st := 1 }) ∧
    (let d := (runningRom { st := 1 }).dev;
      (d.fetchWord 1 0).2 = false ∧ (d.thr 511).root = true ∧ (d.thr 511).pc = d.o 0x3841 1 (256 + 0) ∧ Work.aging 0 ≠ .none ∧
      ¬((d.thr 511).abort = true ∨ (d.thr 511).quiesce = true ∨ (d.thr 511).preempt = true)) ∧
    ((runningRom { st := 2, abort := true }).dev.thr 511).waits = true ∧
    (let d := (running { st := 1, pc := 16384, since := 256 } 0).dev; 256 ≤ (d.thr 511).since ∧ (d.fetchWord 1 16384).2 = true) ∧
    (let d := (running { st := 1, pc := 16384, since := 255 } 3).dev; (d.thr 511).since < 256 ∧ wRefused (d.fetchWord 1 16384).1 = true) ∧
    (let w := 3 * 2 ^ 30; wRefused w = false ∧ (running { st := 1, pc := 16384 } w).dev.mustWait 511 w = some 5 ∧ (running { st := 5 } w).dev.mustWait 511 w = some 5) ∧
    wRefused 0 = false ∧ (running { st := 1, pc := 16384 } 0).dev.mustWait 511 0 = none ∧ ((running { st := 5, pc := 16384 } 0).dev.thr 511).waits = true ∧
    (let w := (1 * 2 ^ 15) <<< 103;
      wBrc w = 0 ∧ wAlu1 w = 0 ∧ wShf w = 0 ∧ wMem w = 0 ∧ wHsh w = 0 ∧ wClp w = 0 ∧ wChn w = 0 ∧ wTsk w = 0 ∧ wCkp w = 0 ∧ wAlu0 w / 2 ^ 15 = 1) ∧
    up.dev.breakAt 31 1 = false ∧
    (let d := (running { st := 1, pc := 16384 } 0).dev;
      (d.passCycle 31 0 0).pickThread 31 0 [] = some 15 ∧ (d.passCycle 31 0 0).pickThread 31 0 [15] = none ∧ ¬(d.passCycle 31 0 0).pickThread 31 0 [] = some 0) ∧
    (let d := (threaded (running { st := 1, pc := 16384 } 0) 510 { st := 1, abort := true }).dev;
      (d.thr 510).urgent = true ∧ (d.passCycle 31 0 0).pickThread 31 0 [] = some 14 ∧ d.pickThread 31 0 [] = some 14) := by decide +kernel

/-- Thread 511 waits for the clamp that thread 510 holds. -/
def clamped (st : Nat) : State := threaded (threaded dbg 511 { st := 3, clamp := some 8191 }) 510 { st := st } |> fun s =>
  s.on (s.dev.setClamp 8191 (some ⟨510, 1, [511]⟩))

theorem witness_ThreadsAreRecoveredAndDebugged :
    (let d := (threaded up 511 { st := 5 }).dev;
      d.coreThreads 31 = [511] ∧ (d.coreThreads 31).all (fun i => [3, 4, 5].contains (d.thr i).st && !(d.thr i).granted) = true ∧ d.detectorPaused 31 = false) ∧
    up.dev.coreThreads 31 = [] ∧ (up.dev.thr 511).st ≠ 3 ∧
    ((clamped 7).dev.thr 511).st = 3 ∧ (clamped 7).dev.waitsFor 511 = some 510 ∧ ((clamped 7).dev.thr 510).st = 7 ∧ ((clamped 1).dev.thr 510).st ≠ 7 ∧
    ((threaded up 511 { st := 6 }).dev.thr 511).st = 6 ∧ ((threaded up 511 { st := 6 }).dev.thr 511).parked = false ∧
    ([(1, 1), (1, 0), (2, 1), (3, 1)].all (fun x => dbg.canWrite 4 (okey 0x8400 x.1 511) (toBytes 1 x.2))) = true ∧ dbg.dev.o 0x7010 1 677 < 3 ∧
    (let s := withO dbg [(0x7010, 1, 677, 4)]; 3 ≤ s.dev.o 0x7010 1 677 ∧ s.canWrite 4 (okey 0x8400 1 511) (toBytes 1 1) = true) ∧
    dbg.canWrite 4 (okey 0x8400 4 (511 * 32 + 31)) (toBytes 8 (2 ^ 64 - 1)) = true ∧
    ((threaded dbg 511 { st := 7, was := 3 }).dev.thr 511).st = 7 ∧ (threaded dbg 511 { st := 7 }).canWrite 4 (okey 0x8400 3 511) (toBytes 1 1) = true := by
  decide +kernel

/-! ### Witnesses: the Yard and egress (11, 12) -/

/-- A frame of 64 octets past stage 12 for port 0. -/
def forPort (p : Nat) : Frame := { id := 7, whole := true, data := withFcs (zeros 60), phase := 2, tenon := (1 <<< 450) + (p <<< 430) }
def openPort : State := withO up [(0x2400, 2, 0, 1), (0x2400, 3, 0, 3), (0x2440, 3, 0, 0)]

theorem witness_YardAdmitsHoldsAndFrees :
    up.dev.frame 7 = none ∧ up.dev.admitDue { id := 7 } = false ∧ up.dev.admitDue (forPort 0) = true ∧ (withF up (forPort 0)).dev.frame 7 = some (forPort 0) ∧
    up.dev.slotted 0 = false ∧ up.dev.oB 0x4020 1 0 = false ∧ up.dev.portClosed 0 = true ∧ openPort.dev.portClosed 0 = false ∧
    openPort.dev.wdDrops 0 0 = none ∧ openPort.dev.o 0x4052 2 < 65536 ∧
    (openPort.dev.setResidue 0 [⟨{}, 5⟩]).residue ({ port := 0 } : Copy).q ≠ [] ∧ 16384 < up.dev.cellsFree ∧
    (up.dev.queueAccount (forPort 0) {} 1) = some .qmin ∧
    host.canWrite 0 (okey 0x4060 1 32767) (toBytes 1 1) = true ∧ host.canWrite 0 (okey 0x4060 2 255) (toBytes 1 1) = true ∧
    (up.dev.yard.retired.contains 1572863 = false) ∧ (let d : Dev := { up.dev with yard.retired := [1572863] }
      d.yard.retired.contains 1572863 = true ∧ d.yard.noSpare = false) ∧ 0 < up.dev.o 0x7020 1 ∧ (withO up [(0x7020, 1, 0, 0)]).dev.o 0x7020 1 = 0 ∧
    oget up.dev.yard.poolStall 15 = none ∧ oget (oset up.dev.yard.poolStall 15 (some 3)) 15 = some 3 ∧ up.dev.o 0x4302 1 15 * 8 ≤ 7 * up.dev.poolLimit 15 ∧
    7 * (withO up [(0x4302, 1, 15, 2 ^ 20)]).dev.poolLimit 15 < (withO up [(0x4302, 1, 15, 2 ^ 20)]).dev.o 0x4302 1 15 * 8 ∧
    host.canWrite 4 (okey 0x4440 4 16383) (toBytes 4 1538) = true := by decide +kernel

/-- A frame on the express or the preemptable medium of port 0, a control frame that waits, a bounded head. -/
def express (s : State) (t : Tx) : State := s.on { s.dev with eg.express := oset s.dev.eg.express 0 (some t) }
def preemptable (s : State) (t : Tx) : State := s.on { s.dev with eg.preempt := oset s.dev.eg.preempt 0 (some t) }
def boundedHead : State := withF openPort (forPort 0) |> fun s => s.on (s.dev.setFifoB 0 [{ frame := 7, plen := 64, bounded := true }])
def classHead : State := withF openPort (forPort 0) |> fun s =>
  s.on { s.dev with yard.queues := [(0, [{ frame := 7, plen := 64 }])], eg.clsList := [(0, [0])], eg.subList := [(0, [0])] }

theorem witness_FramesAreChosenAndLeave :
    slottedPort.dev.slotted 0 = true ∧ up.dev.slotted 255 = false ∧ up.dev.txStopped 0 = true ∧ openPort.dev.txStopped 0 = false ∧
    oget openPort.dev.eg.express 0 = none ∧ oget openPort.dev.eg.preempt 0 = none ∧ oget openPort.dev.eg.ctl 0 = none ∧
    oget (oset openPort.dev.eg.ctl 0 (some 255)) 0 = some 255 ∧ mget (dK false) openPort.dev.eg.lastControl 0 = false ∧
    (boundedHead.dev.boundedReady boundedHead.clk 0).isSome = true ∧ openPort.dev.boundedReady openPort.clk 0 = none ∧
    (let s := preemptable (withO openPort [(0x4410, 3, 0, 2)]) { held := true }; s.dev.preempting 0 = true ∧ oget s.dev.eg.preempt 0 = some { held := true }) ∧
    (let s := preemptable openPort {}; s.dev.preempting 0 = false ∧ oget s.dev.eg.preempt 0 = some {}) ∧
    (let s := preemptable (withO openPort [(0x4410, 3, 0, 2)]) {}; s.dev.canCut {} 0 = false ∧ s.dev.canCut {} uS = true) ∧
    (openPort.dev.classSelect 0 0 (openPort.dev.classPick openPort.clk 0)).isNone = true ∧
    (classHead.dev.classSelect 0 0 (classHead.dev.classPick classHead.clk 0)).isSome = true ∧
    oget (express openPort { data := some [], control := true }).dev.eg.express 0 = some { data := some [], control := true } ∧
    oget (express openPort { data := some [] }).dev.eg.express 0 = some { data := some [] } ∧ ({} : Tx).data = none ∧
    (let t : Tx := { data := some [] }; oget (oset slottedPort.dev.eg.tribTx 40959 (some t)) 40959 = some t ∧ t.copy.port = 0 ∧ t.data ≠ none) := by decide +kernel

/-- A gate change of port 0 that an epoch waits for. -/
def gateWaits : State := host.on { host.dev with
  dict.commits := [{ epoch := 5, plane := 1, left := [(0x11, 1)] }], eg.change := [(0, some ⟨0, 0⟩)] }
def attempts (v n : Nat) : State := withO up [(0x4410, 3, 255, v)] |> fun s => s.on { s.dev with eg.attempts := nset s.dev.eg.attempts 255 n }
/-- Class 7 of port 0 is lossless and sends pause; its watchdog is on. -/
def lossless : State := withO up [(0x4020, 1, 7, 1), (0x4450, 1, 0, 2), (0x4451, 1, 0, 1)]

/-- The gate list of port 0 runs with one entry that closes every gate. -/
def gated (x : Tx) : State := preemptable (withO openPort [(0x4431, 5, 0, 1), (0x4431, 1, 0, 1), (0x4431, 2, 0, 1000000), (0x4430, 1, 0, 0)]) x

theorem witness_closed_gates :
    (let d := (gated {}).dev; bitOf (d.gatesAt (gated {}).clk 0 0).1 0 = false ∧ d.canCut {} 0 = false ∧ d.canCut {} uS = true) ∧
    (let x : Tx := { data := some (zeros 128) }; x.data.all (fun b => decide (x.done + 128 ≤ b.length)) = true) ∧
    (let x : Tx := { data := some (zeros 127) }; x.data.all (fun b => decide (x.done + 128 ≤ b.length)) = false) ∧
    (gated { held := true }).dev.after (gated {}).clk (holdSettle 0) = (gated { held := true }).dev ∧
    oget ((gated { holdAt := some 0 }).dev.after (gated {}).clk (holdSettle 0)).eg.preempt 0 = some {} ∧
    (oget ((gated { holdAt := some uS }).dev.after { (gated {}).clk with dev := uS } (holdSettle 0)).eg.preempt 0).map (fun t => (t.held, t.cut, t.frags)) =
      some (true, true, 1) := by decide +kernel

theorem witness_GatesVerificationAndPause :
    (let t : Tx := {}; oget (preemptable openPort t).dev.eg.preempt 0 = some t ∧ bitOf ((preemptable openPort t).dev.gatesAt openPort.clk 0 0).1 0 = !t.held) ∧
    (let t : Tx := { held := true }; oget (preemptable openPort t).dev.eg.preempt 0 = some t ∧
      bitOf ((preemptable openPort t).dev.gatesAt openPort.clk 0 0).1 0 = t.held) ∧
    up.dev.pendingPart 0x11 256 = none ∧ gateWaits.dev.pendingPart 0x11 1 = some 5 ∧ oget gateWaits.dev.eg.change 0 = some ⟨0, 0⟩ ∧
    (attempts 1 2).dev.o 0x4410 3 255 = 1 ∧ nget (attempts 1 2).dev.eg.attempts 255 = 2 ∧ nget (attempts 1 3).dev.eg.attempts 255 = 3 ∧
    nget (attempts 1 0).dev.eg.attempts 255 = 0 ∧ (attempts 2 1).dev.o 0x4410 3 255 ≠ 1 ∧
    (let d := lossless.dev;
      d.oB 0x4020 1 7 = true ∧ d.o 0x4450 1 0 ≠ 0 ∧ d.slotted 0 = false ∧ d.o 0x4020 4 7 = 0 ∧
      belowDt (d.o 0x4020 3 7 + d.o 0x4450 3 7) d.sharedFree (d.oS 16 0x4020 6 7) = true ∧ d.xoffBits 0 = 0 ∧ d.o 0x4451 1 0 ≠ 0 ∧ d.o 0x4451 5 7 = 0 ∧
      d.fcClass 0 7 = 7) ∧
    0 < (withO lossless [(0x4020, 4, 7, 1)]).dev.o 0x4020 4 7 ∧ up.dev.oB 0x4020 1 7 = false ∧
    oget up.dev.eg.pauseSince 2047 = none ∧ oget (oset up.dev.eg.pauseSince 2047 (some 0)) 2047 = some 0 ∧
    (let d : Dev := { lossless.dev with eg.xoff := [(7, true)] }; d.xoffBits 0 ≠ 0) ∧
    oget (oset lossless.dev.eg.wdSince 7 (some 9)) 7 = some 9 ∧ up.dev.o 0x4451 5 7 ≠ 1 ∧ (withO up [(0x4451, 5, 7, 1)]).dev.o 0x4451 5 7 = 1 := by decide +kernel

/-! ### Witnesses: DRAM and the host (13, 14) -/

/-- Channel 47 in service, with the requests `l`. -/
def channel (l : List DramReq) : State := withO host [(0x5001, 1, 47, 2)] |> fun s => s.on (s.dev.setDramQ 47 l)
def reader : DramReq := { burst := 5, bank := 0, row := 0, write := false, at0 := 0 }

theorem witness_DramServesAndIsScrubbed :
    (withO up [(0x5001, 1, 47, 4)]).dev.chOn 47 = false ∧ (channel []).dev.chOn 47 = true ∧ (channel []).dev.dramNext 47 0 false = none ∧
    (channel [reader]).dev.dramNext 47 0 false = some (reader, false) ∧ (channel [reader]).dev.dramNext 47 0 true = none ∧
    (channel [{ reader with write := true, other := true }]).dev.dramNext 47 0 true = some ({ reader with write := true, other := true }, false) ∧
    (channel []).dev.refreshBank 47 0 = none ∧ (channel []).dev.refreshBank 47 (-8) = some 0 ∧
    ((channel []).on ((channel []).dev.setOwed 47 15 1)).dev.refreshBank 47 0 = some 15 ∧ nget (channel []).dev.dram.slot 47 % 2 = 0 ∧
    nget (nset (channel []).dev.dram.slot 47 3) 47 % 2 = 1 ∧ 47 * 2 ^ 24 + 5 ∉ (channel []).dev.dram.bad ∧
    (let s := (channel [reader, { reader with row := 3 }]).on { (channel [reader, { reader with row := 3 }]).dev with dram.openRow := [(752, some 3)] };
      s.dev.dramNext 47 (s.dev.o 0x5020 7 * uNs) false = some (reader, true) ∧ s.dev.dramNext 47 0 false = some ({ reader with row := 3 }, false)) ∧
    ((-8 : Int) < (channel []).dev.owedOf 47 15) ∧ ((channel []).dev.owedOf 47 15 + 1 < 8) ∧ (8 ≤ ((channel []).dev.setOwed 47 15 7).owedOf 47 15 + 1) ∧
    (((List.range 16).foldl (fun d k => Dev.setOwed d 47 k (-8)) (channel []).dev).owedOf 47 3 = -8) ∧
    (channel []).dev.o 0x5001 1 47 = 2 ∧ (channel []).canWrite 4 (okey 0x5001 4 47) (toBytes 1 1) = true ∧
    (∃ x, oget (oset (channel []).dev.dram.scrub 47 (some 9)) 47 = some x ∧ 9 ≤ x) ∧ oget (channel []).dev.dram.scrub 47 = none ∧
    0 < (withO up [(0x7021, 1, 47, 1)]).dev.o 0x7021 1 47 ∧ (withO up [(0x7021, 1, 47, 0)]).dev.o 0x7021 1 47 = 0 := by
  refine ⟨?_, ?_, ?_, ?_, ?_, ?_, ?_, ?_, ?_, ?_, ?_, ?_, ?_, ?_, ?_, ?_, ?_, ?_, ?_, ⟨9, ?_⟩, ?_⟩ <;> decide +kernel

/-- Ring `r` runs with 64 descriptors, and the device has read a tail of 1. -/
def ringRuns (s : State) (r limit : Nat) : State := s.on (s.dev.setRing r { size := 64, tail := 1, seen := 1, en := true, running := true, limit := limit })
def punted (s : State) (n : Nat) : State := s.on (s.dev.setPunts 15 [{ data := zeros n, units := 1 }])
/-- A descriptor of a buffer of `n` octets; an inject descriptor of `n` octets for port 0. -/
def bufferOf (n : Nat) : Bytes := zeros 8 ++ toBytes 2 n ++ zeros 54
def injectOf (n : Nat) : Bytes := zeros 8 ++ toBytes 2 n ++ zeros 22

theorem witness_RingsMovePuntsAndInjects :
    (up.dev.ring 34).en = false ∧ (up.dev.ring 34).running = false ∧ (64 ≤ 64 ∧ 16384 ≤ 16384) ∧ ((ringRuns host 15 0).dev.ring 15).running = true ∧
    host.dev.hostOk (ringFunction 0) = true ∧ up.dev.hostOk (ringFunction 0) = false ∧ powerOfTwoIn 64 65536 64 = true ∧ powerOfTwoIn 64 65536 131072 = false ∧
    (let s := host.on { host.dev with host.vectors := [(127, { count := 1, masked := false })], objs := minsert (okey 0x5410 1 127) 1 host.dev.objs };
      0 < (mget (dK ({} : Vector)) s.dev.host.vectors 127).count) ∧ ¬(0 < (mget (dK ({} : Vector)) host.dev.host.vectors 127).count) ∧
    (bufferOf 256).length = 64 ∧ up.dev.puntList 15 = [] ∧
    (let s := punted (ringRuns host 15 64) 100;
      s.dev.puntList 15 = [{ data := zeros 100, units := 1 }] ∧ (s.dev.ring 15).running = true ∧ (s.dev.ring 15).head ≠ (s.dev.ring 15).seen ∧ (s.dev.ring 15).limit ≠ 0 ∧
      64 < (zeros 100).length) ∧
    (beAt (bufferOf 256) 8 2 % 64 = 0 ∧ 256 ≤ beAt (bufferOf 256) 8 2 ∧ beAt (bufferOf 16384) 8 2 ≤ 16384) ∧ beAt (bufferOf 255) 8 2 % 64 ≠ 0 ∧
    (injectOf 60).length = 32 ∧ (ringRuns host 31 0).dev.injectNext = some 15 ∧ host.dev.injectNext ≠ some 15 ∧ injectOk (injectOf 60) = true ∧
    injectOk (injectOf 0) = false ∧ (((poolTakeOrStall 1 (poolUnits 60)).run host.clk).run host.dev).1 = true ∧
    (let s := withO host [(0x4302, 1, 1, 2 ^ 20)]; (((poolTakeOrStall 1 (poolUnits 60)).run s.clk).run s.dev).1 = false) := by decide +kernel

theorem witness_HostComesAndGoes :
    up.dev.host.perst = false ∧ (up.on { up.dev with host.perst := true }).dev.host.perst = true ∧ up.dev.o 0x5401 1 ≠ 0 ∧ up.dev.o 0x5400 1 ≠ 1 ∧
    host.dev.o 0x5400 1 = 1 ∧ (withO up [(0x5401, 1, 0, 0)]).dev.o 0x5401 1 = 0 := by decide +kernel

/-! ### Witnesses: monitoring and events (15, 16) -/

/-- A snapshot set for group 3; a snapshot of group 3 that waits for its swap. -/
def snapSet : State := up.on { up.dev with mon.snapSet := [(3, 7)] }
def latched : State := up.on { up.dev with mon.snapLatched := [(3, 7, [1, 2]), (16383, 7, [])] }

theorem witness_CountersAreSnapshotAndMonitored :
    host.canWrite 4 (okey 0x6002 1 0) (toBytes 2 16383) = true ∧ host.canWrite 4 (okey 0x6002 1 0) (toBytes 2 16384) = true ∧
    host.canWrite 4 (okey 0x6002 1 0) (toBytes 2 0xFFFF) = true ∧
    (let per := up.dev.snapPeriodic (up.dev.instantNow up.clk); up.dev.mon.snapSet.map Prod.snd ++ per.toList = []) ∧
    (let per := snapSet.dev.snapPeriodic (snapSet.dev.instantNow snapSet.clk); snapSet.dev.mon.snapSet.map Prod.snd ++ per.toList = [7]) ∧
    (latched.dev.mon.snapLatched.any (fun x => x.1 == 3)) = true ∧ (latched.dev.mon.snapLatched.any (fun x => x.1 == 4)) = false ∧
    (latched.dev.mon.snapLatched.map Prod.fst).Nodup ∧ (latched.dev.mon.snapLatched.all (fun x => decide (x.1 < 16384))) = true ∧
    up.dev.o 0x6020 1 = mget (dK 1000) up.dev.mon.bwLen 511 ∧ (withO up [(0x6020, 1, 0, 10)]).dev.o 0x6020 1 ≠ mget (dK 1000) up.dev.mon.bwLen 0 ∧
    up.dev.o 0x6030 1 63 = 0 ∧ (withO up [(0x6030, 1, 63, 1)]).dev.o 0x6030 1 63 ≠ 0 ∧ host.canWrite 4 (okey 0x6030 1 63) (toBytes 1 1) = true ∧
    host.canWrite 4 (okey 0x6030 2 63) (toBytes 4 0) = true ∧ host.canWrite 4 (okey 0x6001 1 130815) (toBytes 8 0) = true := by decide +kernel

/-- Core 31 is sampled; export buffers of Sill 1 hold two records. -/
def sampling : State := withO up [(0x6050, 1, 31, 1), (0x6050, 3, 31, 0)]
def exporting : State := withO up [(0x6070, 1, 0, 1)] |> fun s => s.on (s.dev.setExp 1 [(0, false, [1#8]), (1, true, [2#8])])

theorem witness_RecordsAreKeptAndExported :
    up.dev.oB 0x6050 1 31 = false ∧ sampling.dev.oB 0x6050 1 31 = true ∧ sampling.dev.o 0x7010 1 (640 + 31) < 3 ∧ sampling.dev.o 0x6050 3 31 = 0 ∧
    3 ≤ (withO sampling [(0x7010, 1, 671, 3)]).dev.o 0x7010 1 (640 + 31) ∧
    (let s := withO up [(0x6051, 1, 1, 1)] |> fun s => s.on { s.dev with mon.sampleN := [(1, 2 ^ 25)] };
      s.dev.o 0x6051 1 1 = 1 ∧ 2 ^ 25 ≤ nget s.dev.mon.sampleN 1) ∧ nget up.dev.mon.sampleN 1 < 2 ^ 25 ∧
    host.canWrite 4 (okey 0x6041 6 0) (toBytes 1 1) = true ∧ host.canWrite 4 (okey 0x6051 5 1) (toBytes 1 1) = true ∧ up.dev.expBuf 1 = [] ∧
    exporting.dev.expBuf 1 = [(0, false, [1#8]), (1, true, [2#8])] ∧
    (let s := (withO up [(0x6070, 0xC, 0, 1)]).on { (withO up [(0x6070, 0xC, 0, 1)]).dev with mon.expRate := [(1, (0, 1))] };
      s.dev.o 0x6070 0xC ≤ (mget (dK (0, 0)) s.dev.mon.expRate 1).2 ∧ (mget (dK (0, 0)) s.dev.mon.expRate 1).1 = s.clk.run / uS) ∧
    up.dev.oB 0x6070 1 = false ∧ exporting.dev.oB 0x6070 1 = true := by decide +kernel

def eventOf (sev : Nat) : EvMsg := ⟨5, 0x2405, sev, 0, 0, 0, false, 0, 0, 0⟩
def queued (s : State) (m : EvMsg) : State := s.on { s.dev with ev.queue := [m] }
/-- Two records in the Ledger, the older one in the later slot. -/
def stored : State := host.on { host.dev with ev.slots := [(0, some ⟨9, 0⟩), (131071, some ⟨4, 0⟩)] }

theorem witness_LedgerRecordsAndIsRead :
    up.dev.ev.queue = [] ∧ (queued up (eventOf 3)).dev.ev.queue = eventOf 3 :: [] ∧ up.dev.o 0x7010 1 678 < 3 ∧
    3 ≤ (withO up [(0x7010, 1, 678, 3)]).dev.o 0x7010 1 678 ∧ (withO host [(0x7010, 1, 678, 4)]).canWrite 4 (okey 0x6420 4 0) (toBytes 1 1) = true ∧ (eventOf 3).sev = 3 ∧ served.dev.anyCore = true ∧ up.dev.anyCore = false ∧
    served.dev.ev.slots.length < 131072 ∧ (withO up [(0x6400, 2, 5, 0)]).dev.o 0x6400 2 5 = 0 ∧ bitOf 0 3 = false ∧
    up.dev.ev.second = [] ∧ ({ up.dev with ev.second := [(5, 2)] } : Dev).ev.second = [(5, 2)] ∧ up.dev.ev.disc = [] ∧
    ({ up.dev with ev.disc := [(3, 2)] } : Dev).ev.disc ≠ [] ∧ up.dev.o 0x7010 1 679 < 3 ∧
    host.dev.pcieUp = true ∧ host.dev.hostOk (7 / 4) = true ∧ (match host.dev.readCheck 1 (okey 0x6420 2 1) with | .ok _ => true | .error _ => false) = true ∧
    host.dev.dict.pegIndet.contains (okey 0x6420 2 1) = false ∧ oldestSlot (fun x => decide (0 ≤ x.seq)) host.dev.ev.slots = none ∧
    oldestSlot (fun x => decide (0 ≤ x.seq)) stored.dev.ev.slots = some (131071, ⟨4, 0⟩) ∧
    oldestSlot (fun x => decide (5 ≤ x.seq)) stored.dev.ev.slots = some (0, ⟨9, 0⟩) ∧ oldestSlot (fun x => decide (10 ≤ x.seq)) stored.dev.ev.slots = none ∧
    oget stored.dev.ev.slots 131071 = some ⟨4, 0⟩ ∧ ([0, 131071].all (· < 131072)) = true ∧
    ([0, 1, 4, 5].all (fun v => host.canWrite 4 (okey 0x6420 4 0) (toBytes 1 v))) = true := by decide +kernel

/-! ### Witnesses: firmware, cores, keys, debug (17) -/

/-- A core serves; plane M owns the update in state `st`, of an image of 300 octets. -/
def updating (owner st : Nat) : State := withO host [(0x1460, 1, 0, 2), (0x1420, 1, 0, owner), (0x1420, 2, 0, 1), (0x1420, 4, 0, 300), (0x1420, 6, 0, st)]

/-! ### An image and a token that pass (R423, R441): signed with the key of seed 0 -/

/-- The check of what `h ++ b` holds within `h`. -/
theorem byteAt_left (h b : Bytes) (i : Nat) (hi : i < h.length) : byteAt (h ++ b) i = byteAt h i := by
  simp [byteAt, List.getElem?_append_left hi]

theorem beAt_left (h b : Bytes) (o n : Nat) (hi : o + n ≤ h.length) : beAt (h ++ b) o n = beAt h o n := by
  unfold beAt
  induction n with
  | zero => rfl
  | succ n ih =>
    rw [List.range_succ, List.foldl_append, List.foldl_append, ih (by omega)]
    simp only [List.foldl_cons, List.foldl_nil, byteAt_left h b (o + n) (by omega)]

theorem ofBytes_slhPublic (seed : Nat) : ofBytes (toBytes 64 (slhPublic seed)) = slhPublic seed := by
  have h : slhPublic seed < 256 ^ 64 := by
    have := ofBytes_lt (slhPart seed 2 ++ slhRoot seed)
    rw [List.length_append, slhPart_length _ _ (by decide), slhRoot_length] at this
    rw [slhPublic]; exact this
  rw [ofBytes_toBytes, Nat.mod_eq_of_lt h]

def testKey : Bytes := toBytes 64 (slhPublic 0)

/-- The head of an image of firmware whose payload is one octet (its digest as published, FIPS 202). -/
def imageHead : Bytes :=
  toBytes 4 0x494B494D ++ [1#8, 1#8, 0#8, 0#8] ++ toBytes 4 5 ++ [0#8, 0#8, 0#8, 0#8] ++ toBytes 4 1 ++ toBytes 2 0 ++ toBytes 2 65535 ++ ascii "DQ8256" ++ zeros 2 ++
  toBytes 32 0xb80ae24d9eb153769f5255dd09ac372349aa2571ae69543fa6a7a837532d06f2
def imageSig : Bytes := slhSign 0 0 (slhMessage "ULUASH-IMAGE" (imageHead ++ testKey))
def goodImage : Bytes := imageHead ++ (testKey ++ (imageSig ++ [7#8]))

/-- A device whose fuses hold digest `v` for key slot 0. -/
def fusedWith (v : Nat) : State := served.on { served.dev with
  objs := [(okey 0x1000 4 0, 0), (okey 0x1000 5 0, 0), (okey 0x1400 2 0, v), (okey 0x1400 3 0, 1), (okey 0x1400 4 0, 0), (okey 0x1460 1 0, 2)] }
def fused : State := fusedWith (ofBytes (shake256 testKey 32))

theorem fusedWith_holds (v : Nat) : (fusedWith v).dev.o 0x1400 2 0 = v ∧ (fusedWith v).dev.o 0x1400 3 0 = 1 ∧ (fusedWith v).dev.o 0x1400 4 0 = 0 ∧
    (fusedWith v).dev.o 0x1000 4 0 = 0 ∧ (fusedWith v).dev.o 0x1000 5 0 = 0 := ⟨rfl, rfl, rfl, rfl, rfl⟩

theorem witness_image : fused.dev.imageCheck 1 goodImage = none := by
  obtain ⟨h1, h2, h3, h4, -⟩ := fusedWith_holds (ofBytes (shake256 testKey 32))
  have hl : imageHead.length = 64 := by decide +kernel
  have kl : testKey.length = 64 := toBytes_length _ _
  have sl : imageSig.length = 29792 := slhSign_length _ _ _
  have be : ∀ o n, o + n ≤ 64 → beAt goodImage o n = beAt imageHead o n := fun o n h => beAt_left _ _ o n (by rw [hl]; exact h)
  have bt : ∀ i, i < 64 → byteAt goodImage i = byteAt imageHead i := fun i h => byteAt_left _ _ i (by rw [hl]; exact h)
  have name : slice goodImage 24 8 = slice imageHead 24 8 := slice_append_left _ _ _ _ (by rw [hl]; decide)
  have len : goodImage.length = 29921 := by simp [goodImage, hl, kl, sl]
  have k : slice goodImage 64 64 = testKey := by
    have := slice_append_right imageHead (testKey ++ (imageSig ++ [7#8])) 0 64
    rw [hl, Nat.add_zero] at this
    rw [goodImage, this, slice_all _ _ _ kl]
  have front : goodImage.take 128 = imageHead ++ testKey := by
    rw [goodImage, ← List.append_assoc, show 128 = (imageHead ++ testKey).length by simp [hl, kl], List.take_left]
  have sig : slice goodImage 128 29792 = imageSig := by
    have := slice_append_right (imageHead ++ testKey) (imageSig ++ [7#8]) 0 29792
    rw [show (imageHead ++ testKey).length = 128 by simp [hl, kl], Nat.add_zero, List.append_assoc] at this
    rw [goodImage, this, slice_all _ _ _ sl]
  have pay : goodImage.drop 29920 = [7#8] := by
    rw [goodImage, ← List.append_assoc, ← List.append_assoc, show 29920 = (imageHead ++ testKey ++ imageSig).length by simp [hl, kl, sl], List.drop_left]
  have ver : slhVerify (ofBytes testKey) (slhMessage "ULUASH-IMAGE" (imageHead ++ testKey)) imageSig = true := by
    rw [testKey, ofBytes_slhPublic]; exact slhVerify_sign _ _ _
  have head : beAt imageHead 0 4 = 0x494B494D ∧ byteAt imageHead 4 = 1 ∧ beAt imageHead 13 3 = 0 ∧ byteAt imageHead 5 = 1 ∧ byteAt imageHead 6 = 0 ∧
      byteAt imageHead 7 = 0 ∧ beAt imageHead 16 4 = 1 ∧ slice imageHead 24 8 = ascii "DQ8256" ++ [0#8, 0#8] ∧ beAt imageHead 20 2 = 0 ∧
      beAt imageHead 22 2 = 65535 ∧ byteAt imageHead 12 = 0 ∧ beAt imageHead 32 32 = ofBytes (shake256 [7#8] 32) := by decide +kernel
  obtain ⟨a1, a2, a3, a4, a5, a6, a7, a8, a9, a10, a11, a12⟩ := head
  simp only [Dev.imageCheck, imgSvn, imgDigest, Dev.siliconStep, len, pay, k, front, sig, name, be 0 4 (by decide), be 13 3 (by decide), be 16 4 (by decide),
    be 20 2 (by decide), be 22 2 (by decide), be 32 32 (by decide), bt 4 (by decide), bt 5 (by decide), bt 6 (by decide), bt 7 (by decide), bt 12 (by decide),
    a1, a2, a3, a4, a5, a6, a7, a8, a9, a10, a11, a12, ver]
  simp only [fused, h1, h2, h3, h4]
  simp

theorem witness_UpdatesFollowTheirState :
    host.canWrite 4 (okey 0x1420 3 0) (zeros 256) = true ∧ host.dev.updServed (host.dev.o 0x1420 2) = false ∧
    (updating 2 1).dev.updServed 1 = true ∧ (updating 1 1).dev.updState ≠ 0 ∧ (updating 1 1).dev.o 0x1420 1 ≠ 4 / 4 + 1 ∧ (updating 2 1).dev.o 0x1420 1 = 4 / 4 + 1 ∧
    (updating 0 0).dev.updState = 0 ∧ (updating 0 0).dev.o 0x1420 1 = 0 ∧ ceilDiv ((updating 2 1).dev.o 0x1420 4) 256 = 2 ∧
    (updating 2 1).canWrite 4 (okey 0x1420 3 1) (zeros 256) = true ∧ (updating 2 1).canWrite 4 (okey 0x1420 3 2) (zeros 256) = true ∧
    ([1, 2, 3, 4].all (fun v => (updating 2 6).canWrite 4 (okey 0x1420 5 0) (toBytes 1 v))) = true ∧
    (let d := (updating 1 1).dev; d.updState ≠ 0 ∧ d.o 0x1420 1 ≠ 0 ∧ d.o 0x1420 1 ≠ 4 / 4 + 1 ∧ ¬(d.sec.updLast + d.o 0x1020 7 * uS ≤ 0) ∧
      d.sec.updLast + d.o 0x1020 7 * uS ≤ d.o 0x1020 7 * uS) ∧
    (updating 2 3).dev.sec.updImage < 2 ∧ ¬((updating 2 3).dev.o 0x1460 1 0 = 2 ∧ (updating 2 3).dev.o 0x1460 1 1 = 2) ∧
    ((withO (updating 2 3) [(0x1460, 1, 1, 2)]).dev.o 0x1460 1 0 = 2 ∧ (withO (updating 2 3) [(0x1460, 1, 1, 2)]).dev.o 0x1460 1 1 = 2) ∧
    (1, 3) ∉ [(1, 1), (2, 3), (3, 6), (4, 1), (4, 3), (4, 4), (4, 6)] ∧ (updating 2 2).dev.updState = 2 ∧ (updating 2 2).dev.sec.staged = none ∧
    (updating 2 2).dev.imageCheck 1 (zeros 300) = some (7, 0) ∧ (updating 2 6).dev.updState = 6 := by decide +kernel

/-- Slot 0 of the firmware holds `b`. -/
def flashed (b : Bytes) : State := up.on { up.dev with sec.flash := [(0, some b)], sec.recA := BootRec.bytes {}, sec.recB := BootRec.bytes {} }

theorem witness_CoresStartAndRestart :
    (withO up [(0x1460, 1, 1, 4)]).dev.o 0x1460 1 1 = 4 ∧ (withO up [(0x1460, 1, 0, 2)]).dev.o 0x1460 1 0 ≠ 1 ∧
    (withO up [(0x1460, 1, 0, 1)]).dev.o 0x1460 1 0 = 1 ∧ oget up.dev.sec.bootSel 0 = none ∧ ¬((flashed []).dev.sec.boot.fwTry = 1) ∧
    (flashed []).dev.sec.boot.fwActive < 2 ∧ (flashed [1#8]).dev.image 0 = some [1#8] ∧ (flashed [1#8]).dev.imageCheck 1 [1#8] ≠ none ∧
    (flashed [1#8]).dev.image 1 = none ∧ oget (oset up.dev.sec.bootSel 1 (some 0)) 1 = some 0 ∧ served.dev.inService 0 = true ∧ up.dev.inService 0 = false ∧
    up.dev.sec.updSeq = [] ∧ host.canWrite 4 (okey 0x1460 4 1) (toBytes 1 1) = true ∧ (withO up [(0x1460, 1, 1, 5)]).dev.o 0x1460 1 1 = 5 ∧
    (let d := (withO host [(0x1460, 1, 0, 2), (0x1460, 1, 1, 2)]).dev; d.o 0x1460 1 1 = 2 ∧ d.o 0x1460 1 (1 - 1) = 2) := by decide +kernel

theorem witness_KeysAreErasedAndReportsSigned :
    host.canWrite 4 (okey 0x1430 3 0) (toBytes 1 1) = true ∧ host.canWrite 0 (okey 0x1140 2 63) (toBytes 32 5) = true ∧ host.dev.commitsFull = false ∧
    host.canWrite 4 (okey 0x1430 2 0) (toBytes 1 1) = true ∧ host.canWrite 4 (okey 0x1450 2 0) (toBytes 32 9) = true ∧
    host.canWrite 4 (okey 0x1450 3 1) (toBytes 32 9) = true ∧ host.dev.anyCore = false ∧ served.dev.anyCore = true ∧ served.dev.sec.secretBad = false ∧
    served.dev.sec.attQueue = [] ∧ ({ served.dev with sec.attQueue := [(0, 7)] } : Dev).sec.attQueue.any (fun q => q.1 == 4 / 4) = false ∧
    up.dev.o 0x1450 4 1 ≠ 2 ∧ (withO up [(0x1450, 4, 1, 2)]).dev.o 0x1450 4 1 = 2 := by decide +kernel

/-- The head of a token: slot 0, every scope, 60 s, for the serial number and the challenge 0. -/
def tokenHead : Bytes := [1#8, 0#8, 7#8, 0#8] ++ toBytes 4 60 ++ zeros 56
def goodToken : Bytes := tokenHead ++ slhSign 0 0 (slhMessage "ULUASH-DEBUG" tokenHead)

theorem chunks_join (t : Bytes) (n : Nat) : ((List.range n).flatMap fun k => slice t (256 * k) 256) = t.take (256 * n) := by
  induction n with
  | zero => rfl
  | succ n ih => rw [List.range_succ, List.flatMap_append, ih, List.flatMap_singleton, slice, Nat.mul_succ, List.take_add]

theorem oget_chunks {α : Type} (f : Nat → α) (c n a k : Nat) (h : a ≤ k ∧ k < a + n) :
    oget ((List.range' a n).map fun k => (c + k, some (f k))) (c + k) = some (f k) := by
  induction n generalizing a with
  | zero => omega
  | succ n ih =>
    rw [List.range'_succ, List.map_cons, oget, mget]
    split
    · rw [show k = a by omega]
    · exact ih (a + 1) (by omega)

/-- Plane M has submitted a token. -/
def tokenedWith (t : Bytes) : State := fused.on { fused.dev with
  sec.token := (List.range' 0 117).map (fun k => (1 * 117 + k, some (slice t (256 * k) 256))), sec.verifying := some (1, 0) }
def tokened : State := tokenedWith goodToken

theorem tokenOf_tokened (t : Bytes) (h : t.length = 29856) : (tokenedWith t).dev.tokenOf 1 = t := by
  have part : ∀ k ∈ List.range 117, (oget (tokenedWith t).dev.sec.token (1 * 117 + k)).getD (List.replicate 256 0#8) = slice t (256 * k) 256 := by
    intro k hk
    have := oget_chunks (fun k => slice t (256 * k) 256) (1 * 117) 117 0 k ⟨Nat.zero_le _, by simpa using hk⟩
    rw [show (tokenedWith t).dev.sec.token = (List.range' 0 117).map (fun k => (1 * 117 + k, some (slice t (256 * k) 256))) from rfl, this]
    rfl
  rw [Dev.tokenOf, List.flatMap_def, List.map_congr_left part, ← List.flatMap_def, chunks_join, List.take_take]
  exact List.take_of_length_le (by rw [h]; decide)

theorem witness_token (h : Config.slotKey 0 = slhPublic 0) : tokened.dev.tokenCause (tokened.dev.tokenOf 1) 0 = none := by
  obtain ⟨h1, h2, -, -, h5⟩ := fusedWith_holds (ofBytes (shake256 testKey 32))
  have hl : tokenHead.length = 64 := by decide
  have be : ∀ o n, o + n ≤ 64 → beAt goodToken o n = beAt tokenHead o n := fun o n h => beAt_left _ _ o n (by rw [hl]; exact h)
  have bt : ∀ i, i < 64 → byteAt goodToken i = byteAt tokenHead i := fun i h => byteAt_left _ _ i (by rw [hl]; exact h)
  have front : goodToken.take 64 = tokenHead := by rw [goodToken, ← hl, List.take_left]
  have sig : goodToken.drop 64 = slhSign 0 0 (slhMessage "ULUASH-DEBUG" tokenHead) := by rw [goodToken, ← hl, List.drop_left]
  have head : byteAt tokenHead 0 = 1 ∧ byteAt tokenHead 1 = 0 ∧ byteAt tokenHead 2 = 7 ∧ byteAt tokenHead 3 = 0 ∧ beAt tokenHead 4 4 = 60 ∧
      beAt tokenHead 56 8 = 0 ∧ beAt tokenHead 8 16 = 0 ∧ beAt tokenHead 24 32 = 0 := by decide +kernel
  obtain ⟨a1, a2, a3, a4, a5, a6, a7, a8⟩ := head
  rw [show tokened = tokenedWith goodToken from rfl, tokenOf_tokened goodToken (by rw [goodToken, List.length_append, slhSign_length, hl])]
  simp only [Dev.tokenCause, Dev.serial, front, sig, be 4 4 (by decide), be 56 8 (by decide), be 8 16 (by decide), be 24 32 (by decide), bt 0 (by decide), bt 1 (by decide),
    bt 2 (by decide), bt 3 (by decide), a1, a2, a3, a4, a5, a6, a7, a8, h, slhVerify_sign]
  show (if _ then _ else if (0 : Nat) ≠ (fusedWith _).dev.o 0x1000 5 0 then _ else if _ then _ else if (fusedWith _).dev.o 0x1400 3 0 ≠ 1 then _ else
    if ofBytes (shake256 testKey 32) ≠ (fusedWith _).dev.o 0x1400 2 0 ∨ _ then _ else none) = none
  simp only [h1, h2, h5]
  simp

theorem witness_DebugIsUnlockedByToken :
    host.canWrite 4 (okey 0x8000 3 1) (toBytes 1 1) = true ∧ host.canWrite 4 (okey 0x8000 3 1) (toBytes 1 2) = true ∧ host.dev.sec.verifying = none ∧
    tokened.dev.sec.verifying = some (1, 0) ∧
    (host.on { host.dev with sec.verifying := some (1, 0) }).canWrite 4 (okey 0x8000 3 1) (toBytes 1 1) = true ∧ up.dev.tokenCause (zeros 29856) 0 = some 1 ∧
    up.dev.sec.dbgEnd = none ∧ ({ up.dev with sec.dbgEnd := some 3 } : Dev).sec.dbgEnd ≠ none := by decide +kernel

/-! ### Witnesses: resets, islands, supplies (18, 19) -/

def commanded (k : Nat) : State := up.on { up.dev with power.cmds := [(k, 1)] }

theorem witness_ResetsBeginAndEnd :
    (Instr.powerUp [0, 131071] [] [] [] [] [] [] []).wf = true ∧ up.dev.power.porst = false ∧ State.reset.dev.power.porst = true ∧
    ([1, 2, 3].all (fun v => host.canWrite 4 (okey 0x7000 1 0) (toBytes 1 v))) = true ∧
    (withO up [(0x7000, 2, 0, 3)]).dev.o 0x7000 2 = 3 ∧ ({ up.dev with power.warm := true } : Dev).power.warm = true ∧ up.dev.resetPending 2 = none ∧
    (commanded 1).dev.resetPending 1 = some 1 ∧ (commanded 2).dev.resetPending 2 = some 1 ∧ (commanded 3).dev.resetPending 3 = some 1 ∧
    (commanded 2).dev.o 0x7000 2 = 2 ∧ (Instr.deviceReset [] [] [] [] [] [] []).wf = true ∧ ([0, 383].all (· < 384)) = true ∧
    (let d : Dev := { up.dev with sec.revoked := [3], sec.fuses := [(1, 2)] }; (∀ k ∈ d.sec.revoked, k < 4) ∧ (∀ e ∈ d.sec.fuses, e.1 < 2)) := by decide +kernel

theorem witness_CrossingsStallAndRecover :
    (let st := fun (i v : Nat) => (withO up [(0x7010, 1, i, v)]).dev.o 0x7010 1 i;
      st 679 2 = 2 ∧ st 0 3 = 3 ∧ st 679 1 ≠ 2 ∧ st 576 2 = 2 ∧ st 575 2 = 2 ∧ st 591 2 = 2 ∧ st 675 2 = 2) ∧ up.dev.o 0x7000 2 = 2 := by decide +kernel

theorem witness_RailsAndSensorsTrip :
    up.dev.o 0x7010 1 679 < 3 ∧ 3 ≤ (withO up [(0x7010, 1, 679, 4)]).dev.o 0x7010 1 679 ∧ railFirst 12 = true ∧ railFirst 0 = false ∧
    (let n := (railSpec 0).1; ¬(n * 100 < n * (100 - (railSpec 0).2)) ∧ 0 * 100 < n * (100 - (railSpec 0).2) ∧ 0 * 100 < n * 92) ∧
    (let d : Dev := { up.dev with power.railFar := [(0, 9)], power.railOut := [(0, 999)], power.hot := [(15, 9)] };
      nget d.power.railFar 0 + 1 = 10 ∧ nget d.power.railOut 0 + 1 = 1000 ∧ nget d.power.hot 15 + 1 = 10) ∧
    ((List.range 16).all (fun k => decide (up.dev.sensor k + 3 * 65536 ≤ (up.dev.o 0x7042 3 : Int) * 65536))) = true ∧
    up.dev.o 0x7041 1 ≤ up.dev.o 0x7041 3 ∧ (let d := (withO up [(0x7041, 1, 0, 2 ^ 31)]).dev; d.o 0x7041 3 < d.o 0x7041 1) := by decide +kernel

theorem witness_SmbusAnswersItsCommands : (Instr.smbSensor 15).wf = true ∧ (Instr.smbRailVoltage 12).wf = true ∧ (Instr.smbRailCurrent 12).wf = true := by
  decide

/-! ### Witnesses: reads and table operations on every form -/

theorem witness_ReadsAndTableOperationsComplete :
    host.dev.pcieUp = true ∧ host.dev.hostOk 1 = true ∧ host.dev.hostOk 0 = true ∧ (withO up [(0x5401, 1, 0, 0)]).dev.pcieUp = false ∧
    (up.dev.hostOk 0 = false ∧ up.dev.pcieUp = true) ∧
    (match host.dev.readCheck 1 (okey 0x0FFF 1 0) with | .ok _ => false | .error e => e == 0x101) = true ∧
    (match host.dev.readCheck 1 (okey 0x2400 1 0) with | .ok r => r.staged | .error _ => false) = true ∧
    (match host.dev.readCheck 1 (okey 0x3430 1 0) with | .ok r => !r.staged | .error _ => false) = true ∧
    (match host.dev.readCheck 1 (okey 0x6420 2 1) with | .ok r => !r.staged | .error _ => false) = true ∧
    3 ≤ (withO host [(0x7010, 1, 678, 4)]).dev.o 0x7010 1 678 ∧ ¬3 ≤ host.dev.o 0x7010 1 678 ∧
    (Target.bar 0 0xC).wf = true ∧ (Target.page 16383 511).wf = true ∧ (match up.dev.barReg 0 0xC with | some (.num n v) => n == 4 && v == 0 | _ => false) = true ∧
    (match up.dev.barReg 1 0x1FF with | some (.bytes _ i) => i == 255 | _ => false) = true ∧ (up.dev.barReg 0 0xFFFFC).isNone = true ∧
    up.dev.oB 0x6000 2 16383 = false ∧ (withO up [(0x6000, 2, 16383, 1)]).dev.oB 0x6000 2 16383 = true ∧
    (up.dev.tblWin 31).status ≠ twBusy ∧ ((up.dev.setTblWin 17 { status := twBusy }).tblWin 17).status = twBusy ∧
    host.dev.hostOk (16 / 16) = true ∧ up.dev.hostOk (15 / 16) = false ∧
    (host.dev.tblLoad 16 0x3FFF 1 1 false 0 []).tableCheck (tblop 0x3FFF []) ≠ none ∧
    (host.dev.tblLoad 16 0x3440 1 1 false 0 []).tableCheck (tblop 0x3440 []) = none ∧
    (host.dev.tblLoad 16 0x3800 1 1 false 0 []).tableCheck (tblop 0x3800 []) = none := by decide +kernel

/-! ### Witnesses: further clauses -/

/-- Monitor 63 follows quantity `q` at scope 0, and takes in the samples `l`. -/
def monitored (q : Nat) (l : List (Nat × Nat × Nat)) : State := withO up [(0x6030, 1, 63, q), (0x6030, 3, 63, 1000)] |> fun s => s.on { s.dev with mon.feed := l }

theorem witness_further_timed :
    (locked.on { locked.dev with time.ppsOut := true, time.ppsRise := 0 }).dev.time.ppsOut = true ∧ locked.dev.o 0x1820 13 = 0 ∧ locked.dev.o 0x1820 1 = 1 ∧
    locked.dev.o 0x7000 2 ≠ 3 ∧ locked.dev.o 0x1800 2 = 2 ∧ (withO locked [(0x7000, 2, 0, 3)]).dev.o 0x7000 2 = 3 ∧
    (withO up [(0x1460, 1, 1, 3)]).dev.o 0x1460 1 1 = 3 ∧ findLimit up.dev.ev.limits 0x7041 0 = none ∧ up.dev.oB 0x6400 1 610 = true ∧
    up.dev.oB 0x6400 1 611 = true ∧ oget up.dev.ev.held 611 = none ∧
    (let d := (withO up [(0x2410, 7, 9, 500)]).dev; d.o 0x2400 3 9 ≠ 5 ∧ d.figure 9 ≤ figUnit * d.o 0x2410 7 9) := by decide +kernel

theorem witness_further_transport :
    slottedPort.dev.plumbSends 0 = true ∧ up.dev.plumbSends 0 = false ∧ ((slottedPort.dev.lineOf 0).filter slottedPort.dev.plumbSends).headD 0 = 0 ∧
    up.dev.pgValid 0 = false ∧ groupUp.dev.o 0x28C1 8 1023 = 0 ∧ (learns.dev.bays.learnQ = []) ∧ (up.dev.fetches 0).find? (fun x => !x.task && !up.dev.fetchWaits 0 x) = none ∧
    up.dev.dram.due = [] ∧ up.dev.joinery.patchNext = none ∧ up.dev.sec.patching = false ∧ oget up.dev.joinery.apply 1 = none := by decide +kernel

theorem witness_further_memory :
    (let d := (channel []).dev; nget d.dram.track 47 = 0 ∧ (∀ x ∈ d.dram.fill, (d.segAt (x / 1536) (x % 1536)).1 ≠ 47) ∧ d.dram.due = []) ∧
    (let d : Dev := { (channel []).dev with dram.track := [(47, 2)] }; 0 < nget d.dram.track 47) ∧
    (let d : Dev := { up.dev with dram.fill := [824] }; nget d.dram.track 8 = 0 ∧ ∃ x ∈ d.dram.fill, (d.segAt (x / 1536) (x % 1536)).1 = 8) ∧
    reader.mute = false ∧ ({ reader with mute := true } : DramReq).mute = true ∧ (up.dev.dramHeld 47).length = 0 := by decide +kernel

theorem witness_further_host :
    (withO up [(0x5401, 1, 0, 0)]).dev.pcieUp = false ∧ up.dev.pcieUp = true ∧ (ringRuns up 7 0).dev.ring 7 = { size := 64, tail := 1, seen := 1, en := true, running := true } ∧
    (let s := ringRuns host 31 0; s.dev.injectNext = some 15 ∧ (oget s.dev.yard.poolStall 1).isSome = false ∧ s.dev.poolRoom 1 1 = true) ∧
    (let s := withO (ringRuns host 31 0) [(0x4302, 1, 1, 2 ^ 20)]; s.dev.injectNext = some 15 ∧ s.dev.poolRoom 1 1 = false) ∧
    host.dev.o 0x5400 1 = 1 ∧ up.dev.o 0x5400 1 ≠ 1 ∧ up.dev.o 0x5401 1 ≠ 0 ∧ (withO up [(0x5401, 1, 0, 0)]).dev.o 0x5401 1 = 0 ∧
    up.dev.host.busMaster = false ∧ (Target.half 16383 1023).wf = true ∧ (withO up [(0x6000, 2, 16383, 1)]).dev.oB 0x6000 2 16383 = true := by decide +kernel

theorem witness_further_monitors :
    (monitored 4 []).dev.o 0x6030 1 63 = 4 ∧ (monitored 7 []).dev.o 0x6030 1 63 = 7 ∧ (monitored 8 []).dev.o 0x6030 1 63 = 8 ∧
    (monitored 1 []).dev.mon.feed.filter (fun x => x.1 == 63) = [] ∧
    (monitored 1 [(63, 0, 9)]).dev.mon.feed.filter (fun x => x.1 == 63) = [(63, 0, 9)] ∧ (monitored 1 []).dev.monitorsOf 1 0 = [63] ∧
    (let d : Dev := { (monitored 1 []).dev with mon.ended := [(63, 1)] }; nget d.mon.ended 63 ≠ 0 ∧ d.instantNow up.clk / (d.o 0x6030 3 63 * uMs) = 0) ∧
    nget (monitored 1 []).dev.mon.ended 63 = 0 ∧ ([(63, 9)].filter (fun x => x.1 == 63)) = [(63, 9)] ∧
    (threaded sampling 511 { st := 1 }).dev.o 0x6050 3 31 = 0 ∧ (sampling.dev.thr 511).st ≠ 1 ∧
    (withO sampling [(0x6050, 3, 31, 5)]).dev.o 0x6050 3 31 ≠ 0 ∧ (∀ x, x < 16 → ((withO sampling [(0x6050, 3, 31, 5)]).dev.thr (31 * 16 + x)).st = 0) := by
  decide +kernel

theorem witness_further_ledger :
    (let d := (withO host [(0x4302, 1, 15, 2 ^ 20)]).dev; d.poolRoom 15 1 = false) ∧ host.dev.poolRoom 15 1 = true ∧ host.dev.ev.held = [] ∧
    (let d : Dev := { stored.dev with ev.rotten := [131071] };
      oldestSlot (fun x => decide (d.o 0x6420 1 1 ≤ x.seq)) d.ev.present = some (131071, ⟨4, 0⟩) ∧ 131071 ∈ d.ev.rotten) ∧
    stored.dev.ev.rotten.contains 131071 = false := by decide +kernel

theorem witness_further_security :
    (let d : Dev := { (updating 2 3).dev with sec.patching := true }; d.sec.patching = true) ∧ (updating 2 3).dev.sec.patching = false ∧
    (let d : Dev := { (updating 2 3).dev with sec.updImage := 2 }; d.sec.updImage = 2 ∨ d.sec.updImage = 3) ∧ (updating 2 3).dev.sec.updImage < 2 ∧
    (let d : Dev := { (withO host [(0x1460, 1, 0, 2), (0x1460, 1, 1, 2)]).dev with sec.updSeq := [0, 1] }; d.sec.updRun = false ∧ d.sec.updSeq = 0 :: [1] ∧
      d.o 0x1460 1 (1 - 0) = 2 ∧ d.o 0x1460 1 0 = 2) ∧
    (let d : Dev := { served.dev with sec.updSeq := [0, 1] }; d.sec.updSeq = 0 :: [1] ∧ d.o 0x1460 1 (1 - 0) ≠ 2) ∧
    (let d := (withO host [(0x1460, 1, 0, 5)]).dev; d.o 0x1460 1 0 = 5) ∧
    bootOf (BootRec.bytes {}) = some {} ∧ bootOf [] = none ∧ bootOf (zeros 64) = none ∧ beAt (zeros 64) 60 4 ≠ crc32c ((zeros 64).take 60) := by decide +kernel

theorem witness_further_supplies :
    (let d := (withO up [(0x7010, 1, 17, 3)]).dev; d.o 0x7010 1 17 = 3 ∧ 590 ∉ mget (dK []) d.power.stalledBy 17) ∧
    (let d : Dev := { (withO up [(0x7010, 1, 17, 3)]).dev with power.stalledBy := [(17, [8])] }; 8 ∈ mget (dK []) d.power.stalledBy 17) ∧
    State.reset.dev.power.porst = true ∧ railFirst 0 = false ∧ up.dev.power.porst = false ∧
    (up.dev.o 0x7010 1 679 < 3 ∧ nget up.dev.power.railOut 10 = 0 ∧ nget up.dev.power.railOut 11 = 0) ∧
    (let d : Dev := { up.dev with power.railOut := [(11, 1)] }; nget d.power.railOut 11 ≠ 0) ∧
    up.dev.smbAlert = false ∧ ({ up.dev with power.therm := true } : Dev).smbAlert = true := by decide +kernel

/-! ### The spec's worked examples, and single steps -/

/-- R345's example: burst 4,549,634 under order 1 is row 8,886, bank 6, column 2. -/
theorem test_burst_place : burstPlace 1 4549634 = (6, 8886, 2) := by decide +kernel

/-- R344's example: segment 824 lies by default on channel 8 at position 34. -/
theorem test_segment_default : up.dev.segAt 0 824 = (8, 34) := by decide +kernel

/-- R164's example: LEN_EXPR 010Eh of an IPv4 header with IHL 5 gives 20 octets; 021Fh with LEN_ADD 8 and a field of 2 gives 24. -/
theorem test_header_lengths : hdrLen ([0#8, 0#8, 1#8, 0x0E#8, 0#8] ++ zeros 199) ([0x45#8] ++ zeros 59) 0 = some 20 ∧
    hdrLen ([0#8, 0#8, 2#8, 0x1F#8, 8#8] ++ zeros 199) ([6#8, 2#8] ++ zeros 58) 0 = some 24 := by decide +kernel

/-- R246's example: the word of address 1,200. -/
theorem test_microword_fields : let w := 0x096281884000000000000000026000000005
    wNext w = 0x4B1 ∧ wBrc w = 16 ∧ wAlu0 w / 2 ^ 10 % 32 = 4 ∧ wAlu0 w / 32 % 32 = 4 ∧ wClp w = 0x130 ∧ wImm w = 1 ∧ wCkp w = 1 ∧ wRefused w = false := by
  decide +kernel

/-- R141's example: 63 of 1,024 violations over 4,095 blocks are about 2.004 × 10^-6. -/
theorem test_ber_estimate : (berEst 63 128 4095 + 500) / 1000 = 2004 := by decide +kernel

/-- R466's example: the factor is 0.732 at 85 °C and 1.355 at 95 °C. -/
theorem test_life_factor : (lifeFactor (85 * 65536) * 10000 / 2 ^ 64 + 5) / 10 = 732 ∧ (lifeFactor (95 * 65536) * 10000 / 2 ^ 64 + 5) / 10 = 1355 := by
  decide +kernel

/-- R169's example: the lower pair is D, so DIR is 1, and 0 for the reply; both have one hash. -/
theorem test_hash_direction :
    let s := withO up [(0x3050, 1, 0, 1), (0x3050, 2, 0, 0), (0x3050, 3, 0, 1), (0x3050, 4, 0, 2), (0x3050, 5, 0, 3)]
    let a := s.dev.hash 0 0 [(0, 0xC6336414), (1, 0xC0000207), (2, 443), (3, 51000)] 0
    let b := s.dev.hash 0 0 [(0, 0xC0000207), (1, 0xC6336414), (2, 51000), (3, 443)] 0
    a.dir = 1 ∧ b.dir = 0 ∧ a.hash = b.hash ∧ a.aPort = 51000 := by decide +kernel

/-- R59's example: 300 follows 299; R43's comparison at the wrap. -/
theorem test_sequence_and_epoch : seqOk 299 1 300 = true ∧ seqOk 300 1 300 = false ∧ epochHigher 88401 88112 = true := by decide +kernel

/-- The check values of the two CRCs that the spec names. -/
theorem test_crc : crc32 (ascii "123456789") = 0xCBF43926 ∧ crc32c (ascii "123456789") = 0xE3069283 := by decide +kernel

/-- R84's example: the figure in thousandths at the four losses of signal, and where it falls to 1,500. -/
theorem test_dampening : (figDecay 1000000 5 1000 + 50) / 100 = 8706 ∧ (figDecay 1870550 5 1000 + 50) / 100 = 16284 ∧
    (figDecay 2628404 5 1000 + 50) / 100 = 22882 ∧ 1500000 < figDecay 3288159 5 5661 ∧ figDecay 3288159 5 5662 ≤ 1500000 ∧
    figDecay 3288159 5 5662 / 100 = 14999 := by decide +kernel

/-- R81: enabling a port takes it from state 0 to state 1. -/
theorem test_port_enabled : gives (.portAdmin 4 17 true) host (fun t => t.dev.o 0x2400 3 17 == 1 && t.dev.o 0x2400 2 17 == 1) = true := by decide +kernel

/-- R24, R36: a staged write takes the bank and leaves the lit value; the commit takes epoch 1 and the plane's bank swaps. -/
theorem test_staged_write : gives (.write (.obj 4 (okey 0x2400 1 0)) (toBytes 1 6)) host (fun t =>
    (t.dev.bank 9).owner == 2 && t.dev.o 0x2400 1 0 == host.dev.o 0x2400 1 0) = true := by decide +kernel
theorem test_commit : gives (.commit 4) owning (fun t => t.dev.dict.epoch == 1 && decide (t.dev.dict.commits.map Commit.epoch = [1])) = true := by
  decide +kernel

/-- R30, R33: a write to an object that is read-only returns 0202h; a short one to one that is writable 0301h. -/
theorem test_write_refused : gives (.write (.obj 4 (okey 0x2400 3 0)) [1#8]) host (fun t => (t.dev.win 4).status == 0x202) = true ∧
    gives (.write (.obj 4 (okey 0x2400 2 0)) [1#8, 1#8]) host (fun t => (t.dev.win 4).status == 0x301) = true := by decide +kernel

/-- R371: a ready host is attached: state 1, event 5402h. -/
theorem test_host_attach : gives (.hostAttach true) up (fun t => t.dev.o 0x5400 1 == 1) = true ∧
    gives .hostDetach host (fun t => t.dev.o 0x5400 1 == 2 && t.dev.o 0x5400 2 == 5) = true := by decide +kernel

/-- R98: a second step is refused with 0701h. -/
theorem test_second_step : gives (.stepDelta 4 1) stepping (fun t => (t.dev.win 4).status == 0x701) = true := by decide +kernel

/-- R157, R158: a raw edge changes nothing that software sees; the dwell confirms the level. -/
theorem test_input : gives (.inputRawChange 3 true) up (fun t => (t.dev.input 3).raw && t.dev.o 0x28E0 5 3 == 0) = true ∧
    gives (.inputDwellExpiry 3) (up.on (up.dev.setInput 3 { raw := true })) (fun t => t.dev.o 0x28E0 5 3 == 1) = true := by decide +kernel

/-- R444: a commanded reset waits. -/
theorem test_reset : gives (.dpResetCmd 4) host (fun t => decide (t.dev.power.cmds = [(2, 1)])) = true := by decide +kernel

/-- R463: a rail of the first group below its range asserts PORST_N. -/
theorem test_rail_low : gives (.railSample 5 0 0) up (fun t => t.dev.power.porst) = true := by decide +kernel

/-- R248: the sum of the largest value and 1 wraps. -/
theorem test_add_wraps : (alu 1 (2 ^ 64 - 1) 1 0).map (fun x => (x.1, x.2.1)) = some (0, some true) := by decide +kernel

end Sys2Proof.Tests
end

section
/-! The scope (00_scope.md): every command names its resources and runs to a next state, or stops. -/

namespace Sys2Proof.Machine

/-! ### The form of every meaning -/

/-- The commands whose meaning moves the clock besides applying its effect: a step of network time, and the resets that restart
the time base (R98, R448). -/
def movesClock : Instr → Bool
  | .stepApply | .crossingStall .. | .dataPlaneReset | .powerUp .. | .deviceReset .. => true
  | _ => false

/-- A command that leaves the clock alone runs one effect on the device, the same in every state. -/
theorem exec_eq_run {c : Instr} (h : movesClock c = false) : ∃ f, ∀ s, exec c s = run c f s := by
  cases c
  case stepApply | crossingStall | dataPlaneReset | powerUp | deviceReset => cases h
  all_goals exact ⟨_, fun _ => rfl⟩

/-- A command that moves the clock runs one effect on the device and one map of the clock, the same in every state. -/
theorem exec_eq_runClk {c : Instr} (h : movesClock c = true) : ∃ f k, ∀ s, exec c s = runClk c f k s := by
  cases c
  case crossingStall i src => exact ⟨crossingStall i src, fun d => dpClock (stallResets i d) d, fun _ => rfl⟩
  case dataPlaneReset => exact ⟨dpCommanded, fun d => dpClock (d.resetPending 2).isSome d, fun _ => rfl⟩
  case stepApply | powerUp | deviceReset => exact ⟨_, _, fun _ => rfl⟩
  all_goals cases h

/-- A command that names what exists answers a next state with the queue as it was. -/
theorem exec_next_of_wf {c : Instr} (h : c.wf = true) (s : State) : ∃ t, exec c s = .next t ∧ t.pending = s.pending := by
  cases hc : movesClock c with
  | false =>
    obtain ⟨f, hf⟩ := exec_eq_run hc
    exact ⟨_, (hf s).trans (run_next c f s h), rfl⟩
  | true =>
    obtain ⟨f, k, hk⟩ := exec_eq_runClk hc
    exact ⟨_, (hk s).trans (runClk_next c f k s h), rfl⟩

/-- A command that names what does not exist stops. -/
theorem exec_fault_of_not_wf {c : Instr} (h : c.wf = false) (s : State) : exec c s = .fault .noSuchResource := by
  cases hc : movesClock c with
  | false =>
    obtain ⟨f, hf⟩ := exec_eq_run hc
    exact (hf s).trans (run_fault c f s h)
  | true =>
    obtain ⟨f, k, hk⟩ := exec_eq_runClk hc
    exact (hk s).trans (runClk_fault c f k s h)

/-- Settles O3: every meaning is one effect behind the check of its operands, which keeps the queue. -/
theorem wellFormedCommandsComplete : Obligations.WellFormedCommandsComplete :=
  fun _ s => ⟨fun h => exec_next_of_wf h s, fun h => exec_fault_of_not_wf h s⟩

end Sys2Proof.Machine
end

section
/-! The lanes, ports and receivers (03_lanes_and_ports.md): how a command that leaves the clock alone is run. -/

namespace Sys2Proof.Machine

/-- A state on the device it has is itself. -/
@[simp] theorem on_dev (s : State) : s.on s.dev = s := rfl

/-- A command that names what exists, and whose meaning is one effect, answers the state on the device after that effect. -/
theorem exec_on {c : Instr} {f : M Unit} {s : State} (h : c.wf = true) (he : exec c s = run c f s) :
    exec c s = .next (s.on (s.dev.after s.clk f)) := he.trans (run_next c f s h)

/-- An effect followed by another. -/
theorem after_seq (d : Dev) (c : Clock) (f g : M Unit) : d.after c (f >>= fun _ => g) = (d.after c f).after c g := rfl

end Sys2Proof.Machine
end

section
/-! Lanes (R72, R76, R77, R82): what each event of a lane's receiver does, and the conditions of a port. -/

namespace Sys2Proof.Machine

section
variable (c : Clock) (d : Dev) (l p : Nat)

/-- A lane holds its values under code 2 once adapted, and under code 1 once its port was up (R72). -/
theorem holds_iff : d.holds l = true ↔
    (d.o 0x2020 1 l = 2 ∧ (d.lane l).adapted = true) ∨ (d.o 0x2020 1 l = 1 ∧ (d.lane l).wasUp = true) := by
  simp only [Dev.holds, Bool.or_eq_true, Bool.and_eq_true, beq_iff_eq]

theorem after_cdrLost : d.after c (cdrLost l) =
    if (d.lanesOf (l / 4)).contains l then d.setPort (l / 4) { d.port (l / 4) with fecLock := false } else d := by
  simp only [after_eq, cdrLost, at_get_bind, at_ite, at_set, at_pure, apply_ite Prod.snd]

theorem after_laneSignal : d.after c (laneSignal l) =
    if d.o 0x2000 1 l = 1 then
      ((d.setO 0x2000 1 l 2).setLane l { d.lane l with wasUp := false }).after c (portEval (l / 4))
    else d := by
  simp only [after_eq, laneSignal, at_get_bind, at_ite, at_set_bind, at_pure, apply_ite Prod.snd]

theorem after_laneAdapted (ctle dfe snr : Nat) : d.after c (laneAdapted l ctle dfe snr) =
    if 2 ≤ d.o 0x2000 1 l ∧ d.holds l = false then
      (((((d.setO 0x2020 2 l ctle).setO 0x2020 3 l dfe).setO 0x2020 4 l snr).setO 0x2000 1 l 4).setLane l
        { d.lane l with adapted := true }).after c (portEval (l / 4))
    else d := by
  simp only [after_eq, laneAdapted, at_get_bind, at_ite, at_set_bind, at_pure, apply_ite Prod.snd, Bool.not_eq_true']

theorem after_laneLos_declare : d.after c (laneLos l true) =
    if d.o 0x2000 1 l ≠ 0 then
      (((d.setO 0x2000 1 l 1).setLane l { d.lane l with los := true, wasUp := false }).after c (cdrLost l)).after c (portEval (l / 4))
    else d := by
  simp only [laneLos, after_eq, at_get_bind, at_ite, at_set_bind, at_pure, apply_ite Prod.snd, if_true]
  rfl

theorem after_laneLos_clear : d.after c (laneLos l false) =
    if d.o 0x2000 1 l ≠ 0 then
      ((d.setO 0x2000 1 l (max 2 (d.o 0x2000 1 l))).setLane l
        { d.lane l with los := false, wasUp := decide (2 ≤ d.o 0x2000 1 l) && (d.lane l).wasUp }).after c (portEval (l / 4))
    else d := by
  simp only [laneLos, after_eq, at_get_bind, at_ite, at_set_bind, at_pure, apply_ite Prod.snd]
  rfl

theorem after_laneCdr_lock : d.after c (laneCdr l true) =
    if d.o 0x2000 1 l = 2 then
      (d.setO 0x2000 1 l (if d.holds l = true then 4 else 3)).after c (portEval (l / 4))
    else d := by
  simp only [laneCdr, true_and, Bool.not_true, Bool.false_eq_true, false_and, if_false, after_eq, at_get_bind, at_ite, at_setO_bind,
    at_pure, apply_ite Prod.snd]

theorem after_laneCdr_loss : d.after c (laneCdr l false) =
    if 3 ≤ d.o 0x2000 1 l then
      ((d.setO 0x2000 1 l 2).after c (cdrLost l)).after c (portEval (l / 4))
    else d := by
  simp only [laneCdr, Bool.false_eq_true, false_and, if_false, Bool.not_false, true_and, after_eq, at_bind, at_get, at_ite, at_setO,
    at_pure, apply_ite Prod.snd]

theorem after_portFlag (f : PortSt → PortSt) : d.after c (portFlag p f) =
    if d.oB 0x2400 2 p = true ∧ d.o 0x2400 3 p ≠ 7 then (d.setPort p (f (d.port p))).after c (portEval p) else d := by
  simp only [after_eq, portFlag, at_get_bind, at_ite, at_set_bind, at_pure, apply_ite Prod.snd]

theorem after_ppmMeasure (x : Int) : d.after c (ppmMeasure p x) =
    let e := d.setO 0x2400 6 p (ofS 16 x)
    if 2500 < x.natAbs then (e.setO 0x2400 7 p 1).after c (raiseEv p 0x2407 2 (ofS 32 x) 0 0)
    else if x.natAbs ≤ 2400 then e.setO 0x2400 7 p 0 else e := by
  simp only [after_eq, ppmMeasure, at_setO_bind, at_ite, at_setO, at_pure, apply_ite Prod.snd]

end

/-! The commands on an event of a lane or of a port. -/

section
variable (s : State) {l p : Nat}

theorem exec_laneSignalDetect_on (h : l < 1024) :
    exec (.laneSignalDetect l) s = .next (s.on (s.dev.after s.clk (laneSignal l))) := exec_on (decide_eq_true h) rfl

theorem exec_laneAdaptDone_on {ctle dfe snr : Nat} (h : l < 1024) (hc : ctle ≤ 40) (hd : dfe < 65536) (hs : snr < 2 ^ 32) :
    exec (.laneAdaptDone l ctle dfe snr) s = .next (s.on (s.dev.after s.clk (laneAdapted l ctle dfe snr))) :=
  exec_on (decide_eq_true ⟨h, hc, hd, hs⟩) rfl

theorem exec_losDeclare_on (h : l < 1024) :
    exec (.losDeclare l) s = .next (s.on (s.dev.after s.clk (laneLos l true))) := exec_on (decide_eq_true h) rfl

theorem exec_losClear_on (h : l < 1024) :
    exec (.losClear l) s = .next (s.on (s.dev.after s.clk (laneLos l false))) := exec_on (decide_eq_true h) rfl

theorem exec_cdrLockChange_on (locked : Bool) (h : l < 1024) :
    exec (.cdrLockChange l locked) s = .next (s.on (s.dev.after s.clk (laneCdr l locked))) := exec_on (decide_eq_true h) rfl

theorem exec_deskewFault_on (on : Bool) (h : p < 256) : exec (.deskewFault p on) s =
    .next (s.on (s.dev.after s.clk (portFlag p fun x => { x with deskew := on }))) := exec_on (decide_eq_true h) rfl

theorem exec_remoteFaultRx_on (on : Bool) (h : p < 256) : exec (.remoteFaultRx p on) s =
    .next (s.on (s.dev.after s.clk (portFlag p fun x => { x with remote := on }))) := exec_on (decide_eq_true h) rfl

theorem exec_localFaultRx_on (on : Bool) (h : p < 256) : exec (.localFaultRx p on) s =
    .next (s.on (s.dev.after s.clk (portFlag p fun x => { x with localF := on }))) := exec_on (decide_eq_true h) rfl

theorem exec_rxPpmMeasure_on {x : Int} (h : p < 256) (h1 : -32768 ≤ x) (h2 : x ≤ 32767) :
    exec (.rxPpmMeasure p x) s = .next (s.on (s.dev.after s.clk (ppmMeasure p x))) :=
  exec_on (decide_eq_true ⟨h, h1, h2⟩) rfl

/-- FEC lock is reached only with every used lane in CDR lock (R82). -/
theorem exec_fecLockChange_on (on : Bool) (h : p < 256) : exec (.fecLockChange p on) s =
    .next (s.on (if on = true → (s.dev.lanesOf p).all (fun l => decide (3 ≤ s.dev.o 0x2000 1 l)) = true
      then s.dev.after s.clk (portFlag p fun x => { x with fecLock := on }) else s.dev)) := by
  refine (exec_on (c := .fecLockChange p on) (decide_eq_true h) rfl).trans ?_
  simp only [after_eq, at_get_bind, at_ite, at_pure, apply_ite Prod.snd]
  cases on with
  | false => simp only [Bool.not_false, true_or, if_true, Bool.false_eq_true, false_implies]
  | true => simp only [Bool.not_true, Bool.false_eq_true, false_or, forall_const]

end

/-- Settles O24: each event is one effect of the lane or of the port on the condition that the rules name, and nothing without it. -/
theorem lanesAndPortsFollowTheirConditions : Obligations.LanesAndPortsFollowTheirConditions := by
  refine ⟨⟨?signal, ?noSignal, ?adapted, ?held, ?los, ?losEnds, ?off, ?lock, ?loss, ?noLock, after_cdrLost⟩, ?flags, ?ppm⟩
  case signal => exact fun s l hl h => by rw [exec_laneSignalDetect_on s hl, after_laneSignal, if_pos h]
  case noSignal => exact fun s l hl h => by rw [exec_laneSignalDetect_on s hl, after_laneSignal, if_neg h, on_dev]
  case adapted =>
    intro s l ctle dfe snr hl hc hd hs h2 hn hn'
    have free : s.dev.holds l = false := by rw [← Bool.not_eq_true, holds_iff]; exact not_or.mpr ⟨hn, hn'⟩
    rw [exec_laneAdaptDone_on s hl hc hd hs, after_laneAdapted, if_pos ⟨h2, free⟩]
  case held =>
    intro s l ctle dfe snr hl hc hd hs h
    have stays : ¬(2 ≤ s.dev.o 0x2000 1 l ∧ s.dev.holds l = false) := by
      rintro ⟨h2, free⟩
      rw [← Bool.not_eq_true, holds_iff] at free
      exact h.elim (Nat.not_lt.mpr h2) free
    rw [exec_laneAdaptDone_on s hl hc hd hs, after_laneAdapted, if_neg stays, on_dev]
  case los => exact fun s l hl h => by rw [exec_losDeclare_on s hl, after_laneLos_declare, if_pos h]
  case losEnds => exact fun s l hl h => by rw [exec_losClear_on s hl, after_laneLos_clear, if_pos h]
  case off =>
    intro s l hl h
    constructor
    · rw [exec_losDeclare_on s hl, after_laneLos_declare, if_neg (not_not_intro h), on_dev]
    · rw [exec_losClear_on s hl, after_laneLos_clear, if_neg (not_not_intro h), on_dev]
  case lock => exact fun s l hl h => by rw [exec_cdrLockChange_on s true hl, after_laneCdr_lock, if_pos h]
  case loss => exact fun s l hl h => by rw [exec_cdrLockChange_on s false hl, after_laneCdr_loss, if_pos h]
  case noLock =>
    refine fun s l hl => ⟨fun h => ?_, fun h => ?_⟩
    · rw [exec_cdrLockChange_on s true hl, after_laneCdr_lock, if_neg h, on_dev]
    · rw [exec_cdrLockChange_on s false hl, after_laneCdr_loss, if_neg (Nat.not_le.mpr h), on_dev]
  case flags =>
    intro s p on hp
    refine ⟨fun live locked => ?_, fun h unlocked => ?_, fun live => ?_, fun live => ?_, fun live => ?_, fun dead => ⟨?_, ?_, ?_, ?_⟩⟩
    · rw [exec_fecLockChange_on s on hp, if_pos locked, after_portFlag, if_pos live]
    · rw [exec_fecLockChange_on s on hp, if_neg fun h' => Bool.false_ne_true (unlocked.symm.trans (h' h)), on_dev]
    · rw [exec_deskewFault_on s on hp, after_portFlag, if_pos live]
    · rw [exec_remoteFaultRx_on s on hp, after_portFlag, if_pos live]
    · rw [exec_localFaultRx_on s on hp, after_portFlag, if_pos live]
    · rw [exec_fecLockChange_on s on hp, after_portFlag, if_neg dead, ite_self, on_dev]
    · rw [exec_deskewFault_on s on hp, after_portFlag, if_neg dead, on_dev]
    · rw [exec_remoteFaultRx_on s on hp, after_portFlag, if_neg dead, on_dev]
    · rw [exec_localFaultRx_on s on hp, after_portFlag, if_neg dead, on_dev]
  case ppm => exact fun s p x hp h1 h2 => by rw [exec_rxPpmMeasure_on s hp h1 h2, after_ppmMeasure]

end Sys2Proof.Machine
end

section
/-! Ports (R67, R78, R81, R84): administration, dampening and patterns. -/

namespace Sys2Proof.Machine

/-! ### Writes of plain objects through a window (R33) -/

/-- A write of a plain object that passes every check, and whose object takes the write by the effect `f`, leaves what `f` leaves, with
status 0000h. -/
theorem after_winPut_plain {s : State} {w ix sub i n v : Nat} (r : ObjRow) {f : M Unit} (h : s.writable w (okey ix sub i) (toBytes n v))
    (hr : rowOf ix (sub % 256) = some r) (hs : r.staged = false) (hp : r.pegged = false) (ha : r.acc ≠ .w1c)
    (hb : baysObject ix = false) (hb' : ix ≠ 0x3430) (hv : v < 256 ^ n)
    (hf : plainWrite (w / 4) none (okey ix sub i) v [] = doing f) :
    s.on (s.dev.after s.clk (winPut w ix sub i n v)) =
      s.wrote w (okey ix sub i) (toBytes n v) 0 (fun d => d.after s.clk f) := by
  rw [winPut_ok s w ix sub i n v r h hr hb hb', ofBytes_toBytes, Nat.mod_eq_of_lt hv, hs, hp]
  simp only [Bool.false_eq_true, if_false, ha, hf]
  rfl

/-- A plain object that acts once it is set. -/
theorem putThen_eq_doing (key v : Nat) (f : M Unit) : putThen key v f = doing (do putObj key v; f) := by
  simp only [putThen, doing, bind_assoc]

theorem plainWrite_portAdmin (pl : Nat) (core : Option Nat) {p : Nat} (v : Nat) (fail : List Nat) (h : p < 256) :
    plainWrite pl core (okey 0x2400 2 p) v fail = putThen (okey 0x2400 2 p) v (adminChanged p) := by
  simp only [plainWrite, keyIndex_okey, keySub_okey, keyInst_okey, Nat.mod_eq_of_lt (show p < 16777216 by omega), Nat.reduceMod]

theorem plainWrite_dampEn_off (pl : Nat) (core : Option Nat) {p : Nat} (fail : List Nat) (h : p < 256) :
    plainWrite pl core (okey 0x2410 3 p) 0 fail = putThen (okey 0x2410 3 p) 0 (dampOff p) := by
  simp only [plainWrite, keyIndex_okey, keySub_okey, keyInst_okey, Nat.mod_eq_of_lt (show p < 16777216 by omega), Nat.reduceMod, if_true]

theorem plainWrite_errInject (pl : Nat) (core : Option Nat) {l : Nat} (v : Nat) (fail : List Nat) (h : l < 1024) :
    plainWrite pl core (okey 0x2040 6 l) v fail = doing (errInject l v) := by
  simp only [plainWrite, keyIndex_okey, keySub_okey, keyInst_okey, Nat.mod_eq_of_lt (show l < 16777216 by omega), Nat.reduceMod]

theorem row_portAdmin : rowOf 0x2400 (2 % 256) = some ⟨0x2400, 2, 256, .bool, .rw, .hm, .n, 0, .any⟩ := by decide +kernel
theorem row_dampEn : rowOf 0x2410 (3 % 256) = some ⟨0x2410, 3, 256, .bool, .rw, .hm, .n, 0, .any⟩ := by decide +kernel
theorem row_errInject : rowOf 0x2040 (6 % 256) = some ⟨0x2040, 6, 1024, .u 2, .wo, .hm, .n, 0, .rng 1 65535⟩ := by decide +kernel

/-! ### What the administration of a port does -/

/-- A write keeps the objects of every other index or sub-index. -/
theorem o_setO_other (d : Dev) (i v : Nat) {ix sub ix' sub' : Nat} {i' : Nat} (h : ¬(ix' = ix ∧ sub' % 256 = sub % 256)) :
    (d.setO ix sub i v).o ix' sub' i' = d.o ix' sub' i' := by
  rw [o_setO, if_neg fun ⟨hix, hsub, _⟩ => h ⟨hix, hsub⟩]

section
variable (c : Clock) (d : Dev) (l p : Nat)

theorem after_setFigure (f : Nat) : d.after c (setFigure p f) =
    (d.setPort p { d.port p with figBase := f, figTicks := 0 }).setO 0x2410 9 p (f / figUnit) := rfl

theorem figure_setO_shown (v : Nat) : (d.setO 0x2410 9 p v).figure p = d.figure p := by
  simp only [Dev.figure, o_setO, Dev.port, setO_ports]
  rfl

/-- A figure that no evaluation has followed is the one that was set. -/
theorem figure_setPort_fresh (f : Nat) : (d.setPort p { d.port p with figBase := f, figTicks := 0 }).figure p = f := by
  simp only [Dev.figure, figDecay, port_setPort_same, if_true]

theorem after_reconfigDone : d.after c (reconfigDone p) =
    if d.o 0x2400 3 p = 7 then
      ((((d.after c (setState p 1)).after c (lanesPower p)).setTxLine p {}).after c (portEval p))
    else d := by
  simp only [reconfigDone, after_eq, at_getO, at_ite, at_bind, at_modify, at_pure, apply_ite Prod.snd]

/-- The device on which a tick evaluates the figure: one evaluation more, unless nothing decays (R84). -/
def Dev.decayed (d : Dev) (p : Nat) : Dev :=
  d.setPort p (let x := d.port p; if x.figBase = 0 then x else { x with figTicks := x.figTicks + 1 })

theorem after_dampTick : d.after c (dampTick p) =
    let g := d.decayed p
    let e := g.setO 0x2410 9 p (g.figure p / figUnit)
    if e.o 0x2400 3 p = 5 ∧ g.figure p ≤ figUnit * e.o 0x2410 7 p then e.after c (unsuppress p (g.figure p / figUnit)) else e := by
  simp only [dampTick, after_eq, at_modify_bind, at_get_bind, at_setO_bind, at_ite, at_pure, apply_ite Prod.snd, o_setO]
  rfl

theorem after_dampOff : d.after c (dampOff p) =
    let e := d.after c (setFigure p 0)
    if e.o 0x2400 3 p = 5 then e.after c (unsuppress p 0) else e := by
  simp only [dampOff, after_eq, at_bind, at_getO, at_ite, at_pure, apply_ite Prod.snd]
  rfl

/-- Errors are injected into what a generator sends now, or wait for it to be turned on (R78). -/
theorem after_errInject (n : Nat) : d.after c (errInject l n) =
    if d.o 0x2040 1 l = 0 then d.setLane l { d.lane l with inject := n } else { d with out := d.out ++ [.symbolErrors l n] } := by
  simp only [errInject, after_eq, at_get_bind, at_ite, at_set, at_emit, apply_ite Prod.snd]

/-- The device on which a checker in lock has taken in what it compared: two free values, the bits and the errors (R78). -/
def Dev.chkCounted (d : Dev) (l : Nat) : Dev :=
  (({ d with free := d.free + 2 } : Dev).addO 0x2040 4 l (Config.freeValue d.free)).addO 0x2040 5 l (Config.freeValue (d.free + 1))

theorem after_chkCount : d.after c (chkCount l) = if d.oB 0x2040 3 l = true then d.chkCounted l else d := by
  simp only [chkCount, after_eq, at_getB_bind, at_ite, at_fresh_bind, at_addO_bind, at_addO, at_pure, apply_ite Prod.snd]
  rfl

theorem o_chkCounted_pattern : (d.chkCounted l).o 0x2040 2 l = d.o 0x2040 2 l := by
  simp only [Dev.chkCounted, o_addO]
  rfl

end

/-! ### The commands -/

section
variable (s : State) {l p w : Nat}

theorem exec_upHoldExpiry_on (h : p < 256) : exec (.upHoldExpiry p) s =
    .next (s.on (if s.dev.o 0x2400 3 p = 2 ∧ s.dev.o 0x2440 1 p = 0 then s.dev.after s.clk (setState p 3) else s.dev)) := by
  refine (exec_on (c := .upHoldExpiry p) (decide_eq_true h) rfl).trans ?_
  simp only [after_eq, at_get_bind, at_ite, at_pure, apply_ite Prod.snd]

theorem exec_downHoldoffExpiry_on (h : p < 256) : exec (.downHoldoffExpiry p) s =
    .next (s.on (if s.dev.o 0x2400 3 p = 4 then s.dev.after s.clk (declareDown p) else s.dev)) := by
  refine (exec_on (c := .downHoldoffExpiry p) (decide_eq_true h) rfl).trans ?_
  simp only [after_eq, at_getO_bind, at_ite, at_pure, apply_ite Prod.snd]

theorem exec_reconfigureDone_on (h : p < 256) :
    exec (.reconfigureDone p) s = .next (s.on (s.dev.after s.clk (reconfigDone p))) := exec_on (decide_eq_true h) rfl

theorem exec_dampTick_on (h : p < 256) : exec (.dampTick p) s = .next (s.on (s.dev.after s.clk (dampTick p))) :=
  exec_on (decide_eq_true h) rfl

/-- PORT_ADMIN is a write of 2400h.02 (R81). -/
theorem exec_portAdmin_on (on : Bool) (hw : w < 8) (h : p < 256) :
    exec (.portAdmin w p on) s = .next (s.on (s.dev.after s.clk (winPut w 0x2400 2 p 1 on.toNat))) :=
  exec_on (decide_eq_true ⟨hw, by omega⟩) rfl

/-- DAMP_DISABLE is a write of false to 2410h.03 (R84). -/
theorem exec_dampDisable_on (hw : w < 8) (h : p < 256) :
    exec (.dampDisable w p) s = .next (s.on (s.dev.after s.clk (winPut w 0x2410 3 p 1 0))) :=
  exec_on (decide_eq_true ⟨hw, by omega⟩) rfl

/-- ERR_INJECT is a write of 2040h.06 (R78). -/
theorem exec_errInject_on {n : Nat} (hw : w < 8) (h : l < 1024) (hn : n < 65536) :
    exec (.errInject w l n) s = .next (s.on (s.dev.after s.clk (winPut w 0x2040 6 l 2 n))) :=
  exec_on (decide_eq_true ⟨hw, by omega, hn⟩) rfl

/-- A checker that is off gains no lock (R78). -/
theorem exec_chkLockAcquire_on (h : l < 1024) : exec (.chkLockAcquire l) s =
    .next (if s.dev.o 0x2040 2 l = 0 then s else s.on (s.dev.setO 0x2040 3 l 1)) := by
  refine (exec_on (c := .chkLockAcquire l) (decide_eq_true h) rfl).trans ?_
  simp only [after_eq, at_getO_bind, at_ite, at_setO, at_pure, apply_ite Prod.snd, ne_eq, ite_not, apply_ite s.on, on_dev]

/-- A checker in lock takes in what it compared, falls out of lock, and tells the errors (R78). -/
theorem exec_chkLockLoss_on (h : l < 1024) : exec (.chkLockLoss l) s =
    .next (if s.dev.oB 0x2040 3 l = true then
      s.on (((s.dev.chkCounted l).setO 0x2040 3 l 0).after s.clk
        (raiseEv (l / 4) 0x2003 1 l (s.dev.o 0x2040 2 l) ((s.dev.chkCounted l).o 0x2040 5 l)))
      else s) := by
  refine (exec_on (c := .chkLockLoss l) (decide_eq_true h) rfl).trans ?_
  by_cases locked : s.dev.oB 0x2040 3 l = true
  · have counted := after_chkCount s.clk s.dev l
    rw [if_pos locked, after_eq] at counted
    have pattern : ((s.dev.chkCounted l).setO 0x2040 3 l 0).o 0x2040 2 l = s.dev.o 0x2040 2 l := by
      rw [o_setO_other _ _ _ (by decide), o_chkCounted_pattern]
    have errors : ((s.dev.chkCounted l).setO 0x2040 3 l 0).o 0x2040 5 l = (s.dev.chkCounted l).o 0x2040 5 l :=
      o_setO_other _ _ _ (by decide)
    simp only [after_eq, at_bind, at_getB, locked, if_true, counted, at_setO, at_getO, pattern, errors]
  · simp only [after_eq, at_getB_bind, locked, if_false, at_pure, on_dev, Bool.false_eq_true]

end

/-- Settles O25: each command is one effect of the port or of the lane, on the state that R81, R84 and R78 name; the three writes pass
through a window as writes of plain objects. -/
theorem portsAreAdministered : Obligations.PortsAreAdministered := by
  refine ⟨⟨?admin, ?upHold, ?downHold, ?modeDone, ?otherStates⟩, ⟨?tick, ?dampOff, ?figure⟩, ?inject, ?acquire, ?unlocked, ?loss⟩
  case admin =>
    intro s w p on hw hp h
    have admin := after_winPut_plain _ h row_portAdmin rfl rfl (by decide) rfl (by decide) (Nat.lt_of_lt_of_le (Bool.toNat_lt on) (by decide))
      ((plainWrite_portAdmin (w / 4) none on.toNat [] hp).trans (putThen_eq_doing _ _ _))
    rw [exec_portAdmin_on s on hw hp, admin]
    rfl
  case upHold => exact fun s p hp h3 h0 => by rw [exec_upHoldExpiry_on s hp, if_pos ⟨h3, h0⟩]
  case downHold => exact fun s p hp h => by rw [exec_downHoldoffExpiry_on s hp, if_pos h]
  case modeDone => exact fun s p hp h => by rw [exec_reconfigureDone_on s hp, after_reconfigDone, if_pos h]
  case otherStates =>
    refine fun s p hp => ⟨fun h => ?_, fun h => ?_, fun h => ?_⟩
    · rw [exec_upHoldExpiry_on s hp, if_neg h, on_dev]
    · rw [exec_downHoldoffExpiry_on s hp, if_neg h, on_dev]
    · rw [exec_reconfigureDone_on s hp, after_reconfigDone, if_neg h, on_dev]
  case tick =>
    intro s p hp
    rw [exec_dampTick_on s hp, after_dampTick]
    rfl
  case dampOff =>
    intro s w p hw hp h
    have off := after_winPut_plain _ h row_dampEn rfl rfl (by decide) rfl (by decide) (by decide)
      ((plainWrite_dampEn_off (w / 4) none [] hp).trans (putThen_eq_doing _ _ _))
    rw [exec_dampDisable_on s hw hp, off]
    simp only [State.wrote, after_seq, after_dampOff]
    rfl
  case figure =>
    intro c d p f
    rw [after_setFigure]
    refine ⟨?_, o_setO_same _ _ _ _ _, ?_⟩
    · rw [figure_setO_shown, figure_setPort_fresh]
    · exact o_setO_other _ _ _ (by decide)
  case inject =>
    intro s w l n hw hl hn h
    rw [exec_errInject_on s hw hl hn, after_winPut_plain _ h row_errInject rfl rfl (by decide) rfl (by decide) hn
      (plainWrite_errInject (w / 4) none n [] hl)]
    simp only [after_errInject]
  case acquire => exact fun s l hl => exec_chkLockAcquire_on s hl
  case unlocked => exact fun s l hl h => by rw [exec_chkLockLoss_on s hl, if_neg (by rw [h]; decide)]
  case loss => exact fun s l hl h => by rw [exec_chkLockLoss_on s hl, if_pos h]; rfl

end Sys2Proof.Machine
end

section
/-! Reception (R85, R327): the checks of a whole frame, and what its end does. -/

namespace Sys2Proof.Machine

section
variable (c : Clock) (d : Dev) (p : Nat)

theorem at_rxStart (idle : Bool) : M.at (rxStart p idle) c d =
    if (d.port p).jabber = false then (true, d) else if idle = false then (false, d)
    else (true, d.setPort p { d.port p with jabber := false }) := by
  simp only [rxStart, at_get_bind, at_ite, at_pure, at_set_bind, Bool.not_eq_true']

/-! ### The checks (R85), in their order -/

variable (b : Bytes) (fecBad : Bool) (lim : Nat × Nat)

theorem macCheck_runt (h : b.length < 64) : M.at (macCheck p b fecBad lim) c d = (some 0, d.addO 0x2420 5 p 1) := by
  simp only [macCheck, h, if_true, at_incO_bind, at_pure]

theorem macCheck_jabber (h : 64 ≤ b.length) (hj : lim.2 ≤ b.length) : M.at (macCheck p b fecBad lim) c d =
    let e := (d.addO 0x2420 7 p 1).after c (raiseLim p 0x2405 1 p lim.2 0 0 3)
    (some 3, e.setPort p { e.port p with jabber := true }) := by
  simp only [macCheck, Nat.not_lt.mpr h, hj, if_true, if_false, at_bind, at_incO, at_modify, at_pure, after_eq]

theorem macCheck_oversize (h : 64 ≤ b.length) (hj : b.length < lim.2) (ho : lim.1 < b.length) :
    M.at (macCheck p b fecBad lim) c d = (some 3, d.addO 0x2420 6 p 1) := by
  simp only [macCheck, Nat.not_lt.mpr h, Nat.not_le.mpr hj, ho, if_true, if_false, at_incO_bind, at_pure]

/-- A frame of a length that passes is judged by its FCS. -/
theorem macCheck_fitting (h : 64 ≤ b.length) (hj : b.length < lim.2) (ho : b.length ≤ lim.1) :
    M.at (macCheck p b fecBad lim) c d =
      if b.drop (b.length - 4) = toBytes 4 (ofBytes (fcsBytes (b.take (b.length - 4))) ^^^ 0x5A5A5A5A) then (some 1, d.addO 0x2420 4 p 1)
      else if fecBad = true ∨ b.drop (b.length - 4) ≠ fcsBytes (b.take (b.length - 4)) then (some 0, d.addO 0x2420 3 p 1)
      else (none, (d.addO 0x2420 1 p 1).addO 0x2420 2 p b.length) := by
  simp only [macCheck, Nat.not_lt.mpr h, Nat.not_le.mpr hj, Nat.not_lt.mpr ho, if_false, at_ite, at_incO_bind, at_addO_bind, at_pure]

end

/-! ### The end of a frame (R85, R327) -/

/-- A frame that ends was begun when its head came, or begins now (R85): whether it begins, and the device then. -/
def Dev.begun (d : Dev) (c : Clock) (p id : Nat) (idle : Bool) : Bool × Dev :=
  if (d.receiving p id).isSome then (true, d) else M.at (rxStart p idle) c d

/-- MAX_FRAME and JABBER_LEN as a frame that ends started with them. -/
def Dev.startLimits (d : Dev) (p id : Nat) : Nat × Nat :=
  match d.receiving p id with
  | some f => f.limits
  | none => d.limits p

/-- Its octets and its fragments are counted: the fragments are bad frames where no preemption is on (R327). -/
def Dev.rxCounted (d : Dev) (c : Clock) (p : Nat) (b : Bytes) (lim : Nat × Nat) (pre : Bool) (frags : Nat) : Dev :=
  if pre = true then (d.after c (bwAdd p 0 (min b.length lim.2))).addO 0x4410 5 p frags
  else (d.after c (bwAdd p 0 (min b.length lim.2))).addO 0x2420 3 p frags

/-- What follows the checks of a frame, with their verdict: `d` is the device as the frame ended. -/
def frameVerdict (d : Dev) (p id : Nat) (b : Bytes) (lim : Nat × Nat) (fault : Option Nat) : M Unit :=
  if beAt b 12 2 = 0x8808 ∧ d.frame id = none then
    if fault = none then controlFrame p b else pure ()
  else match d.receiving p id with
    | some f => frameEnds f (if fault = some 3 then b.take lim.2 else b) fault
    | none =>
      if d.frame id = none ∧ fault = none ∧ d.yard.nextId ≤ id ∧ (d.uopSpan p b).isNone = true then portArrive p b true else pure ()

section
variable (c : Clock) (d : Dev) (p id : Nat) (b : Bytes) (fecBad idle : Bool) (frags frag : Nat)

/-- A frame that begins touches the receivers of ports alone. -/
theorem begun_device : ∃ x, (d.begun c p id idle).2 = { d with ports := x } := by
  unfold Dev.begun
  rw [at_rxStart]
  split
  · exact ⟨d.ports, rfl⟩
  split
  · exact ⟨d.ports, rfl⟩
  split
  · exact ⟨d.ports, rfl⟩
  · exact ⟨_, rfl⟩

theorem begun_frame (k : Nat) : (d.begun c p id idle).2.frame k = d.frame k := by
  obtain ⟨x, h⟩ := begun_device c d p id idle
  rw [h]
  rfl

theorem begun_nextId : (d.begun c p id idle).2.yard.nextId = d.yard.nextId := by
  obtain ⟨x, h⟩ := begun_device c d p id idle
  rw [h]

theorem begun_uopSpan : (d.begun c p id idle).2.uopSpan p b = d.uopSpan p b := by
  obtain ⟨x, h⟩ := begun_device c d p id idle
  rw [h]
  rfl

/-- The end of a frame at a port that does not receive changes nothing. -/
theorem after_frameReceive_deaf (h : d.receives p = false) :
    d.after c (frameReceive p id b fecBad idle frags frag) = d := by
  simp only [after_eq, frameReceive, at_get_bind, h, Bool.not_false, if_true, at_pure]

/-- A verification request is answered while preemption is on and the port sends (R327). -/
theorem after_frameReceive_verify (h : d.receives p = true) :
    d.after c (frameReceive p id b fecBad idle frags 2) =
      if d.oB 0x4410 1 p = true ∧ d.txStopped p = false then { d with out := d.out ++ [.verify p true] } else d := by
  simp only [frameReceive, Bool.not_eq_eq_eq_not, Bool.not_true, if_true, bind_pure_comp, id_map', after_eq, at_get_bind, h,
    Bool.true_eq_false, if_false, at_ite, at_emit, at_pure, apply_ite Prod.snd]

/-- A frame that does not begin leaves no trace (R85). -/
theorem begun_false : (d.begun c p id idle).1 = false → (d.begun c p id idle).2 = d := by
  unfold Dev.begun
  rw [at_rxStart]
  split
  · exact fun _ => rfl
  split
  · exact fun _ => rfl
  split
  · exact fun _ => rfl
  · exact nofun

/-- A frame that does not begin, after a jabber, is discarded (R85). -/
theorem after_frameReceive_discarded (h : d.receives p = true) (hf : frag ≠ 2) (hq : (d.begun c p id idle).1 = false) :
    d.after c (frameReceive p id b fecBad idle frags frag) = d := by
  refine Eq.trans ?_ (begun_false c d p id idle hq)
  unfold Dev.begun at hq ⊢
  cases hm : d.receiving p id with
  | some f => simp only [hm, Option.isSome_some, if_true, Bool.true_eq_false] at hq
  | none =>
    simp only [hm, Option.isSome_none, Bool.false_eq_true, if_false] at hq ⊢
    simp only [frameReceive, Bool.not_eq_eq_eq_not, Bool.not_true, hf, if_true, if_false, Option.isNone_none, after_eq, at_bind,
      at_get, h, Bool.true_eq_false, hm, hq, at_pure]

/-- A frame that has begun is counted, then cut off by a reassembly error or checked (R85, R327). -/
theorem after_frameReceive_begun (h : d.receives p = true) (hf : frag ≠ 2) (hq : (d.begun c p id idle).1 = true) :
    d.after c (frameReceive p id b fecBad idle frags frag) =
      let pre := d.oB 0x4410 1 p
      let lim := d.startLimits p id
      ((d.begun c p id idle).2.rxCounted c p b lim pre frags).after c
        (if frag = 1 ∧ pre = true then reassemblyError p id b
         else macCheck p b (fecBad || frag == 1 || (decide (0 < frags) && !pre)) lim >>= frameVerdict d p id b lim) := by
  unfold Dev.begun at hq ⊢
  unfold Dev.startLimits Dev.rxCounted frameVerdict
  cases hm : d.receiving p id with
  | some f =>
    cases hp : d.oB 0x4410 1 p <;>
      simp only [frameReceive, Bool.not_eq_eq_eq_not, Bool.not_true, hf, if_true, if_false, Option.isNone_some, Option.isSome_some,
        after_eq, at_bind, at_get, h, Bool.true_eq_false, hm, hp, Bool.false_eq_true, and_false, and_true, Bool.not_false,
        Bool.and_true, Bool.and_false, Bool.or_false, at_addO, at_ite, at_pure]
  | none =>
    simp only [hm, Option.isSome_none, Bool.false_eq_true, if_false] at hq ⊢
    cases hp : d.oB 0x4410 1 p <;>
      simp only [frameReceive, Bool.not_eq_eq_eq_not, Bool.not_true, hf, if_true, if_false, Option.isNone_none,
        after_eq, at_bind, at_get, h, Bool.true_eq_false, hm, hp, hq, Bool.false_eq_true, and_false, and_true, Bool.not_false,
        Bool.and_true, Bool.and_false, Bool.or_false, at_addO, at_ite, at_pure]

end

/-! ### The verdict (R85) -/

section
variable {d : Dev} {p id : Nat} {b : Bytes} (lim : Nat × Nat) (fault : Option Nat)

/-- A number that names no frame names none in reception. -/
theorem receiving_of_frame_none (h : d.frame id = none) : d.receiving p id = none := by simp only [Dev.receiving, h]

theorem verdict_control (h : beAt b 12 2 = 0x8808 ∧ d.frame id = none) :
    frameVerdict d p id b lim fault = if fault = none then controlFrame p b else pure () := if_pos h

theorem verdict_receiving (h : ¬(beAt b 12 2 = 0x8808 ∧ d.frame id = none)) {f : Frame} (hm : d.receiving p id = some f) :
    frameVerdict d p id b lim fault = frameEnds f (if fault = some 3 then b.take lim.2 else b) fault := by
  rw [frameVerdict, if_neg h, hm]

theorem verdict_unknown (h : ¬(beAt b 12 2 = 0x8808 ∧ d.frame id = none)) (hm : d.frame id = none) :
    frameVerdict d p id b lim fault =
      if fault = none ∧ d.yard.nextId ≤ id ∧ d.uopSpan p b = none then portArrive p b true else pure () := by
  rw [frameVerdict, if_neg h, receiving_of_frame_none hm]
  simp only [hm, true_and, Option.isNone_iff_eq_none]

end

theorem exec_frameReceive_on (s : State) {p frag : Nat} (id : Nat) (b : Bytes) (fecBad idle : Bool) (frags : Nat) (hp : p < 256) (hf : frag < 3) :
    exec (.frameReceive p id b fecBad idle frags frag) s =
      .next (s.on (s.dev.after s.clk (frameReceive p id b fecBad idle frags frag))) := exec_on (decide_eq_true ⟨hp, hf⟩) rfl

/-- Settles O33: the checks case by case; then the end of a frame by whether its port receives, whether it begins, and what the checks
say of it. -/
theorem framesAreCheckedAndEnd : Obligations.FramesAreCheckedAndEnd := by
  refine ⟨?checks, ?ends, at_rxStart⟩
  case checks =>
    intro c d p b fecBad lim _
    refine ⟨macCheck_runt c d p b fecBad lim, macCheck_jabber c d p b fecBad lim, macCheck_oversize c d p b fecBad lim, ?_⟩
    intro h hj ho
    have fitting := macCheck_fitting c d p b fecBad lim h hj ho
    refine ⟨fun stomped => fitting.trans (if_pos stomped), fun sound bad => fitting.trans ?_, fun sound fecGood fcsGood => fitting.trans ?_⟩
    · rw [if_neg sound, if_pos bad]
    · rw [if_neg sound, if_neg (not_or.mpr ⟨by rw [fecGood]; decide, not_not_intro fcsGood⟩)]
  case ends =>
    intro s p id b fecBad idle frags frag hp hfrag pre mine lim q d d1 d2 r e ans starts control
    have run : ans = .next (s.on (s.dev.after s.clk (frameReceive p id b fecBad idle frags frag))) :=
      exec_frameReceive_on s id b fecBad idle frags hp hfrag
    have begins (h : starts) : ans = .next (s.on (d2.after s.clk (if frag = 1 ∧ pre = true then reassemblyError p id b
        else macCheck p b (fecBad || frag == 1 || (decide (0 < frags) && !pre)) lim >>= frameVerdict s.dev p id b lim))) := by
      obtain ⟨hr, hf, hq⟩ := h
      rw [run, after_frameReceive_begun s.clk s.dev p id b fecBad idle frags frag hr hf hq]
      rfl
    have judged (h : starts) (hn : ¬(frag = 1 ∧ pre = true)) : ans = .next (s.on (e.after s.clk (frameVerdict s.dev p id b lim r.1))) := by
      rw [begins h, if_neg hn]
      rfl
    have frameKept : d.frame id = s.dev.frame id := begun_frame s.clk s.dev p id idle id
    have nextIdKept : d.yard.nextId = s.dev.yard.nextId := begun_nextId s.clk s.dev p id idle
    have uopKept : d.uopSpan p b = s.dev.uopSpan p b := begun_uopSpan s.clk s.dev p id b idle
    refine ⟨fun hr => ?deaf, fun hr hf => ?verify, fun hr hf hq => ?discarded, fun h hf hpre => ?cut, fun h hn =>
      ⟨fun hc => ?control, fun f hc hm => ?receiving, fun hc hm hg hid hu => ?arrives, fun hc hm ho => ?stays⟩⟩
    case deaf => rw [run, after_frameReceive_deaf s.clk s.dev p id b fecBad idle frags frag hr, on_dev]
    case verify => subst hf; rw [run, after_frameReceive_verify s.clk s.dev p id b fecBad idle frags hr, apply_ite s.on, on_dev]
    case discarded => rw [run, after_frameReceive_discarded s.clk s.dev p id b fecBad idle frags frag hr hf hq, on_dev]
    case cut => rw [begins h, if_pos ⟨hf, hpre⟩]
    case control => rw [judged h hn, verdict_control lim r.1 (frameKept ▸ hc)]; split <;> rfl
    case receiving => rw [judged h hn, verdict_receiving lim r.1 (frameKept ▸ hc) hm]
    case arrives =>
      rw [judged h hn, verdict_unknown lim r.1 (frameKept ▸ hc) (frameKept ▸ hm), if_pos ⟨hg, nextIdKept ▸ hid, uopKept ▸ hu⟩]
    case stays =>
      rw [judged h hn, verdict_unknown lim r.1 (frameKept ▸ hc) (frameKept ▸ hm), ← nextIdKept, ← uopKept, if_neg, after_pure]
      rintro ⟨hg, hid, hu⟩
      exact ho.elim (· hg) (·.elim (Nat.not_lt.mpr hid) (· hu))

end Sys2Proof.Machine
end

section
/-! Loops of an effect: one that carries a value, and one of updates. -/

namespace Sys2Proof.Machine

/-- A loop of updates folds them over the device. -/
theorem at_forIn_modify {α : Type} (c : Clock) (l : List α) (g : α → Dev → Dev) (d : Dev) :
    M.at (forIn l PUnit.unit (fun a _ => do modify (g a); pure (ForInStep.yield PUnit.unit))) c d =
      (PUnit.unit, l.foldl (fun d a => g a d) d) := by
  induction l generalizing d with
  | nil => rfl
  | cons a r ih =>
    rw [List.forIn_cons, at_bind_bind, at_modify_bind, at_pure_bind]
    exact ih (g a d)

/-- What every pass of a loop that carries a value keeps, with the elements done so far, holds of all of them at its end. -/
theorem forIn_inv {α β : Type} (c : Clock) (P : List α → β → Dev → Prop) (f : α → β → M (ForInStep β))
    (step : ∀ done a b d, P done b d → ∃ b', (M.at (f a b) c d).1 = .yield b' ∧ P (done ++ [a]) b' (M.at (f a b) c d).2)
    (l done : List α) (b : β) (d : Dev) (h : P done b d) :
    P (done ++ l) (M.at (forIn l b f) c d).1 (M.at (forIn l b f) c d).2 := by
  induction l generalizing done b d with
  | nil => rw [List.append_nil]; exact h
  | cons a r ih =>
    obtain ⟨b', hyield, hnext⟩ := step done a b d h
    rw [List.forIn_cons, at_bind, hyield, List.append_cons]
    exact ih (done ++ [a]) b' _ hnext

end Sys2Proof.Machine
end

section
/-! Plumb frames (R109, R111, R112, R120, R125, R138): what a line does with a frame that comes, and the frames that it sends. -/

namespace Sys2Proof.Machine

/-! ### Reception (R112, R125) -/

section
variable (c : Clock) (d : Dev) (p k : Nat) (blocks : List Nat) (b : Array Nat)

/-- A port whose line takes frames at their expected position: slotted, enabled, in neither of the states 6 and 7. -/
def Dev.plumbReceives (d : Dev) (p : Nat) : Prop := d.slotted p = true ∧ d.oB 0x2400 2 p = true ∧ d.o 0x2400 3 p ≠ 6 ∧ d.o 0x2400 3 p ≠ 7

theorem after_plumbRx_off (h : ¬d.plumbReceives p) : d.after c (plumbRx p blocks) = d := by
  unfold Dev.plumbReceives at h
  simp only [after_eq, plumbRx, at_get_bind, h, if_false, at_pure]

theorem after_plumbRx_on (h : d.plumbReceives p) : d.after c (plumbRx p blocks) =
    if bitOf (d.o 0x2880 1 p) 0 = true then d
    else if d.o 0x2800 1 p = 2 then d.after c (alignedFrame p (d.slotsOf p / 20) blocks blocks.toArray)
    else d.after c (searchFrame p (d.slotsOf p / 20) blocks.toArray) := by
  unfold Dev.plumbReceives at h
  simp only [after_eq, plumbRx, at_get_bind, h, ne_eq, not_false_eq_true, and_self, if_true, at_ite, at_pure, apply_ite Prod.snd]

/-- The connections sent on the line of port `p` are to be established anew (R121). -/
def Dev.resend (d : Dev) (p : Nat) : Dev :=
  { d with plumb.txTribs := d.plumb.txTribs.map (fun x =>
      if (d.lineOf p).contains (x.1 / 160) then (x.1, { x.2 with src := none, fifo := [] }) else x) }

/-- The second of two frames in a row with consecutive numbers aligns a line; a first one is remembered (R112). -/
theorem after_searchFrame : d.after c (searchFrame p k b) =
    let h := frameHead k b
    let l := d.rxLine p
    if h.1 = true ∧ h.2.1 = true ∧ l.cand = some ((h.2.2 + 31) % 32) then
      ((((d.setO 0x2800 1 p 2).setRxLine p
          { l with cand := none, miss := 0, lomBad := 0, lomOk := 0, mfn := h.2.2, hist := [], bips := unitBips k b }).after c
        (setLineDef p (setBit (d.o 0x2880 1 p) 1 false))).after c (ssfUpdate p)).resend p
    else d.setRxLine p { l with cand := if h.1 = true ∧ h.2.1 = true then some h.2.2 else none } := by
  rcases hh : frameHead k b with ⟨ok, all, m⟩
  simp only [after_eq, searchFrame, at_get_bind, hh, at_ite, at_set_bind, at_set, apply_ite Prod.snd]
  rw [at_bind, at_bind, at_modify]
  rfl

/-- The third frame in a row without its alignment bytes ends the alignment of a line (R112). -/
theorem after_alignedFrame_lost (h : (frameHead k b).1 = false) (hm : 2 ≤ (d.rxLine p).miss) :
    d.after c (alignedFrame p k blocks b) =
      (((d.setRxLine p { d.rxLine p with miss := 0 }).after c (setLineDef p (setBit (d.o 0x2880 1 p) 1 true))).after c
        (lineLost p)).after c (ssfUpdate p) := by
  have third : 3 ≤ (d.rxLine p).miss + 1 := Nat.succ_le_succ hm
  rw [after_eq, alignedFrame, at_get_bind]
  simp only [h, Bool.false_eq_true, if_false, third, if_true]
  rw [at_set_bind, at_bind, at_bind]
  rfl

end

/-! ### What the tributaries of a frame leave (R113, R120, R128) -/

/-- What a frame of a line stands on beside its tributaries: what has been sent, the transmit lines, and the modes of the ports. -/
structure Dev.SameLines (d e : Dev) : Prop where
  out : e.out = d.out
  tx : e.plumb.tx = d.plumb.tx
  mode : ∀ p, e.o 0x2400 1 p = d.o 0x2400 1 p

theorem Dev.SameLines.txLine {d e : Dev} (h : d.SameLines e) (p : Nat) : e.txLine p = d.txLine p := by
  rw [Dev.txLine, h.tx, ← Dev.txLine]

theorem Dev.SameLines.slotsOf {d e : Dev} (h : d.SameLines e) (p : Nat) : e.slotsOf p = d.slotsOf p := congrArg modeSlots (h.mode p)

theorem sameLines_refl (d : Dev) : d.SameLines d := ⟨rfl, rfl, fun _ => rfl⟩

theorem sameLines_trans {d e f : Dev} (h : d.SameLines e) (g : e.SameLines f) : d.SameLines f :=
  ⟨g.out.trans h.out, g.tx.trans h.tx, fun p => (g.mode p).trans (h.mode p)⟩

theorem sameLines_setTxTrib (d : Dev) (i : Nat) (x : TxTrib) : d.SameLines (d.setTxTrib i x) := ⟨rfl, rfl, fun _ => rfl⟩

theorem sameLines_addO (d : Dev) {ix : Nat} (sub i n : Nat) (h : ix ≠ 0x2400) : d.SameLines (d.addO ix sub i n) :=
  ⟨rfl, rfl, fun p => by rw [o_addO, if_neg fun hk => h hk.1.symm]⟩

/-- An effect that sends nothing, and leaves the transmit lines and the modes of the ports. -/
def KeepsLines {α : Type} (f : M α) : Prop := ∀ c d, Dev.SameLines d (M.at f c d).2

section
variable {α β : Type}

theorem keepsLines_pure (a : α) : KeepsLines (pure a : M α) := fun _ d => sameLines_refl d

theorem keepsLines_get : KeepsLines (get : M Dev) := fun _ d => sameLines_refl d

theorem keepsLines_devNow : KeepsLines devNow := fun _ d => sameLines_refl d

theorem keepsLines_modify {g : Dev → Dev} (h : ∀ d, Dev.SameLines d (g d)) : KeepsLines (modify g : M PUnit) := fun _ d => h d

theorem keepsLines_bind {f : M α} {g : α → M β} (hf : KeepsLines f) (hg : ∀ a, KeepsLines (g a)) : KeepsLines (f >>= g) :=
  fun c d => sameLines_trans (hf c d) (hg _ c _)

theorem keepsLines_raiseEv (src code sev p1 p2 p3 : Nat) : KeepsLines (raiseEv src code sev p1 p2 p3) := fun c d =>
  ⟨raiseEv_out c d _ _ _ _ _ _, congrArg Plumb.tx (raiseEv_plumb c d _ _ _ _ _ _),
    fun _ => raiseEv_o c d _ _ _ _ _ _ _ _ _ (by decide) (by decide)⟩

theorem keepsLines_incO {ix : Nat} (sub i : Nat) (h : ix ≠ 0x2400) : KeepsLines (incO ix sub i) := fun _ d => sameLines_addO d sub i 1 h

end

theorem keepsLines_establish (x : Conn) (k : Nat) : KeepsLines (establish x k) := fun _ _ => ⟨rfl, rfl, fun _ => rfl⟩

theorem keepsLines_fifoDraw (x : Conn) : KeepsLines (fifoDraw x) := by
  unfold fifoDraw
  refine keepsLines_bind keepsLines_devNow fun now => keepsLines_bind keepsLines_get fun d => ?_
  extract_lets g fill aim slip rest
  have slipKeeps (kind : Nat) : KeepsLines (slip kind) :=
    keepsLines_bind (keepsLines_incO _ _ (by decide)) fun _ => keepsLines_bind (keepsLines_raiseEv _ _ _ _ _ _) fun _ =>
      keepsLines_bind keepsLines_get fun _ => keepsLines_modify fun d => sameLines_setTxTrib d _ _
  have restKeeps (u : PUnit) : KeepsLines (rest u) := fun _ d => sameLines_setTxTrib d _ _
  split
  · exact keepsLines_bind (slipKeeps 0) restKeeps
  split
  · exact keepsLines_bind (slipKeeps 1) restKeeps
  · exact restKeeps ()

theorem keepsLines_mapDraw (e n fuel : Nat) (acc : List Nat) : KeepsLines (mapDraw e n fuel acc) := by
  induction fuel generalizing acc with
  | zero => exact keepsLines_pure _
  | succ fuel ih =>
    intro c d
    rw [mapDraw, at_get_bind]
    dsimp only
    split
    · exact sameLines_refl d
    split
    · exact sameLines_trans (sameLines_setTxTrib d e _) (ih _ _ _)
    split
    · rw [at_set_bind]
      refine sameLines_trans ?_ (ih _ _ _)
      exact ⟨rfl, rfl, fun _ => rfl⟩
    · exact sameLines_refl d

/-- The blocks of an output tributary are drawn from its FIFO, its frames or its pattern; nothing leaves the device yet. -/
theorem keepsLines_tribSend (x : Conn) : KeepsLines (tribSend x) := by
  unfold tribSend
  refine keepsLines_bind keepsLines_get fun d => ?_
  extract_lets g refused n0 src place
  have placeKeeps (y : Nat × Bool × Nat × List Nat) : KeepsLines (place y) := fun _ d => sameLines_refl d
  have placed (y : Nat × Bool × Nat × List Nat) : KeepsLines (pure y >>= place) := placeKeeps y
  clear_value src
  split
  · exact placed _
  split
  · split
    · exact placed _
    · next k =>
      extract_lets sl switched
      have switchedKeeps (u : PUnit) : KeepsLines (switched u) := by
        refine keepsLines_bind keepsLines_get fun e => ?_
        split
        · exact keepsLines_bind (keepsLines_fifoDraw x) fun _ => placed _
        · exact placed _
      split
      · exact placed _
      split
      · split
        · exact keepsLines_bind (keepsLines_establish x k) switchedKeeps
        · exact switchedKeeps ()
      · exact switchedKeeps ()
  · exact keepsLines_bind (keepsLines_mapDraw _ _ _ _) fun _ => placed _
  · exact keepsLines_bind (keepsLines_modify fun d => sameLines_setTxTrib d _ _) fun _ => placed _
  · exact placed _

theorem keepsLines_dccTake (p n : Nat) : KeepsLines (dccTake p n) := by
  intro c d
  rw [dccTake, at_get_bind]
  extract_lets pad count
  have countKeeps (b : Bytes) : KeepsLines (count b) :=
    keepsLines_bind (fun _ d => sameLines_addO d _ _ _ (by decide)) fun _ => keepsLines_pure b
  have queueTaken (x : Plumb) (b : Bytes) (h : x.tx = d.plumb.tx) : Dev.SameLines d (M.at (count b) c { d with plumb := x }).2 := by
    refine sameLines_trans ?_ (countKeeps b c _)
    exact ⟨rfl, h, fun _ => rfl⟩
  split
  · exact queueTaken _ _ rfl
  · split
    · exact queueTaken _ _ rfl
    · exact countKeeps _ c d
  · exact countKeeps _ c d

/-! ### The frame of a line (R109, R111) -/

/-- Rounds of as many blocks each. -/
theorem length_rounds {α : Type} (m : Nat) (l : List α) (f : Nat → α → Nat) :
    ((List.range m).flatMap fun r => l.map (f r)).length = m * l.length := by
  simp only [List.length_flatMap, List.length_map, List.map_const', List.length_range, List.sum_replicate_nat]

/-- A line sends one frame of its unit blocks and 1,024 rounds of its slots, and notes it. -/
theorem at_memberFrame (c : Clock) (d : Dev) (p : Nat) (tribs : List (List Nat × Array Nat)) : ∃ e x blocks, d.SameLines e ∧
    M.at (memberFrame p tribs) c d = ((), { e.setTxLine p x with out := e.out ++ [.plumb p blocks] }) ∧
      blocks.length = d.slotsOf p / 20 + 1024 * d.slotsOf p ∧ x.mfn = ((d.txLine p).mfn + 1) % 32 := by
  rw [memberFrame, at_read_bind, at_get_bind]
  extract_lets n k t where_ body
  have rounds : body.length = 1024 * n := by rw [length_rounds, List.length_map, List.length_range]
  rw [at_bind, at_get_bind]
  refine ⟨_, _, _, keepsLines_dccTake p (2 * k) c d, rfl, ?_, rfl⟩
  rw [List.length_append, rounds, List.length_map, List.length_range]

theorem memberFrame_out (c : Clock) (d : Dev) (p : Nat) (tribs : List (List Nat × Array Nat)) :
    ∃ blocks, (M.at (memberFrame p tribs) c d).2.out = d.out ++ [.plumb p blocks] := by
  obtain ⟨e, x, blocks, kept, hat, -, -⟩ := at_memberFrame c d p tribs
  exact ⟨blocks, by rw [hat, kept.out]⟩

/-- The port whose line sends a Plumb frame. -/
def Out.plumbPort : Out → Option Nat
  | .plumb q _ => some q
  | _ => none

/-- A frame of each of `live` leaves, in their order. -/
theorem memberFrames_out (c : Clock) (tribs : List (List Nat × Array Nat)) (live : List Nat) (d : Dev) : ∃ sent,
    (M.at (forIn live PUnit.unit fun q _ => do memberFrame q tribs; pure (ForInStep.yield PUnit.unit)) c d).2.out = d.out ++ sent ∧
      sent.filterMap Out.plumbPort = live := by
  induction live generalizing d with
  | nil => exact ⟨[], (List.append_nil _).symm, rfl⟩
  | cons q rest ih =>
    obtain ⟨blocks, hout⟩ := memberFrame_out c d q tribs
    obtain ⟨sent, hrest, hlive⟩ := ih (M.at (memberFrame q tribs) c d).2
    refine ⟨.plumb q blocks :: sent, ?_, ?_⟩
    · rw [List.forIn_cons, at_bind_bind, at_bind, at_pure_bind]
      refine hrest.trans ?_
      rw [hout, List.append_assoc, List.singleton_append]
    · rw [List.filterMap_cons, Out.plumbPort, hlive]

/-- The tributaries of a line are drawn, in the order of its plan. -/
def tribsSent (plan : List Conn) : M (List (List Nat × Array Nat)) := do
  let mut out : List (List Nat × Array Nat) := []
  for c in plan do
    let a ← tribSend c
    out := out ++ [(c.slots, a)]
  return out

theorem keepsLines_tribsSent (plan : List Conn) : KeepsLines (tribsSent plan) := fun c d =>
  forIn_inv c (fun _ _ e => d.SameLines e) _
    (fun _ x _ e h => ⟨_, rfl, sameLines_trans h (keepsLines_tribSend x c e)⟩) plan [] [] d (sameLines_refl d)

section
variable (c : Clock) (d : Dev) (p : Nat)

theorem after_plumbTx_silent (h : d.plumbSends p = false) : d.after c (plumbTx p) = d := by
  simp only [after_eq, plumbTx, at_get_bind, h, Bool.false_eq_true, if_false, at_pure]

/-- A member of a group that is not the first that sends leaves the frames to it (R132). -/
theorem after_plumbTx_later (h : ((d.lineOf p).filter d.plumbSends).headD p ≠ p) : d.after c (plumbTx p) = d := by
  simp only [after_eq, plumbTx, at_get_bind, h, if_false, ite_self, at_pure]

theorem after_plumbTx_first (hp : d.plumbSends p = true) (h : ((d.lineOf p).filter d.plumbSends).headD p = p) :
    d.after c (plumbTx p) =
      let r := M.at (tribsSent (d.plan (d.lineOf p))) c d
      r.2.after c (forIn ((d.lineOf p).filter d.plumbSends) PUnit.unit fun q _ => do
        memberFrame q r.1; pure (ForInStep.yield PUnit.unit)) := by
  simp only [after_eq, plumbTx, tribsSent, at_get_bind, hp, h, if_true, bind_pure]
  rw [at_bind, at_bind, at_pure]

end

theorem plumbSends_iff (d : Dev) (p : Nat) : d.plumbSends p = true ↔
    d.slotted p = true ∧ d.txStopped p = false ∧ d.oB 0x2400 2 p = true ∧ d.o 0x2400 3 p ≠ 7 := by
  simp only [Dev.plumbSends, Bool.and_eq_true, Bool.not_eq_true', bne_iff_ne, ne_eq, and_assoc]

/-- A line of one port that sends takes one frame of its own (R111, R120). -/
theorem after_plumbTx_alone (c : Clock) (d : Dev) (p : Nat) (hp : d.plumbSends p = true) (line : d.lineOf p = [p]) : ∃ blocks,
    (d.after c (plumbTx p)).out = d.out ++ [.plumb p blocks] ∧ blocks.length = d.slotsOf p / 20 + 1024 * d.slotsOf p ∧
      ((d.after c (plumbTx p)).txLine p).mfn = ((d.txLine p).mfn + 1) % 32 := by
  have live : (d.lineOf p).filter d.plumbSends = [p] := by rw [line, List.filter_cons_of_pos hp, List.filter_nil]
  have drawn := keepsLines_tribsSent (d.plan (d.lineOf p)) c d
  obtain ⟨e, x, blocks, kept, hat, hlen, hmfn⟩ := at_memberFrame c (M.at (tribsSent (d.plan (d.lineOf p))) c d).2 p
    (M.at (tribsSent (d.plan (d.lineOf p))) c d).1
  have sent : d.after c (plumbTx p) = { e.setTxLine p x with out := e.out ++ [.plumb p blocks] } := by
    rw [after_plumbTx_first c d p hp (by rw [live]; rfl), live]
    exact congrArg Prod.snd hat
  have slots : (M.at (tribsSent (d.plan (d.lineOf p))) c d).2.slotsOf p = d.slotsOf p := drawn.slotsOf p
  have line_ : (M.at (tribsSent (d.plan (d.lineOf p))) c d).2.txLine p = d.txLine p := drawn.txLine p
  refine ⟨blocks, ?_, ?_, ?_⟩
  · rw [sent, kept.out, drawn.out]
  · rw [hlen, slots]
  · rw [sent, ← line_, ← hmfn]
    exact congrArg TxLine.mfn (txLine_setTxLine_same e p x)

/-- The first member of a group that sends takes a frame of each of those that send (R132). -/
theorem after_plumbTx_group (c : Clock) (d : Dev) (p : Nat) (hp : d.plumbSends p = true)
    (first : ((d.lineOf p).filter d.plumbSends).headD p = p) : ∃ sent,
    (d.after c (plumbTx p)).out = d.out ++ sent ∧ sent.filterMap Out.plumbPort = (d.lineOf p).filter d.plumbSends := by
  rw [after_plumbTx_first c d p hp first, ← (keepsLines_tribsSent (d.plan (d.lineOf p)) c d).out]
  exact memberFrames_out c _ _ _

/-! ### The commands -/

section
variable (s : State) {p : Nat}

theorem dev_on (d : Dev) : (s.on d).dev = d := rfl

theorem exec_plumbFrameRx_on (blocks : List Nat) (hp : p < 256) :
    exec (.plumbFrameRx p blocks) s = .next (s.on (s.dev.after s.clk (plumbRx p blocks))) := exec_on (decide_eq_true hp) rfl

theorem exec_plumbFrameTx_on (hp : p < 256) :
    exec (.plumbFrameTx p) s = .next (s.on (s.dev.after s.clk (plumbTx p))) := exec_on (decide_eq_true hp) rfl

end

/-- Settles O29: reception by whether the line takes the frame, whether the port has a fault, and where its alignment stands; then what the
line, alone or the first of its group, sends. -/
theorem plumbFramesAreReceivedAndSent : Obligations.PlumbFramesAreReceivedAndSent := by
  refine ⟨?receives, ?silent, ?alone, ?group⟩
  case receives =>
    intro s p blocks hp d on k b h l fault ans
    have run : ans = .next (s.on (d.after s.clk (plumbRx p blocks))) := exec_plumbFrameRx_on s blocks hp
    have received (live : on) (sound : fault = false) : ans = .next (s.on (if d.o 0x2800 1 p = 2 then
        d.after s.clk (alignedFrame p k blocks b) else d.after s.clk (searchFrame p k b))) := by
      rw [run, after_plumbRx_on s.clk d p blocks live, if_neg (Bool.eq_false_iff.mp sound)]
    refine ⟨fun off => ?off, fun live faulty => ?faulty, fun live sound searching h1 h2 h3 => ?aligned,
      fun live sound searching first => ?searches, fun live sound aligned h1 hm => ?lost, fun live sound aligned _ => ?taken⟩
    case off => rw [run, after_plumbRx_off s.clk d p blocks off, on_dev]
    case faulty => rw [run, after_plumbRx_on s.clk d p blocks live, if_pos faulty, on_dev]
    case aligned => rw [received live sound, if_neg searching, after_searchFrame, if_pos ⟨h1, h2, h3⟩, Dev.resend]
    case searches => rw [received live sound, if_neg searching, after_searchFrame, if_neg first]
    case lost => rw [received live sound, if_pos aligned, after_alignedFrame_lost s.clk d p k blocks b h1 hm]
    case taken => rw [received live sound, if_pos aligned]
  case silent =>
    intro s p hp off
    rw [exec_plumbFrameTx_on s hp, after_plumbTx_silent s.clk s.dev p (Bool.eq_false_iff.mpr (mt (plumbSends_iff s.dev p).mp off)), on_dev]
  case alone =>
    intro s p hp slotted runs enabled mode line
    obtain ⟨blocks, sent⟩ := after_plumbTx_alone s.clk s.dev p ((plumbSends_iff s.dev p).mpr ⟨slotted, runs, enabled, mode⟩) line
    exact ⟨_, blocks, exec_plumbFrameTx_on s hp, sent⟩
  case group =>
    intro s p hp sends live
    refine ⟨fun later => ?_, fun first => ?_⟩
    · rw [exec_plumbFrameTx_on s hp, after_plumbTx_later s.clk s.dev p later, on_dev]
    · obtain ⟨sent, hout, hlive⟩ := after_plumbTx_group s.clk s.dev p sends first
      refine ⟨_, exec_plumbFrameTx_on s hp, ?_, ?_⟩
      · rw [dev_on, hout, List.take_left]
      · rw [dev_on, hout, List.drop_left]
        exact hlive

end Sys2Proof.Machine
end

section
/-! Connection pages, the receive map and overhead ports (R123, R124, R129, R132, R135). -/

namespace Sys2Proof.Machine

/-! ### Page swaps (R123, R129, R132) -/

/-- The ports whose pages swap with that of port `p`: the members of its line that wait for the same commit (R132). -/
def Dev.swapPorts (d : Dev) (p e : Nat) : List Nat :=
  p :: (d.lineOf p).filter (fun q => q != p && d.pendingPart 0x0A (1 + q) == some e)

/-- A packet client that shrinks on port `q`, which sends, holds a bounded frame (R129). -/
def Dev.swapHeld (d : Dev) (now q : Nat) : Bool := d.slotted q && d.oB 0x2400 2 q && (d.shrinks q now).isSome

/-- The first client that holds the swap of `ports` back. -/
def Dev.swapHolder (d : Dev) (now : Nat) (ports : List Nat) : Nat := (ports.findSome? (d.shrinks · now)).getD 0

/-- The swap of line `q` is put off: since when, and for which client (R129). -/
def Dev.putOff (run key : Nat) (d : Dev) (q : Nat) : Dev :=
  d.setTxLine q { d.txLine q with deferred := some ((d.txLine q).deferred.getD run), deferKey := key }

section
variable (c : Clock) (d : Dev) (p : Nat)

theorem after_cmPageSwap_uncommitted (h : d.pendingPart 0x0A (1 + p) = none) : d.after c (cmPageSwap p) = d := by
  simp only [after_eq, cmPageSwap, at_get_bind, at_read_bind, h, at_pure]

/-- The pages of the ports of one commit swap once every one of them is due, or are put off by a client that holds them back. -/
theorem after_cmPageSwap_committed {e : Nat} {ports : List Nat} (h : d.pendingPart 0x0A (1 + p) = some e)
    (hports : d.swapPorts p e = ports) : d.after c (cmPageSwap p) =
    if ∃ q ∈ ports, d.pageDue c q = false then d
    else if ∃ q ∈ ports, d.swapHeld c.dev q = true then ports.foldl (Dev.putOff c.run (d.swapHolder c.dev ports)) d
    else d.after c (pageSwapGo ports e) := by
  subst hports
  simp only [after_eq, cmPageSwap, at_get_bind, at_read_bind, h, at_ite, at_pure, Bool.not_eq_true', apply_ite Prod.snd,
    List.all_eq_false, List.any_eq_true, Bool.not_eq_true]
  rw [at_bind, at_forIn_modify]
  rfl

end

/-- A line that is put off keeps when it was first put off; the others are left alone. -/
theorem txLine_foldl_putOff (run key : Nat) (l : List Nat) (d : Dev) (q : Nat) :
    (l.foldl (Dev.putOff run key) d).txLine q =
      if q ∈ l then { d.txLine q with deferred := some ((d.txLine q).deferred.getD run), deferKey := key } else d.txLine q := by
  induction l generalizing d with
  | nil => rfl
  | cons a r ih =>
    rw [List.foldl_cons, ih, Dev.putOff, txLine_setTxLine]
    by_cases ha : q = a <;> by_cases hr : q ∈ r <;> simp [ha, hr]

theorem foldl_putOff_objs (run key : Nat) (l : List Nat) (d : Dev) :
    (l.foldl (Dev.putOff run key) d).objs = d.objs ∧ (l.foldl (Dev.putOff run key) d).dict = d.dict := by
  induction l generalizing d with
  | nil => exact ⟨rfl, rfl⟩
  | cons a r ih => exact ih (d.putOff run key a)

/-! ### Writes of the receive map (R124) -/

theorem row_rxMap {sub : Nat} (h1 : 1 ≤ sub) (h4 : sub ≤ 4) :
    ∃ r, rowOf 0x2820 (sub % 256) = some r ∧ r.staged = false ∧ r.pegged = false ∧ r.acc = .rw := by
  obtain rfl | rfl | rfl | rfl : sub = 1 ∨ sub = 2 ∨ sub = 3 ∨ sub = 4 := by omega
  all_goals decide +kernel

theorem plainWrite_rxMap (pl : Nat) (core : Option Nat) (sub i v : Nat) (fail : List Nat) :
    plainWrite pl core (okey 0x2820 sub i) v fail = rxMapWrite (okey 0x2820 sub i) v := by
  simp only [plainWrite, keyIndex_okey]

theorem at_rxMapWrite (c : Clock) (d : Dev) {sub e : Nat} (v : Nat) (hs : sub < 256) (he : e < 16777216) :
    M.at (rxMapWrite (okey 0x2820 sub e) v) c d =
      if d.o 0x2800 2 (e / 160) = (sub - 1) / 2 then (0x402, d) else (0, (d.setO 0x2820 sub e v).after c recheck) := by
  simp only [rxMapWrite, keySub_okey, keyInst_okey, Nat.mod_eq_of_lt hs, Nat.mod_eq_of_lt he, at_get_bind, at_ite, at_pure]
  rfl

/-! ### Overhead ports (R135) -/

/-- Bytes lost at a full buffer send nothing out of the device. -/
theorem dccLost_out (c : Clock) (d : Dev) (ch n : Nat) : (M.at (dccLost ch n) c d).2.out = d.out := by
  simp only [dccLost, at_ite, at_addO_bind, at_pure, apply_ite Prod.snd, apply_ite Dev.out, raiseLim_out, addO_out, ite_self]

/-- The octets that an overhead port sends in a frame: 17 for each of its channels, and 12 more (R135). -/
theorem at_ohpFrame (c : Clock) (d : Dev) (n : Nat) (rx : Bytes) :
    ∃ b, (M.at (ohpFrame n rx) c d).2.out = d.out ++ [.ohp n b] ∧ b.length = 80 := by
  have framed (r : Bytes × Dev) (h : r.1.length = 17 * 4 ∧ r.2.out = d.out) :
      ∃ b, r.2.out ++ [.ohp n (r.1 ++ List.replicate 12 0xFF#8)] = d.out ++ [.ohp n b] ∧ b.length = 80 :=
    ⟨_, by rw [h.2], by rw [List.length_append, h.1, List.length_replicate]⟩
  rw [ohpFrame, at_bind, at_emit]
  refine framed _ (forIn_inv c (fun done (tx : Bytes) e => tx.length = 17 * done.length ∧ e.out = d.out) _ ?_ (List.range 4) [] [] d
    ⟨rfl, rfl⟩)
  intro done t tx e ⟨hlen, hout⟩
  simp only [at_get_bind]
  split
  · simp only [at_set_bind, at_get_bind]
    rw [at_bind]
    refine ⟨_, rfl, ?_, (dccLost_out _ _ _ _).trans hout⟩
    have octets (l : Bytes) (h : l.length ≤ 16) : l.length + 1 + (16 - l.length) = 17 := by omega
    simp only [List.length_append, List.length_cons, List.length_replicate, hlen, List.length_nil, Nat.mul_add, Nat.add_assoc]
    rw [← Nat.add_assoc _ 1, octets]
    split
    · exact List.length_take_le _ _
    · exact Nat.zero_le _
  · refine ⟨_, rfl, ?_, hout⟩
    simp only [List.length_append, List.length_cons, List.length_replicate, hlen, List.length_nil]
    omega

/-! ### The commands -/

section
variable (s : State) {p n w sub e v : Nat}

theorem exec_cmPageSwap_on (hp : p < 256) : exec (.cmPageSwap p) s = .next (s.on (s.dev.after s.clk (cmPageSwap p))) :=
  exec_on (decide_eq_true hp) rfl

theorem exec_rxMapWrite_on (hw : w < 8) (h1 : 1 ≤ sub) (h4 : sub ≤ 4) (he : e < 40960) (hv : v < 65536) :
    exec (.rxMapWrite w sub e v) s =
      .next (s.on (s.dev.after s.clk (winPut w 0x2820 sub e (if sub % 2 = 1 then 1 else 2) v))) :=
  exec_on (decide_eq_true ⟨hw, h1, h4, by omega, hv⟩) rfl

theorem exec_ohpFrame_on (rx : Bytes) (hn : n < 8) :
    exec (.ohpFrame n rx) s = .next (s.on (s.dev.after s.clk (whileRunning 676 (ohpFrame n rx)))) := exec_on (decide_eq_true hn) rfl

/-- A write of the receive map that passes every check is refused for the page in use, and followed by the checks of refused tributaries
for the other (R119, R124). -/
theorem after_winPut_rxMap {n : Nat} (h1 : 1 ≤ sub) (h4 : sub ≤ 4) (he : e < 40960) (hv : v < 256 ^ n)
    (h : s.writable w (okey 0x2820 sub e) (toBytes n v)) :
    s.on (s.dev.after s.clk (winPut w 0x2820 sub e n v)) =
      if s.dev.o 0x2800 2 (e / 160) = (sub - 1) / 2 then s.wrote w (okey 0x2820 sub e) (toBytes n v) 0x402 id
      else s.wrote w (okey 0x2820 sub e) (toBytes n v) 0 fun d => (d.setO 0x2820 sub e v).after s.clk recheck := by
  obtain ⟨r, hr, staged, pegged, acc⟩ := row_rxMap h1 h4
  have page : (s.dev.winBegin w (toBytes n v)).o 0x2800 2 (e / 160) = s.dev.o 0x2800 2 (e / 160) := rfl
  rw [winPut_ok s w 0x2820 sub e n v r h hr rfl (by decide)]
  simp only [staged, pegged, acc, Bool.false_eq_true, if_false, reduceCtorEq, ofBytes_toBytes, Nat.mod_eq_of_lt hv, plainWrite_rxMap,
    at_rxMapWrite _ _ v (show sub < 256 by omega) (show e < 16777216 by omega), page]
  split <;> rfl

end

/-- Settles O30: a page swap by whether a commit covers it, whether it is due at every port that swaps with it, and whether a client
holds it back; a write of the receive map by the page it names; an overhead frame channel by channel. -/
theorem connectionPagesSwapWhenDue : Obligations.ConnectionPagesSwapWhenDue := by
  refine ⟨fun s p hp => ⟨?uncommitted, ?early, fun e he => ?committed⟩, ?map, fun s n rx hn => ⟨?stalled, ?sends⟩⟩
  case uncommitted => exact fun h => by rw [exec_cmPageSwap_on s hp, after_cmPageSwap_uncommitted s.clk s.dev p h, on_dev]
  case early =>
    intro h
    rw [exec_cmPageSwap_on s hp]
    cases he : s.dev.pendingPart 0x0A (1 + p) with
    | none => rw [after_cmPageSwap_uncommitted s.clk s.dev p he, on_dev]
    | some e => rw [after_cmPageSwap_committed s.clk s.dev p he rfl, if_pos ⟨p, List.mem_cons_self, h⟩, on_dev]
  case committed =>
    intro ports holds
    have held_iff : (∃ q ∈ ports, s.dev.swapHeld s.clk.dev q = true) ↔ holds := by
      simp only [Dev.swapHeld, Bool.and_eq_true, and_assoc, holds]
    have all_due (due : ∀ q ∈ ports, s.dev.pageDue s.clk q = true) : ¬∃ q ∈ ports, s.dev.pageDue s.clk q = false :=
      fun ⟨q, hq, hearly⟩ => Bool.false_ne_true (hearly.symm.trans (due q hq))
    rw [exec_cmPageSwap_on s hp, after_cmPageSwap_committed s.clk s.dev p he (ports := ports) rfl]
    refine ⟨fun early => ?_, fun due hheld => ?_, fun due hfree => ?_⟩
    · rw [if_pos early, on_dev]
    · rw [if_neg (all_due due), if_pos (held_iff.mpr hheld)]
      obtain ⟨hobjs, hdict⟩ := foldl_putOff_objs s.clk.run (s.dev.swapHolder s.clk.dev ports) ports s.dev
      refine ⟨_, rfl, hobjs, hdict, fun q hq => ?_⟩
      have put := txLine_foldl_putOff s.clk.run (s.dev.swapHolder s.clk.dev ports) ports s.dev q
      rw [if_pos hq] at put
      exact ⟨congrArg TxLine.deferred put, congrArg TxLine.deferKey put⟩
    · rw [if_neg (all_due due), if_neg (mt held_iff.mp hfree)]
  case map =>
    intro s w sub e v hw h1 h4 he hv key data h
    have hv' : v < 256 ^ (if sub % 2 = 1 then 1 else 2) := by split at hv <;> simp_all
    have bound : v < 65536 := by split at hv <;> omega
    rw [exec_rxMapWrite_on s hw h1 h4 he bound, after_winPut_rxMap s h1 h4 he hv' h]
    exact ⟨fun page => by rw [if_pos page], fun page => by rw [if_neg page]⟩
  case stalled =>
    intro h
    rw [exec_ohpFrame_on s rx hn, after_eq, at_whileRunning_stalled s.clk s.dev 676 _ h, on_dev]
  case sends =>
    intro h
    obtain ⟨b, hout, hlen⟩ := at_ohpFrame s.clk s.dev n rx
    exact ⟨_, b, exec_ohpFrame_on s rx hn, by rw [after_eq, at_whileRunning s.clk s.dev 676 _ h]; exact hout, hlen⟩

end Sys2Proof.Machine
end

section
/-! Frames that enter the FIFO of their bay (R127, R162, R163, R336, R366). -/

namespace Sys2Proof.Machine

/-! ### The arrival of a frame (R162, R163) -/

section
variable (c : Clock) (d : Dev)

theorem at_peakO (ix sub i v : Nat) : M.at (peakO ix sub i v) c d = ((), if d.o ix sub i < v then d.setO ix sub i v else d) := by
  simp only [peakO, at_getO_bind, at_ite, at_setO, at_pure]
  split <;> rfl

/-- A peak reads the larger of what it read and what is noted. -/
theorem o_peakO (ix sub i v : Nat) : (M.at (peakO ix sub i v) c d).2.o ix sub i = max (d.o ix sub i) v := by
  rw [at_peakO]
  split
  · next h => rw [o_setO_same, Nat.max_eq_right (Nat.le_of_lt h)]
  · next h => exact (Nat.max_eq_left (Nat.not_lt.mp h)).symm

theorem peakO_yard (ix sub i v : Nat) : (M.at (peakO ix sub i v) c d).2.yard = d.yard := by
  rw [at_peakO]; split <;> rfl

/-- With tracing off at its bay, no frame is traced (R386). -/
theorem at_traceTag_off {p : Nat} (h : d.o 0x6040 1 (p / 4) ≠ 1) : M.at (traceTag p) c d = (false, d) := by
  have off : d.oB 0x6040 1 (p / 4) = false := by rw [Dev.oB, beq_eq_false_iff_ne]; exact h
  simp only [traceTag, at_get_bind, off, Bool.not_false, true_or, if_true, at_pure]

/-- The end of a frame that is neither traced nor gives a postcard is not reported (R386, R393). -/
theorem at_reportEnd_silent {f : Frame} (cp : Option Copy) (e : Ending) (ht : f.traced = false) (hp : f.tf 393 1 = 0) :
    M.at (reportEnd f cp e) c d = ((), d) := by
  simp only [reportEnd, ht, hp, Bool.false_eq_true, false_and, if_false, Nat.zero_ne_one, at_pure, ite_self]

/-- A frame as it arrives, untraced: its number, its instants, and the Tenon that it starts with where it brings none (R172). -/
def Dev.arrival (d : Dev) (c : Clock) (f : Frame) (pre : Nat) : Frame :=
  let shift : Int := if f.origin = 0 then d.tsShift f.port 1 else 0
  { f with
    id := d.yard.nextId, t0 := shiftTime c.dev shift, tsNet := shiftTime c.net shift, pre := pre, traced := false
    tenon := if f.tenon = 0 then putFld (putFld (putFld (putFld 0 504 8 f.port) 488 16 f.trib) 485 3 pre) 378 16 0xFF else f.tenon }

/-- What the shedding of a frame does (R163): it is counted at its port and pre-class, and reported. -/
def shedFrame (f : Frame) : M Unit := do
  let c ← read
  incO 0x3021 1 (f.port * 8 + f.pre)
  modify fun d => { d with yard.sheds := (f.bay * 8 + f.pre, c.dev) :: d.yard.sheds.filter (fun x => c.dev < x.2 + uS) }
  let mine := (← get).yard.sheds.filter (fun x => x.1 / 8 == f.bay)
  raiseLim (256 + f.bay) 0x3001 1 f.bay f.bay mine.length (mine.foldl (fun a x => max a (x.1 % 8)) 0) 0
  reportEnd f none { outcome := 1, at0 := c.dev }

/-- The Tenon that a frame starts with asks for no postcard. -/
theorem fld_putFld_reflect (x : Nat) : fld (putFld x 378 16 0xFF) 393 1 = 0 := by
  simp only [fld, putFld, Nat.shiftLeft_eq, Nat.shiftRight_eq_div_pow]
  omega

theorem arrival_reflect {f : Frame} (pre : Nat) (h : f.tf 393 1 = 0) : (d.arrival c f pre).tf 393 1 = 0 := by
  simp only [Frame.tf, Dev.arrival] at h ⊢
  split
  · exact fld_putFld_reflect _
  · exact h

/-- A frame that arrives takes the next number: it enters its FIFO in the last place, or is shed where it comes from a line and the FIFO is
at its limit (R162, R163). -/
theorem after_fifoArrive {f : Frame} {pre : Nat} (untraced : d.o 0x6040 1 (f.port / 4) ≠ 1) :
    d.after c (fifoArrive f pre) =
      let n := (d.fifo f.bay).length
      let g := d.arrival c f pre
      let e := { d with yard.nextId := d.yard.nextId + 1 }
      if f.origin < 2 ∧ (1024 ≤ n ∨ d.ob (d.bankOf f.bay) 0x3023 (pre + 1) ≤ n) then
        e.after c (shedFrame g)
      else
        (({ e with yard.frames := oset d.yard.frames g.id (some g) } : Dev).setFifo f.bay (d.fifo f.bay ++ [g.id])).after c
          (peakO 0x3022 1 f.bay (n + 1)) := by
  simp only [after_eq, fifoArrive, at_get_bind, at_read_bind, at_set_bind]
  rw [at_bind, at_traceTag_off c { d with yard.nextId := d.yard.nextId + 1 } untraced]
  simp only [at_ite, apply_ite Prod.snd]
  refine ite_congr rfl (fun _ => ?_) fun _ => ?_
  · simp only [shedFrame, at_read_bind, Dev.arrival]
  · rw [at_bind, at_setFrame, at_modify_bind]
    simp only [Dev.arrival]
    rfl

theorem row_preShed : (((findRow 0x3021 1).map (fun r => r.ty.len)).getD 8) = 8 := by decide +kernel

/-- A frame that is shed, and gives no postcard, is counted (R163). -/
theorem o_shedFrame {f : Frame} (ht : f.traced = false) (hp : f.tf 393 1 = 0) :
    (M.at (shedFrame f) c d).2.o 0x3021 1 (f.port * 8 + f.pre) = (d.o 0x3021 1 (f.port * 8 + f.pre) + 1) % 2 ^ 64 := by
  simp only [shedFrame, at_read_bind, at_incO_bind, at_modify_bind, at_get_bind]
  rw [at_bind, at_reportEnd_silent _ _ _ _ ht hp, raiseLim_o _ _ _ _ _ _ _ _ _ _ _ _ _ (by decide) (by decide)]
  refine Eq.trans (o_addO d 0x3021 1 _ 1 0x3021 1 _) ?_
  rw [if_pos ⟨rfl, rfl, rfl⟩, row_preShed]
  rfl

/-- Neither the frames nor the FIFOs change at a shed frame. -/
theorem shedFrame_yard {f : Frame} (ht : f.traced = false) (hp : f.tf 393 1 = 0) :
    (M.at (shedFrame f) c d).2.yard.fifos = d.yard.fifos ∧ (M.at (shedFrame f) c d).2.yard.frames = d.yard.frames := by
  simp only [shedFrame, at_read_bind, at_incO_bind, at_modify_bind, at_get_bind]
  rw [at_bind, at_reportEnd_silent _ _ _ _ ht hp, raiseLim_yard]
  exact ⟨rfl, rfl⟩

section
variable (f : Frame) (pre : Nat) (untraced : d.o 0x6040 1 (f.port / 4) ≠ 1)
include untraced

/-- A frame for which there is room stands in its FIFO, last, under the next number (R162, R163). -/
theorem entered_fifoArrive
    (room : ¬(f.origin < 2 ∧ (1024 ≤ (d.fifo f.bay).length ∨ d.ob (d.bankOf f.bay) 0x3023 (pre + 1) ≤ (d.fifo f.bay).length))) :
    let e := d.after c (fifoArrive f pre)
    e.fifo f.bay = d.fifo f.bay ++ [d.yard.nextId] ∧ e.yard.nextId = d.yard.nextId + 1 ∧
      e.o 0x3022 1 f.bay = max (d.o 0x3022 1 f.bay) ((d.fifo f.bay).length + 1) ∧
      e.frame d.yard.nextId = some (d.arrival c f pre) := by
  rw [after_fifoArrive c d untraced]
  simp only [if_neg room, after_eq]
  refine ⟨?_, ?_, o_peakO _ _ _ _ _ _, ?_⟩
  · rw [Dev.fifo, peakO_yard]; exact fifo_setFifo_same _ _ _
  · rw [peakO_yard]; rfl
  · have placed := oget_oset_same d.yard.frames (d.arrival c f pre).id (some (d.arrival c f pre))
    rw [Dev.frame, peakO_yard]
    exact placed

/-- A frame from a line that finds no room is shed, and counted at its port and pre-class (R163). -/
theorem shed_fifoArrive (full : f.origin < 2 ∧ (1024 ≤ (d.fifo f.bay).length ∨
      d.ob (d.bankOf f.bay) 0x3023 (pre + 1) ≤ (d.fifo f.bay).length)) (plain : f.tf 393 1 = 0) :
    let e := d.after c (fifoArrive f pre)
    e.fifo f.bay = d.fifo f.bay ∧ e.frame d.yard.nextId = d.frame d.yard.nextId ∧
      e.o 0x3021 1 (f.port * 8 + pre) = (d.o 0x3021 1 (f.port * 8 + pre) + 1) % 2 ^ 64 := by
  rw [after_fifoArrive c d untraced]
  simp only [if_pos full, after_eq]
  have reflect := arrival_reflect c d pre plain
  obtain ⟨hfifos, hframes⟩ := shedFrame_yard c { d with yard.nextId := d.yard.nextId + 1 } (f := d.arrival c f pre) rfl reflect
  refine ⟨?_, ?_, o_shedFrame c _ (f := d.arrival c f pre) rfl reflect⟩
  · rw [Dev.fifo, hfifos]; rfl
  · rw [Dev.frame, hframes]; rfl

end

/-- A frame that the receiver does not begin changes nothing (R85). -/
theorem rxStart_false (p : Nat) (idle : Bool) (h : (M.at (rxStart p idle) c d).1 = false) : (M.at (rxStart p idle) c d).2 = d := by
  rw [at_rxStart] at h ⊢
  split at h
  · cases h
  split at h
  · next hj hi => rw [if_neg hj, if_pos hi]
  · cases h

/-- The head of a frame of an Ethernet port arrives where its receiver begins it, and it is neither for UOP nor MAC control (R162). -/
theorem after_fifoEntry (p : Nat) (b : Bytes) (idle : Bool) : d.after c (fifoEntry p b idle) =
    if d.receives p = false then d
    else if (M.at (rxStart p idle) c d).1 = true ∧ (M.at (rxStart p idle) c d).2.uopSpan p b = none ∧ beAt b 12 2 ≠ 0x8808 then
      (M.at (rxStart p idle) c d).2.after c (portArrive p b false)
    else (M.at (rxStart p idle) c d).2 := by
  rw [after_eq, fifoEntry, at_get_bind, at_ite]
  cases hr : d.receives p with
  | false => simp only [Bool.false_eq_true, if_false, if_true, at_pure]
  | true =>
    simp only [if_true, Bool.true_eq_false, if_false]
    rw [at_bind, at_ite, at_get_bind, at_ite]
    cases hs : (M.at (rxStart p idle) c d).1 with
    | false => simp only [Bool.false_eq_true, if_false, false_and, at_pure]
    | true => simp only [if_true, true_and, Option.isNone_iff_eq_none, apply_ite Prod.snd, at_pure, after_eq]

/-! ### Client frames (R127) -/

section
variable {e : Nat} (b : Bytes) (bad : Bool)

/-- The instant at which a client frame that ends now began: by the blocks of its tributary (R128, R149). -/
def Dev.clientStart (d : Dev) (c : Clock) (e : Nat) (b : Bytes) : Nat :=
  c.dev - tribTime (d.rxTrib e).slots.length (tribBlocks b.length)

/-- The octets of a client frame are counted at the port of its key (R127). -/
def Dev.clientCounted (d : Dev) (c : Clock) (k : Nat) (b : Bytes) : Dev := d.after c (bwAdd (k / 160) 0 (min b.length 16384))

/-- No frame comes from a tributary that is no packet client. -/
theorem after_clientFrame_off (h : (d.rxTrib e).mode ≠ 2 ∨ (d.rxTrib e).slots = []) : d.after c (clientFrame e b bad) = d := by
  simp only [after_eq, clientFrame, at_get_bind, at_devNow_bind, List.isEmpty_iff, h, if_true, at_pure]

theorem after_clientFrame_cut (h : ¬((d.rxTrib e).mode ≠ 2 ∨ (d.rxTrib e).slots = [])) {x : Option Nat}
    (cut : d.cutBySelector e (d.clientStart c e b) = some x) :
    d.after c (clientFrame e b bad) = match x with | some k => d.addO 0x2832 4 k 1 | none => d := by
  unfold Dev.clientStart at cut
  simp only [after_eq, clientFrame, at_get_bind, at_devNow_bind, List.isEmpty_iff, h, if_false, cut]
  cases x <;> rfl

theorem after_clientFrame_unread (h : ¬((d.rxTrib e).mode ≠ 2 ∨ (d.rxTrib e).slots = []))
    (cut : d.cutBySelector e (d.clientStart c e b) = none) (key : d.clientKey e = none) : d.after c (clientFrame e b bad) = d := by
  unfold Dev.clientStart at cut
  simp only [after_eq, clientFrame, at_get_bind, at_devNow_bind, List.isEmpty_iff, h, if_false, cut, key, at_pure]

/-- The checks of a client frame, in their order, and what each counts (R127). -/
theorem after_clientFrame_checked (h : ¬((d.rxTrib e).mode ≠ 2 ∨ (d.rxTrib e).slots = []))
    (cut : d.cutBySelector e (d.clientStart c e b) = none) {k : Nat} (key : d.clientKey e = some k) :
    d.after c (clientFrame e b bad) =
      if (d.rxTrib e).label.getD 0 ≠ 1 ∧ (d.rxTrib e).label.getD 0 ≠ 2 then (d.clientCounted c k b).addO 0x2832 7 k 1
      else if bad = true then (d.clientCounted c k b).addO 0x2832 4 k 1
      else if b.length < 64 ∨ d.o 0x2832 1 k < b.length then (d.clientCounted c k b).addO 0x2832 6 k 1
      else if b.drop (b.length - 4) = toBytes 4 (ofBytes (fcsBytes (b.take (b.length - 4))) ^^^ 0x5A5A5A5A) then
        (d.clientCounted c k b).addO 0x2832 5 k 1
      else if b.drop (b.length - 4) ≠ fcsBytes (b.take (b.length - 4)) then (d.clientCounted c k b).addO 0x2832 4 k 1
      else if d.bayStopped (k / 160 / 4) = true then ((d.clientCounted c k b).addO 0x2832 2 k 1).addO 0x2832 3 k b.length
      else (((d.clientCounted c k b).addO 0x2832 2 k 1).addO 0x2832 3 k b.length).after c (fifoArrive
        { bay := k / 160 / 4, port := k / 160, trib := k, origin := 1, data := b, whole := true }
        (d.preClass (d.bankOf (k / 160 / 4)) (k / 160) b % 8)) := by
  unfold Dev.clientStart at cut
  simp only [after_eq, clientFrame, at_get_bind, at_devNow_bind, List.isEmpty_iff, h, if_false, cut, key]
  rw [at_bind]
  simp only [at_ite, at_incO, at_incO_bind, at_addO_bind, at_pure, apply_ite Prod.snd]
  rfl

end

/-! ### Injected frames (R366) -/

theorem sendHeld_host (l : PMap (Option EvMsg)) (d : Dev) : (Dev.sendHeld l d).host = d.host := by
  induction l generalizing d with
  | nil => rfl
  | cons x r ih =>
    obtain ⟨k, _ | m⟩ := x
    · exact ih d
    · rw [Dev.sendHeld]
      split
      · have taken := congrArg Dev.host (eventsOnly_poolTake d 15 1).2
        exact (ih _).trans taken
      · rfl

theorem poolGive_host (i n : Nat) : (d.poolGive i n).host = d.host := sendHeld_host _ _

/-- The Tenon of an injected frame (R366). -/
def injTenon (desc : Bytes) : Nat :=
  if byteAt desc 11 = 1 then directTenon desc
  else putFld (putFld (putFld (putFld (putFld 0 504 8 (beAt desc 12 2)) 488 16 0xFFFF) 485 3 (byteAt desc 14)) 378 16 0xFF) 278 8
    (byteAt desc 19)

/-- An injected frame as it arrives at the FIFO. -/
def injFrame (r : Nat) (x : Inj) : Frame :=
  { bay := beAt x.desc 12 2 / 4, port := beAt x.desc 12 2, origin := if byteAt x.desc 11 = 1 then 3 else 2, ring := r,
    data := x.data ++ fcsBytes x.data, whole := true, tenon := injTenon x.desc }

theorem after_injectEnter_none {r : Nat} (h : mget (dK []) d.host.inj r = []) : d.after c (injectEnter r) = d := by
  simp only [after_eq, injectEnter, at_get_bind, h, at_pure]

theorem after_injectEnter_some {r : Nat} {x : Inj} {rest : List Inj} (h : mget (dK []) d.host.inj r = x :: rest) :
    d.after c (injectEnter r) =
      let b := beAt x.desc 12 2 / 4
      if (d.fifo b).length < d.ob (d.bankOf b) 0x3023 (byteAt x.desc 14 + 1) ∧ d.bayStopped b = false then
        ({ d.poolGive 1 x.units with host := { d.host with inj := mset (dK []) d.host.inj r rest } } : Dev).after c
          (fifoArrive (injFrame r x) (byteAt x.desc 14))
      else d := by
  simp only [after_eq, injectEnter, at_get_bind, h, at_ite, at_set_bind, at_pure, apply_ite Prod.snd, Bool.not_eq_true', poolGive_host]
  refine ite_congr rfl (fun _ => ?_) fun _ => rfl
  simp only [injFrame, injTenon, beq_iff_eq]

/-! ### MAC control frames (R336) -/

theorem bwAdd_limits (p dir n q : Nat) : (d.after c (bwAdd p dir n)).limits q = d.limits q := rfl

/-- A MAC control frame is checked as any frame, and obeyed where it is good (R85, R336). -/
def pauseReceive (p : Nat) (b : Bytes) (idle : Bool) : M Unit := do
  if (← get).receives p then
    if ← rxStart p idle then
      bwAdd p 0 b.length
      let lim := (← get).limits p
      if (← macCheck p b false lim) = none ∧ beAt b 12 2 = 0x8808 then controlFrame p b

theorem after_pauseReceive_deaf (p : Nat) (b : Bytes) (idle : Bool)
    (h : d.receives p = false ∨ (M.at (rxStart p idle) c d).1 = false) : d.after c (pauseReceive p b idle) = d := by
  rw [after_eq, pauseReceive, at_get_bind, at_ite]
  cases hr : d.receives p with
  | false => rfl
  | true =>
    have unbegun : (M.at (rxStart p idle) c d).1 = false := h.resolve_left (by rw [hr]; decide)
    rw [if_pos rfl, at_bind, at_ite, unbegun]
    exact rxStart_false c d p idle unbegun

theorem after_pauseReceive_begun (p : Nat) (b : Bytes) (idle : Bool) (hr : d.receives p = true)
    (hs : (M.at (rxStart p idle) c d).1 = true) : d.after c (pauseReceive p b idle) =
      let start := (M.at (rxStart p idle) c d).2
      let q := M.at (macCheck p b false (start.limits p)) c (start.after c (bwAdd p 0 b.length))
      if q.1 = none ∧ beAt b 12 2 = 0x8808 then q.2.after c (controlFrame p b) else q.2 := by
  rw [after_eq, pauseReceive, at_get_bind, hr, if_pos rfl, at_bind, hs, if_pos rfl, at_bind, at_get_bind]
  simp only [← after_eq, bwAdd_limits]
  rw [after_bind]
  split <;> rfl

end

/-! ### The commands -/

section
variable (s : State) {p e r : Nat}

theorem exec_fifoEntry_on (b : Bytes) (idle : Bool) (hp : p < 256) :
    exec (.fifoEntry p b idle) s = .next (s.on (s.dev.after s.clk (fifoEntry p b idle))) := exec_on (decide_eq_true hp) rfl

theorem exec_pcFrameRx_on (b : Bytes) (bad : Bool) (he : e < 40960) :
    exec (.pcFrameRx e b bad) s = .next (s.on (s.dev.after s.clk (clientFrame e b bad))) := exec_on (decide_eq_true he) rfl

theorem exec_injectFifoEnter_on (hr : r < 16) :
    exec (.injectFifoEnter r) s = .next (s.on (s.dev.after s.clk (injectEnter r))) := exec_on (decide_eq_true hr) rfl

theorem exec_pauseRx_on (b : Bytes) (idle : Bool) (hp : p < 256) :
    exec (.pauseRx p b idle) s = .next (s.on (s.dev.after s.clk (pauseReceive p b idle))) := exec_on (decide_eq_true hp) rfl

end

/-- Settles O34: each arrival by the branch that its rule names; then what the FIFO does with a frame that arrives. -/
theorem framesEnterTheFifo : Obligations.FramesEnterTheFifo := by
  refine ⟨fun s p b hp idle => ?entry, fun c d f pre hpre hport untraced => ⟨fun room => ?enters, fun line full plain => ?shed⟩,
    fun s e b bad he => ?client, fun s r hr => ⟨fun none_ => ?empty, fun x rest next_ => ⟨fun noRoom => ?waits, fun room => ?injected⟩⟩,
    fun s p b hp idle => ⟨fun deaf => ?deaf, fun hr hs => ?control⟩⟩
  case entry =>
    rw [exec_fifoEntry_on s b idle hp, after_fifoEntry]
    simp only [apply_ite s.on, on_dev]
    rfl
  case enters =>
    obtain ⟨hfifo, hnext, hpeak, hframe⟩ := entered_fifoArrive c d f pre untraced
      (fun ⟨line, full⟩ => room.elim (Nat.not_le.mpr line) fun ⟨h1, h2⟩ => full.elim (Nat.not_le.mpr h1) (Nat.not_le.mpr h2))
    exact ⟨hfifo, hnext, hpeak, _, hframe, rfl, rfl, rfl, rfl, rfl, rfl⟩
  case shed => exact shed_fifoArrive c d f pre untraced ⟨line, full⟩ plain
  case client =>
    intro d r n body fcs ans count cut
    have run : ans = .next (s.on (d.after s.clk (clientFrame e b bad))) := exec_pcFrameRx_on s b bad he
    have client (mode : r.mode = 2) (slots : r.slots ≠ []) : ¬(r.mode ≠ 2 ∨ r.slots = []) := not_or.mpr ⟨not_not_intro mode, slots⟩
    refine ⟨fun off => ?_, fun mode slots hcut => ?_, fun k mode slots hcut => ?_, fun hcut key => ?_,
      fun k mode slots hcut key => ?checked⟩
    · rw [run, after_clientFrame_off s.clk d b bad off, on_dev]
    · rw [run, after_clientFrame_cut s.clk d b bad (client mode slots) hcut, on_dev]
    · rw [run, after_clientFrame_cut s.clk d b bad (client mode slots) hcut]
    · by_cases off : r.mode ≠ 2 ∨ r.slots = []
      · rw [run, after_clientFrame_off s.clk d b bad off, on_dev]
      · rw [run, after_clientFrame_unread s.clk d b bad off hcut key, on_dev]
    case checked =>
      intro sl ok stomped
      have labelled (h : ok) : ¬(sl ≠ 1 ∧ sl ≠ 2) := fun ⟨h1, h2⟩ => h.elim h1 h2
      have fits (h64 : 64 ≤ n) (hmax : n ≤ d.o 0x2832 1 k) : ¬(n < 64 ∨ d.o 0x2832 1 k < n) :=
        not_or.mpr ⟨Nat.not_lt.mpr h64, Nat.not_lt.mpr hmax⟩
      have good (h : bad = false) : ¬bad = true := Bool.eq_false_iff.mp h
      rw [run, after_clientFrame_checked s.clk d b bad (client mode slots) hcut key]
      refine ⟨fun h => ?_, fun h hbad => ?_, fun h hbad hlen => ?_, fun h hbad h64 hmax hst => ?_,
        fun h hbad h64 hmax hst hfcs => ?_, fun h hbad h64 hmax hst hfcs => ?_⟩
      · rw [if_pos (not_or.mp h)]; rfl
      all_goals rw [if_neg (labelled h)]
      · rw [if_pos hbad]; rfl
      all_goals rw [if_neg (good hbad)]
      · rw [if_pos hlen]; rfl
      all_goals rw [if_neg (fits h64 hmax)]
      · rw [if_pos hst]; rfl
      all_goals rw [if_neg hst]
      · rw [if_pos hfcs]; rfl
      · rw [if_neg (not_not_intro hfcs)]; rfl
  case empty => rw [exec_injectFifoEnter_on s hr, after_injectEnter_none s.clk s.dev none_, on_dev]
  case waits => 
    rw [exec_injectFifoEnter_on s hr, after_injectEnter_some s.clk s.dev next_, if_neg noRoom, on_dev]
  case injected =>
    refine ⟨injFrame r x, rfl, rfl, rfl, rfl, rfl, rfl, ?_⟩
    rw [exec_injectFifoEnter_on s hr, after_injectEnter_some s.clk s.dev next_, if_pos room]
  case deaf => rw [exec_pauseRx_on s b idle hp, after_pauseReceive_deaf s.clk s.dev p b idle deaf, on_dev]
  case control => rw [exec_pauseRx_on s b idle hp, after_pauseReceive_begun s.clk s.dev p b idle hr hs]; rfl

end Sys2Proof.Machine
end

section
/-! Protection groups (R150 to R156): what a command, the end of a timer and a held mismatch do to a group. -/

namespace Sys2Proof.Machine

section
variable (c : Clock) (d : Dev) (g : Nat)

/-! ### Commands (R156) -/

/-- The device on which command request `n` stands on group `g`. -/
def Dev.pgPlaced (d : Dev) (g n : Nat) : Dev :=
  d.setPg g { d.pg g with cmd := if (d.pg g).cmd.contains n then (d.pg g).cmd else n :: (d.pg g).cmd }

/-- A manual switch gives way: a local or far request above it stands, or protect has SD (R150). -/
def Dev.pgAbove (d : Dev) (g : Nat) : Prop :=
  7 < (d.pgTop g (d.pgConditions g) (d.pgFar g)).2 ∨ 7 < d.pgFar g ∨ d.pgDefect g (d.o 0x28C0 3 g) 9 = true

/-- A non-revertive group stays on protect without a request above "do not revert" (R156). -/
def Dev.pgStays (d : Dev) (g : Nat) : Prop := d.oB 0x28C0 5 g = false ∧ d.o 0x28C1 5 g = 1 ∧ (d.pg g).dec ≤ 2

theorem at_pgCommand_invalid (cmd : Nat) (h : d.pgValid g = false) : M.at (pgCommand g cmd) c d = (0x302, d) := by
  simp only [pgCommand, at_get_bind, h, Bool.not_false, if_true, at_pure]

/-- A request changes the group, which is evaluated, and ends with status `st`. -/
theorem at_set_eval (e : Dev) (st : Nat) :
    M.at (do set e; pgEval g; return st) c d = (st, e.after c (pgEval g)) := rfl

section
variable (h : d.pgValid g = true)
include h

theorem at_pgCommand_clear :
    M.at (pgCommand g 0) c d = (0, (d.setPg g { d.pg g with cmd := [] }).after c (pgEval g)) := by
  simp only [pgCommand, at_get_bind, h, Bool.not_true, Bool.false_eq_true, if_false, at_set_eval]

theorem at_pgCommand_lockout : M.at (pgCommand g 1) c d = (0, (d.pgPlaced g 15).after c (pgEval g)) := by
  simp only [pgCommand, at_get_bind, h, Bool.not_true, Bool.false_eq_true, if_false, at_set_eval, Dev.pgPlaced]

theorem at_pgCommand_forced : M.at (pgCommand g 2) c d = (0, (d.pgPlaced g 13).after c (pgEval g)) := by
  simp only [pgCommand, at_get_bind, h, Bool.not_true, Bool.false_eq_true, if_false, at_set_eval, Dev.pgPlaced]

theorem at_pgCommand_protect_refused (ha : d.pgAbove g) : M.at (pgCommand g 3) c d = (0x302, d) := by
  unfold Dev.pgAbove at ha
  simp only [pgCommand, at_get_bind, h, Bool.not_true, Bool.false_eq_true, if_false, ha, if_true, at_pure]

theorem at_pgCommand_protect (ha : ¬d.pgAbove g) : M.at (pgCommand g 3) c d = (0, (d.pgPlaced g 7).after c (pgEval g)) := by
  unfold Dev.pgAbove at ha
  simp only [pgCommand, at_get_bind, h, Bool.not_true, Bool.false_eq_true, if_false, ha, at_set_eval, Dev.pgPlaced]

theorem at_pgCommand_working_refused (hs : ¬d.pgStays g) : M.at (pgCommand g 4) c d = (0x302, d) := by
  unfold Dev.pgStays at hs
  simp only [pgCommand, at_get_bind, h, Bool.true_eq_false, if_false, Bool.not_eq_true', hs, at_pure]

theorem at_pgCommand_working (hs : d.pgStays g) : M.at (pgCommand g 4) c d =
    (0, ((d.setPg g { d.pg g with dnr := false, farDone := true }).setO 0x28C1 3 g 0).after c (pgEval g)) := by
  unfold Dev.pgStays at hs
  simp only [pgCommand, at_get_bind, h, Bool.true_eq_false, if_false, Bool.not_eq_true', hs, and_self, if_true, at_set_eval]

end

/-! ### Timers (R151, R152, R154) -/

theorem after_pgHoldoff : d.after c (pgHoldoff g) =
    (d.setPg g { d.pg g with
      sf := (d.pg g).sf || (d.pg g).hoSf, sd := (d.pg g).sd || (d.pg g).hoSd, hoSf := false, hoSd := false }).after c (pgEval g) := by
  simp only [after_eq, pgHoldoff, at_get_bind, at_set_bind]

theorem after_pgWtrEnd : d.after c (pgWtrEnd g) =
    if (d.pg g).wtr.isSome = true then ((d.setPg g { d.pg g with wtr := none }).setO 0x28C1 3 g 0).after c (pgEval g) else d := by
  simp only [after_eq, pgWtrEnd, at_get_bind, at_ite, at_set_bind, at_pure, apply_ite Prod.snd]

/-- A cause that has been held is noted and reported; the absence of the noted one clears it (R154). -/
theorem after_pgFop : d.after c (pgFop g) =
    if d.pgValid g = false then d
    else if d.o 0x28C1 8 g = 0 ∧ d.pgMismatch g ≠ 0 then
      ((d.setO 0x28C1 8 g (d.pgMismatch g)).after c (pgEval g)).after c
        (raiseEv 474 0x2816 2 g (d.pgMismatch g) (((d.pg g).far.getD 0) >>> 8))
    else if d.o 0x28C1 8 g ≠ 0 ∧ d.pgCause g (d.o 0x28C1 8 g) = false then (d.setO 0x28C1 8 g 0).after c (pgEval g)
    else d := by
  cases valid : d.pgValid g with
  | false => simp only [after_eq, pgFop, at_get_bind, valid, Bool.false_eq_true, if_false, if_true, at_pure]
  | true =>
    simp only [after_eq, pgFop, at_get_bind, valid, if_true, at_ite, at_setO_bind, at_pure, apply_ite Prod.snd, Bool.not_eq_true',
      Bool.true_eq_false, if_false]
    rfl

end

/-! ### The commands -/

theorem row_pgCommand : ∃ r, rowOf 0x28C1 (1 % 256) = some r ∧ r.staged = false ∧ r.pegged = false ∧ r.acc = .wo := by decide +kernel

section
variable (s : State) {w g cmd : Nat}

/-- A write of 28C1h.01 that passes every check does what the command does, and ends with the command's status. -/
theorem after_winPut_pgCommand {st : Nat} {f : Dev → Dev} (hg : g < 1024) (hcmd : cmd < 256)
    (h : s.writable w (okey 0x28C1 1 g) (toBytes 1 cmd))
    (hf : M.at (pgCommand g cmd) s.clk (s.dev.winBegin w (toBytes 1 cmd)) = (st, f (s.dev.winBegin w (toBytes 1 cmd)))) :
    s.on (s.dev.after s.clk (winPut w 0x28C1 1 g 1 cmd)) = s.wrote w (okey 0x28C1 1 g) (toBytes 1 cmd) st f := by
  have command (pl : Nat) : plainWrite pl none (okey 0x28C1 1 g) cmd [] = pgCommand g cmd := by
    simp only [plainWrite, keyIndex_okey, keySub_okey, keyInst_okey, Nat.mod_eq_of_lt (show g < 16777216 by omega), Nat.reduceMod]
  obtain ⟨r, hr, staged, pegged, acc⟩ := row_pgCommand
  rw [winPut_ok s w 0x28C1 1 g 1 cmd r h hr rfl (by decide), ofBytes_toBytes, Nat.mod_eq_of_lt (show cmd < 256 ^ 1 by omega)]
  simp only [staged, pegged, acc, Bool.false_eq_true, if_false, reduceCtorEq, command, hf]
  rfl

/-- The command of a group by the value that it writes (R156). -/
theorem exec_pgCommand_on (hw : w < 8) (hg : g < 1024) (hcmd : cmd ≤ 4) :
    exec (if cmd = 0 then .pgClear w g else if cmd = 1 then .pgLockout w g else if cmd = 2 then .pgForcedSwitch w g
      else if cmd = 3 then .pgManualProtect w g else .pgManualWorking w g) s =
      .next (s.on (s.dev.after s.clk (winPut w 0x28C1 1 g 1 cmd))) := by
  have named : w < 8 ∧ g < 2 ^ 24 := ⟨hw, by omega⟩
  obtain rfl | rfl | rfl | rfl | rfl : cmd = 0 ∨ cmd = 1 ∨ cmd = 2 ∨ cmd = 3 ∨ cmd = 4 := by omega
  all_goals exact exec_on (decide_eq_true named) rfl

theorem exec_pgHoldoffExpiry_on (prot : Bool) (hg : g < 1024) : exec (.pgHoldoffExpiry g prot) s =
    .next (s.on (if prot = true then s.dev else s.dev.after s.clk (pgHoldoff g))) := by
  refine (exec_on (c := .pgHoldoffExpiry g prot) (decide_eq_true hg) rfl).trans ?_
  cases prot <;> rfl

theorem exec_pgWtrExpiry_on (hg : g < 1024) : exec (.pgWtrExpiry g) s = .next (s.on (s.dev.after s.clk (pgWtrEnd g))) :=
  exec_on (decide_eq_true hg) rfl

theorem exec_apsFopTimer_on (hg : g < 1024) : exec (.apsFopTimer g) s = .next (s.on (s.dev.after s.clk (pgFop g))) :=
  exec_on (decide_eq_true hg) rfl

end

end Sys2Proof.Machine
end

section
/-! Filtered inputs (R157 to R160): the raw level, its dwell, the chatter limit and the stuck watchdog. -/

namespace Sys2Proof.Machine

section
variable (c : Clock) (d : Dev) (i : Nat)

/-- The raw changes of an input within the last second, this one with them (R158). -/
def Dev.inputChanges (d : Dev) (c : Clock) (i : Nat) : List Nat := (d.input i).changes.filter (fun t => c.run < t + uS) ++ [c.run]

/-- The device on which a raw change of input `i` to `level` is dated (R157). -/
def Dev.inputDated (d : Dev) (c : Clock) (i : Nat) (level : Bool) : Dev :=
  d.setInput i { d.input i with raw := level, edge := c.net, edgeRun := c.run, changes := d.inputChanges c i }

theorem after_inputRaw (level : Bool) : d.after c (inputRaw i level) =
    if (d.input i).raw = level then d
    else if d.o 0x28E0 5 i < 2 ∧ d.o 0x28E0 2 i < (d.inputChanges c i).length then
      (((d.inputDated c i level).setO 0x28E0 5 i 2).addO 0x28E0 7 i 1).after c
        (raiseEv (618 + i) 0x2817 1 i (d.inputChanges c i).length 0)
    else d.inputDated c i level := by
  simp only [after_eq, inputRaw, at_get_bind, at_read_bind, at_ite, at_set_bind, at_setO_bind, at_incO_bind, at_pure,
    apply_ite Prod.snd, ne_eq, ite_not]
  rfl

/-- The device on which the raw level of input `i` is its confirmed level (R157). -/
def Dev.inputConfirmed (d : Dev) (i : Nat) : Dev :=
  let x := d.input i
  d.setInput i { x with
    filt := x.raw, since := if x.raw = true ∧ d.o 0x28E0 5 i ≠ 3 then x.edgeRun else x.since, fired := x.fired && x.raw }

theorem after_inputDwell : d.after c (inputDwell i) =
    if (d.input i).raw = (d.input i).filt then d
    else if d.o 0x28E0 5 i < 2 then
      let e := ((d.inputConfirmed i).setO 0x28E0 5 i (ofBool (d.input i).raw)).after c (inputLevel i (d.input i).raw)
      if i = 8 ∧ (d.input i).raw = true then e.after c (ppsConfirmed (d.input i).edge) else e
    else d.inputConfirmed i := by
  simp only [after_eq, inputDwell, at_get_bind, at_ite, at_set_bind, at_setO_bind, at_pure, apply_ite Prod.snd, ne_eq, ite_not]
  simp only [at_bind, at_ite, at_pure, apply_ite Prod.snd]
  rfl

theorem after_inputRelease : d.after c (inputRelease i) =
    let x := d.input i
    if d.o 0x28E0 5 i = 2 ∧ (x.changes.filter (fun t => c.run < t + uS)).length ≤ d.o 0x28E0 2 i then
      (d.setO 0x28E0 5 i (ofBool x.filt)).after c (inputLevel i x.filt)
    else d := by
  simp only [after_eq, inputRelease, at_get_bind, at_runNow_bind, at_ite, at_setO_bind, at_pure, apply_ite Prod.snd]

theorem after_inputStuck : d.after c (inputStuck i) =
    let x := d.input i
    if d.o 0x28E0 5 i = 1 ∧ d.o 0x28E0 3 i ≠ 0 then
      ((((d.setInput i { x with since := c.run }).setO 0x28E0 5 i 3).addO 0x28E0 8 i 1).after c
        (raiseEv (618 + i) 0x2818 2 i ((c.run - x.since) / uMs) 0)).after c (inputLevel i false)
    else d := by
  simp only [after_eq, inputStuck, at_get_bind, at_runNow_bind, at_ite, at_set_bind, at_setO_bind, at_incO_bind, at_pure,
    apply_ite Prod.snd]
  rfl

theorem after_inputUnstick : d.after c (inputUnstick i) =
    let x := d.input i
    if d.o 0x28E0 5 i = 3 ∧ x.filt = false then
      (d.setO 0x28E0 5 i 0).after c (raiseEv (618 + i) 0x2819 1 i ((c.run - x.since) / uMs) 0)
    else d := by
  simp only [after_eq, inputUnstick, at_get_bind, at_runNow_bind, at_ite, at_setO_bind, at_pure, apply_ite Prod.snd, Bool.not_eq_true']

end

/-! ### The commands -/

section
variable (s : State) {i : Nat}

theorem exec_inputRawChange_on (level : Bool) (h : i < 18) :
    exec (.inputRawChange i level) s = .next (s.on (s.dev.after s.clk (inputRaw i level))) := exec_on (decide_eq_true h) rfl

theorem exec_inputDwellExpiry_on (h : i < 18) :
    exec (.inputDwellExpiry i) s = .next (s.on (s.dev.after s.clk (inputDwell i))) := exec_on (decide_eq_true h) rfl

theorem exec_inputChatterRelease_on (h : i < 18) :
    exec (.inputChatterRelease i) s = .next (s.on (s.dev.after s.clk (inputRelease i))) := exec_on (decide_eq_true h) rfl

theorem exec_inputStuck_on (h : i < 18) :
    exec (.inputStuck i) s = .next (s.on (s.dev.after s.clk (inputStuck i))) := exec_on (decide_eq_true h) rfl

theorem exec_inputStuckRelease_on (h : i < 18) :
    exec (.inputStuckRelease i) s = .next (s.on (s.dev.after s.clk (inputUnstick i))) := exec_on (decide_eq_true h) rfl

end

/-- Settles O32: a command of a group by its value and the group's state, as a write through a window; each timer and each event of an
input by the condition that its rule names. -/
theorem protectionAndInputsAct : Obligations.ProtectionAndInputsAct := by
  refine ⟨⟨fun s w g cmd hw hg hcmd => ?commands, fun s g hg => ⟨?protect, ?holdoff, ?restore, fun h => ?same,
    fun valid none_ some_ => ?fails, fun valid noted gone => ?ends⟩⟩, fun s i level hi => ?inputs⟩
  case commands =>
    intro c key data d x add above holds ans h
    have answer {st : Nat} {f : Dev → Dev} (hf : M.at (pgCommand g cmd) s.clk (s.dev.winBegin w data) = (st, f (s.dev.winBegin w data))) :
        ans st f := by
      simp only [ans]
      rw [← after_winPut_pgCommand s hg (by omega) h hf]
      exact exec_pgCommand_on s hw hg hcmd
    refine ⟨fun out => ?_, fun valid h0 => ?_, fun valid h1 => ?_, fun valid h2 => ?_, fun valid h3 => ⟨fun ha => ?_, fun ha => ?_⟩,
      fun valid h4 => ⟨fun hs => ?_, fun hs => ?_⟩⟩
    · exact answer (at_pgCommand_invalid _ _ _ _ out)
    all_goals subst cmd
    · exact answer (at_pgCommand_clear _ _ _ valid)
    · exact answer (at_pgCommand_lockout _ _ _ valid)
    · exact answer (at_pgCommand_forced _ _ _ valid)
    · exact answer (at_pgCommand_protect_refused _ _ _ valid ha)
    · exact answer (at_pgCommand_protect _ _ _ valid ha)
    · exact answer (at_pgCommand_working_refused _ _ _ valid hs)
    · exact answer (at_pgCommand_working _ _ _ valid hs)
  case protect => rw [exec_pgHoldoffExpiry_on s true hg, if_pos rfl, on_dev]
  case holdoff => rw [exec_pgHoldoffExpiry_on s false hg, if_neg Bool.false_ne_true, after_pgHoldoff]
  case restore =>
    rw [exec_pgWtrExpiry_on s hg, after_pgWtrEnd]
    simp only [apply_ite s.on, on_dev]
  case same =>
    rw [exec_apsFopTimer_on s hg, after_pgFop]
    obtain out | ⟨h0, hm⟩ | ⟨h0, hc⟩ := h
    · rw [if_pos out, on_dev]
    · rw [if_neg (not_and.mpr fun _ => not_not_intro hm), if_neg (not_and.mpr fun h => absurd h0 h), ite_self, on_dev]
    · rw [if_neg (not_and.mpr fun h => absurd h h0), if_neg (not_and.mpr fun _ => by rw [hc]; decide), ite_self, on_dev]
  case fails => rw [exec_apsFopTimer_on s hg, after_pgFop, if_neg (by rw [valid]; decide), if_pos ⟨none_, some_⟩]
  case ends =>
    rw [exec_apsFopTimer_on s hg, after_pgFop, if_neg (by rw [valid]; decide), if_neg fun h => noted h.1, if_pos ⟨noted, gone⟩]
  case inputs =>
    intro d x st ch raw filt
    refine ⟨fun h => ?unchanged, fun h => ?changed, fun h => ?confirmed, fun h frozen => ?frozen, fun h live => ?acts, ?released, ?stuck,
      ?unstuck⟩
    case unchanged => rw [exec_inputRawChange_on s level hi, after_inputRaw, if_pos h, on_dev]
    case changed => rw [exec_inputRawChange_on s level hi, after_inputRaw, if_neg h]; rfl
    case confirmed => rw [exec_inputDwellExpiry_on s hi, after_inputDwell, if_pos h, on_dev]
    case frozen => rw [exec_inputDwellExpiry_on s hi, after_inputDwell, if_neg h, if_neg (Nat.not_lt.mpr frozen)]; rfl
    case acts => rw [exec_inputDwellExpiry_on s hi, after_inputDwell, if_neg h, if_pos live]; rfl
    case released => rw [exec_inputChatterRelease_on s hi, after_inputRelease]; simp only [apply_ite s.on, on_dev]; rfl
    case stuck => rw [exec_inputStuck_on s hi, after_inputStuck]; simp only [apply_ite s.on, on_dev]; rfl
    case unstuck => rw [exec_inputStuckRelease_on s hi, after_inputUnstick]; simp only [apply_ite s.on, on_dev]; rfl

end Sys2Proof.Machine
end

section
/-! Two writes of one key of a sparse map. -/

namespace Sys2Proof

variable {α : Type}

theorem mdrop_of_absent {k : Nat} {m : PMap α} (h : ∀ e ∈ m, e.1 ≠ k) : mdrop k m = m := by
  rw [mdrop_eq_filter, List.filter_eq_self]
  exact fun e he => decide_eq_true (h e he)

theorem mdrop_minsert (k : Nat) (v : α) {m : PMap α} (h : ∀ e ∈ m, e.1 ≠ k) : mdrop k (minsert k v m) = m := by
  induction m with
  | nil => simp only [minsert, mdrop, if_true]
  | cons e r ih =>
    obtain ⟨j, w⟩ := e
    obtain ⟨hj, hr⟩ := List.forall_mem_cons.mp h
    by_cases hlt : k < j
    · simp only [minsert, hlt, if_true, mdrop, if_neg hj, mdrop_of_absent hr]
    · simp only [minsert, hlt, if_false, mdrop, if_neg hj, ih hr]

/-- The second of two writes of one key decides. -/
theorem mset_mset [DecidableEq α] (d : Nat → α) (m : PMap α) (k : Nat) (v w : α) : mset d (mset d m k v) k w = mset d m k w := by
  have dropped : mdrop k (mset d m k v) = mdrop k m := by
    rw [mset]
    split
    · exact mdrop_of_absent (mem_mdrop_key k m)
    · exact mdrop_minsert k v (mem_mdrop_key k m)
  rw [mset, dropped]
  rfl

end Sys2Proof
end

section
/-! Degrade windows (R141, R142): the end of a window of a line or a tributary. -/

namespace Sys2Proof.Machine

/-! ### What a window leaves -/

section
variable (x : Parity) (b n : Nat) (exc : Bool)

theorem endWin_bad (h : x.winBad = true) : (x.endWin b n exc).2.1 = none := by
  simp only [Parity.endWin, h, true_or, if_true]

/-- A window in which no unit counted a violation estimates 0. -/
theorem endWin_clean (h : x.winBad = false) (hf : x.winFrames ≠ 0) (hw : x.win = []) : (x.endWin b n exc).2.1 = some 0 := by
  simp only [Parity.endWin, h, hf, hw, Bool.false_eq_true, or_self, if_false, List.map_nil, List.foldl_nil]

/-- The window that follows is empty and good; the multiframe goes on. -/
theorem endWin_emptied : (x.endWin b n exc).1.win = [] ∧ (x.endWin b n exc).1.winFrames = 0 ∧ (x.endWin b n exc).1.winBad = false ∧
    (x.endWin b n exc).1.mf = x.mf := by
  unfold Parity.endWin
  split <;> exact ⟨rfl, rfl, rfl, rfl⟩

end

/-! ### The end of a window -/

section
variable (c : Clock) (d : Dev) (trib : Bool) (id : Nat)

/-- The parity counts of a line or tributary. -/
def Dev.parity (d : Dev) (trib : Bool) (id : Nat) : Parity := if trib then (d.rxTrib id).parity else (d.rxLine id).parity

/-- Replace them. -/
def Dev.setParity (d : Dev) (trib : Bool) (id : Nat) (x : Parity) : Dev :=
  if trib then d.setRxTrib id { d.rxTrib id with parity := x } else d.setRxLine id { d.rxLine id with parity := x }

/-- LOF or PHY holds at a line of the resource (R141). -/
def Dev.windowGone (d : Dev) (trib : Bool) (id : Nat) : Bool :=
  (if trib then nub ((d.rxTrib id).slots.map (· / 160)) else [id]).any (fun p => d.o 0x2880 1 p &&& 3 != 0)

/-- A window that counts shows its estimate in sub-index 04h (R141). -/
def Dev.estimated (d : Dev) (ix id : Nat) : Option Nat → Dev
  | some v => d.setO ix 4 id v
  | none => d

/-- The defects of a line or tributary become `v`. -/
def setDefects (trib : Bool) (id v : Nat) : M Unit := if trib then setTribDef id v else setLineDef id v

theorem after_berWindowEnd : d.after c (berWindowEnd trib id) =
    let ix := if trib then 0x2881 else 0x2880
    let was := d.o ix 1 id
    let b := if trib then 1024 * (d.rxTrib id).slots.length - 1 else 20481
    let x := (d.parity trib id).endWin b (d.o ix 5 id) (bitOf was 7)
    let e := d.setParity trib id (if d.windowGone trib id then x.1.spoil else x.1)
    let g := (e.estimated ix id x.2.1).after c (setDefects trib id (setBit was 9 x.2.2))
    if x.2.2 = true ∧ bitOf was 9 = false then
      g.after c (raiseEv (if trib then 471 else id) 0x2812 1 id (x.2.1.getD 0) (d.o ix 5 id))
    else g := by
  simp only [after_eq, berWindowEnd, at_get_bind]
  rw [show (if trib = true then (d.rxTrib id).parity else (d.rxLine id).parity) = d.parity trib id from rfl]
  rcases (d.parity trib id).endWin _ _ _ with ⟨y, est, sd⟩
  simp only [at_set_bind]
  cases est <;> cases trib <;>
    simp only [at_bind, at_ite, at_pure, at_setO, apply_ite Prod.snd, Bool.not_eq_true', if_true, Bool.false_eq_true, if_false] <;> rfl

end

theorem exec_berWindowEnd_on (s : State) (trib : Bool) {id : Nat} (h : id < (if trib then 40960 else 256)) :
    exec (.berWindowEnd trib id) s = .next (s.on (s.dev.after s.clk (berWindowEnd trib id))) :=
  exec_on (decide_eq_true (by cases trib <;> exact h)) rfl

end Sys2Proof.Machine
end

section
/-! Performance bins (R146): the history of ended bins. -/

namespace Sys2Proof.Machine

/-- Entry `k` of a bin history moves to the place after it. -/
def Dev.moveBin (ix a : Nat) (d : Dev) (k : Nat) : Dev :=
  [1, 2, 3, 4, 5].foldl (fun d s => d.setO ix s (a + k + 1) (d.o ix s (a + k))) d

/-- The first `m` entries of a bin history move one place on, the last first. -/
def Dev.moveBins (d : Dev) (ix a m : Nat) : Dev := (List.range m).reverse.foldl (Dev.moveBin ix a) d

/-- Bin `b`, which ended at `t`, stands at place `a` of a history. -/
def Dev.putBin (d : Dev) (ix a : Nat) (b : PmBin) (t : Nat) : Dev :=
  ((((d.setO ix 1 a b.es).setO ix 2 a b.ses).setO ix 3 a b.uas).setO ix 4 a (ofBool b.suspect)).setO ix 5 a (toT80 t)

section
variable (d : Dev) (ix a : Nat)

theorem moveBins_succ (m : Nat) : d.moveBins ix a (m + 1) = (d.moveBin ix a m).moveBins ix a m := by
  simp only [Dev.moveBins, List.range_succ, List.reverse_append, List.reverse_singleton, List.singleton_append, List.foldl_cons]

theorem o_moveBin {k sub j : Nat} (h1 : 1 ≤ sub) (h5 : sub ≤ 5) (hk : a + k + 1 < 2 ^ 24) (hj : j < 2 ^ 24) :
    (d.moveBin ix a k).o ix sub j = if j = a + k + 1 then d.o ix sub (a + k) else d.o ix sub j := by
  have source : (a + k) % 16777216 ≠ (a + k + 1) % 16777216 := by omega
  have target : j % 16777216 = (a + k + 1) % 16777216 ↔ j = a + k + 1 := by omega
  obtain rfl | rfl | rfl | rfl | rfl : sub = 1 ∨ sub = 2 ∨ sub = 3 ∨ sub = 4 ∨ sub = 5 := by omega
  all_goals simp only [Dev.moveBin, List.foldl_cons, List.foldl_nil, o_setO, Nat.reduceMod, Nat.reduceEqDiff, target, source, false_and,
    and_false, true_and, if_false]

theorem o_moveBin_index {ix' : Nat} (k sub j : Nat) (h : ix' ≠ ix) : (d.moveBin ix a k).o ix' sub j = d.o ix' sub j := by
  simp only [Dev.moveBin, List.foldl_cons, List.foldl_nil, o_setO, h, false_and, if_false]

/-- Every entry of the history among the first `m` reads one place on; the others are kept. -/
theorem o_moveBins {m sub j : Nat} (h1 : 1 ≤ sub) (h5 : sub ≤ 5) (hm : a + m < 2 ^ 24) (hj : j < 2 ^ 24) :
    (d.moveBins ix a m).o ix sub j = if a < j ∧ j ≤ a + m then d.o ix sub (j - 1) else d.o ix sub j := by
  induction m generalizing d with
  | zero => rw [if_neg (by omega)]; rfl
  | succ m ih =>
    have kept {j' : Nat} (hj' : j' < 2 ^ 24) (h : j' ≠ a + m + 1) : (d.moveBin ix a m).o ix sub j' = d.o ix sub j' := by
      rw [o_moveBin d ix a h1 h5 (by omega) hj', if_neg h]
    rw [moveBins_succ, ih _ (by omega)]
    by_cases last : j = a + m + 1
    · rw [if_neg (by omega), if_pos (by omega), o_moveBin d ix a h1 h5 (by omega) hj, if_pos last, last]; rfl
    · split
      · rw [if_pos (by omega), kept (by omega) (by omega)]
      · rw [if_neg (by omega), kept hj last]

theorem o_moveBins_index {ix' : Nat} (m sub j : Nat) (h : ix' ≠ ix) : (d.moveBins ix a m).o ix' sub j = d.o ix' sub j := by
  induction m generalizing d with
  | zero => rfl
  | succ m ih => rw [moveBins_succ, ih, o_moveBin_index d ix a m sub j h]

theorem moveBins_plumb (m : Nat) : (d.moveBins ix a m).plumb = d.plumb := by
  induction m generalizing d with
  | zero => rfl
  | succ m ih => rw [moveBins_succ, ih]; rfl

section
variable (b : PmBin) (t : Nat)

theorem o_putBin : (d.putBin ix a b t).o ix 1 a = b.es ∧ (d.putBin ix a b t).o ix 2 a = b.ses ∧ (d.putBin ix a b t).o ix 3 a = b.uas ∧
    (d.putBin ix a b t).o ix 4 a = ofBool b.suspect ∧ (d.putBin ix a b t).o ix 5 a = toT80 t := by
  simp only [Dev.putBin, o_setO, Nat.reduceMod, Nat.reduceEqDiff, false_and, and_false, and_self, if_true, if_false]

/-- A bin put at a place keeps every other place and every other history. -/
theorem o_putBin_other {ix' sub j : Nat} (h : ix' ≠ ix ∨ j % 16777216 ≠ a % 16777216) :
    (d.putBin ix a b t).o ix' sub j = d.o ix' sub j := by
  have other (sub' : Nat) : ¬(ix' = ix ∧ sub % 256 = sub' % 256 ∧ j % 16777216 = a % 16777216) :=
    fun ⟨hix, _, hj⟩ => h.elim (· hix) (· hj)
  simp only [Dev.putBin, o_setO, other, if_false]

end

/-- The history after the end of a bin: the bin stands at its front, every older one has moved one place on, and nothing else changes. -/
theorem history_moved (b : PmBin) (t n : Nat) (hn : 0 < n) (ha : a + n < 2 ^ 24) :
    let e := (d.moveBins ix a (n - 1)).putBin ix a b t
    e.plumb = d.plumb ∧
      (e.o ix 1 a = b.es ∧ e.o ix 2 a = b.ses ∧ e.o ix 3 a = b.uas ∧ e.o ix 4 a = ofBool b.suspect ∧ e.o ix 5 a = toT80 t) ∧
      (∀ k sub, k + 1 < n → 1 ≤ sub → sub ≤ 5 → e.o ix sub (a + k + 1) = d.o ix sub (a + k)) ∧
      (∀ ix' sub j, ix' ≠ ix → e.o ix' sub j = d.o ix' sub j) := by
  refine ⟨moveBins_plumb d ix a (n - 1), o_putBin _ ix a b t, fun k sub hk h1 h5 => ?_, fun ix' sub j h => ?_⟩
  · rw [o_putBin_other _ ix a b t (.inr (by omega)), o_moveBins d ix a h1 h5 (by omega) (by omega), if_pos (by omega)]
    rfl
  · rw [o_putBin_other _ ix a b t (.inl h), o_moveBins_index d ix a (n - 1) sub j h]

theorem at_pmHistory (c : Clock) (id n : Nat) (b : PmBin) (t : Nat) :
    M.at (pmHistory ix id n b t) c d = ((), (d.moveBins ix (id * n) (n - 1)).putBin ix (id * n) b t) := by
  have moved := at_forIn_modify c (List.range (n - 1)).reverse (fun k d => d.moveBin ix (id * n) k) d
  rw [pmHistory, at_bind]
  exact congrArg (fun e => ((), Dev.putBin e ix (id * n) b t)) (congrArg Prod.snd moved)

end

/-- The object that holds the history of a line or of a tributary, by bin length (R147). -/
def historyIndex (trib day : Bool) : Nat := (if trib then 0x28A1 else 0x2891) + (if day then 1 else 0)

/-- The bin that has ended and not closed. -/
def PmSt.ended (x : PmSt) (day : Bool) : Option (PmBin × Nat) := if day then x.old24 else x.old15

/-- It has closed. -/
def PmSt.closed (x : PmSt) (day : Bool) : PmSt := if day then { x with old24 := none } else { x with old15 := none }

section
variable (c : Clock) (d : Dev) (trib day : Bool) (id : Nat)

theorem after_pmBinClose_none (h : (d.pm (if trib then 256 + id else id)).ended day = none) :
    d.after c (pmBinClose trib id day) = d := by
  unfold PmSt.ended at h
  simp only [after_eq, pmBinClose, at_get_bind, h, at_pure]

/-- The places of a history move on, and the bin that has ended stands at its front (R146). -/
theorem after_pmBinClose_some {b : PmBin} {t : Nat} (h : (d.pm (if trib then 256 + id else id)).ended day = some (b, t)) :
    d.after c (pmBinClose trib id day) =
      let i := if trib then 256 + id else id
      let n := if day then 7 else 96
      ((d.setPm i ((d.pm i).closed day)).moveBins (historyIndex trib day) (id * n) (n - 1)).putBin (historyIndex trib day) (id * n) b t := by
  unfold PmSt.ended at h
  simp only [after_eq, pmBinClose, at_get_bind, h, at_set_bind, at_pmHistory]
  rfl

end

theorem exec_pmBinClose_on (s : State) (trib day : Bool) {id : Nat} (h : id < (if trib then 40960 else 256)) :
    exec (.pmBinClose trib id day) s = .next (s.on (s.dev.after s.clk (pmBinClose trib id day))) :=
  exec_on (decide_eq_true (by cases trib <;> exact h)) rfl

end Sys2Proof.Machine
end

section
/-! Seconds (R144, R145, R147): how a second of a line is classed, counted and reported. -/

namespace Sys2Proof.Machine

/-! ### The bins of a second -/

theorem pm_of_plumb {d e : Dev} (h : e.plumb = d.plumb) (i : Nat) : e.pm i = d.pm i := by rw [Dev.pm, Dev.pm, h]

theorem setPm_setPm (d : Dev) (i : Nat) (x y : PmSt) : (d.setPm i x).setPm i y = d.setPm i y := by
  simp only [Dev.setPm, mset_mset]

/-- What a second leaves but for its bins: the counts of the next one, SF, and the last ten. -/
structure PmSt.SameSeconds (x y : PmSt) : Prop where
  frames : y.frames = x.frames
  errored : y.errored = x.errored
  sf : y.sf = x.sf
  stopped : y.stopped = x.stopped
  classes : y.secs.map PmSec.cls = x.secs.map PmSec.cls

theorem sameSeconds_refl (x : PmSt) : x.SameSeconds x := ⟨rfl, rfl, rfl, rfl, rfl⟩

theorem sameSeconds_trans {x y z : PmSt} (h : x.SameSeconds y) (g : y.SameSeconds z) : x.SameSeconds z :=
  ⟨g.frames.trans h.frames, g.errored.trans h.errored, g.sf.trans h.sf, g.stopped.trans h.stopped, g.classes.trans h.classes⟩

theorem sameSeconds_moveSec (x : PmSt) (s : PmSec) (m n : Nat) : x.SameSeconds (x.moveSec s m n) := by
  unfold PmSt.moveSec
  split <;> split <;> exact ⟨rfl, rfl, rfl, rfl, rfl⟩

theorem sameSeconds_foldl {f : PmSt → PmSec → PmSt} (h : ∀ (x : PmSt) s, x.SameSeconds (f x s)) (l : List PmSec) (x : PmSt) :
    x.SameSeconds (l.foldl f x) := by
  induction l generalizing x with
  | nil => exact sameSeconds_refl x
  | cons s r ih => exact sameSeconds_trans (h x s) (ih _)

theorem sameSeconds_binsEnd (x : PmSt) (sec : Nat) : x.SameSeconds (x.binsEnd sec) := by
  simp only [PmSt.binsEnd]
  split <;> split <;> refine ⟨rfl, rfl, rfl, rfl, ?_⟩ <;> simp only [List.map_map, Function.comp_def]

/-- The bin of 15 minutes goes on but at its end (R146). -/
theorem binsEnd_cur15 (x : PmSt) {sec : Nat} (h : sec % 900 ≠ 0) : (x.binsEnd sec).cur15 = x.cur15 := by
  unfold PmSt.binsEnd
  rw [if_neg h]
  split <;> rfl

/-! ### Counting a second (R144, R145) -/

/-- The class of a second: SES where SF held or 30% of the frames were errored, else ES where one was (R144). -/
def PmSt.secondClass (x : PmSt) (sf : Bool) : Nat :=
  if x.sf || sf || decide (0 < x.frames ∧ 3 * x.frames ≤ 10 * x.errored) then 2 else if 0 < x.errored then 1 else 0

theorem secondClass_eq (x : PmSt) (sf : Bool) : x.secondClass sf =
    if x.sf = true ∨ sf = true ∨ (0 < x.frames ∧ 3 * x.frames ≤ 10 * x.errored) then 2 else if 0 < x.errored then 1 else 0 := by
  simp only [PmSt.secondClass, Bool.or_eq_true, decide_eq_true_eq, or_assoc]

theorem secondClass_le (x : PmSt) (sf : Bool) : x.secondClass sf ≤ 2 := by
  unfold PmSt.secondClass
  split
  · exact Nat.le_refl 2
  · split <;> decide

/-- A second of class `cls` is the newest of the last ten, and its bins are in use. -/
def PmSt.noted (x : PmSt) (cls : Nat) (sf sus : Bool) : PmSt :=
  let mark := fun (b : PmBin) => { b with used := true, suspect := b.suspect || sus }
  { x with
    frames := 0, errored := 0, sf := sf, stopped := false, secs := ((⟨cls, true, true⟩ : PmSec) :: x.secs).take 10,
    cur15 := mark x.cur15, cur24 := mark x.cur24 }

/-- The newest of the last ten seconds, of class `cls`, is counted; unavailability (`un` is not 0) begins or ends where the ten say so, and
the earlier nine then move (R145). -/
def PmSt.counted (x : PmSt) (cls un : Nat) : PmSt × Option Nat :=
  let s : PmSec := ⟨cls, true, true⟩
  let full : Bool := decide (x.secs.length = 10)
  let earlier := x.secs.drop 1
  if un = 0 ∧ full ∧ x.secs.all (fun y => y.cls == 2) then
    ((earlier.foldl (fun (x : PmSt) y => x.moveSec y 2 3) x).moveSec s 0 3, some 1)
  else if !decide (un = 0) ∧ full ∧ x.secs.all (fun y => y.cls != 2) then
    ((earlier.foldl (fun (x : PmSt) y => x.moveSec y 3 y.cls) x).moveSec s 0 cls, some 0)
  else if !decide (un = 0) then (x.moveSec s 0 3, none)
  else (x.moveSec s 0 cls, none)

section
variable (x : PmSt) (cls un : Nat)

theorem sameSeconds_counted : x.SameSeconds (x.counted cls un).1 := by
  simp only [PmSt.counted, apply_ite Prod.fst]
  split
  · exact sameSeconds_trans (sameSeconds_foldl (fun x s => sameSeconds_moveSec x s 2 3) _ x) (sameSeconds_moveSec _ _ _ _)
  split
  · exact sameSeconds_trans (sameSeconds_foldl (fun x s => sameSeconds_moveSec x s 3 s.cls) _ x) (sameSeconds_moveSec _ _ _ _)
  split
  · exact sameSeconds_moveSec x _ 0 3
  · exact sameSeconds_moveSec x _ 0 cls

/-- The tenth SES in a row of an available line begins unavailability (R145). -/
theorem counted_begins (hun : un = 0) (hlen : x.secs.length = 10) (h : ∀ z ∈ x.secs, z.cls = 2) : (x.counted cls un).2 = some 1 := by
  have ses : x.secs.all (fun y => y.cls == 2) = true := List.all_eq_true.mpr fun z hz => beq_iff_eq.mpr (h z hz)
  simp only [PmSt.counted, hun, hlen, ses, decide_true, and_self, if_true]

/-- The tenth second without SES in a row ends it (R145). -/
theorem counted_ends (hun : un ≠ 0) (hlen : x.secs.length = 10) (h : ∀ z ∈ x.secs, z.cls ≠ 2) : (x.counted cls un).2 = some 0 := by
  have clean : x.secs.all (fun y => y.cls != 2) = true := List.all_eq_true.mpr fun z hz => bne_iff_ne.mpr (h z hz)
  simp only [PmSt.counted, hun, hlen, clean, decide_true, decide_false, Bool.not_false, and_self, false_and, if_true, if_false]

/-- Without a change of availability the second alone is counted, as unavailable while that lasts (R145). -/
theorem counted_goes_on
    (h : ¬(x.secs.length = 10 ∧ ((un = 0 ∧ ∀ z ∈ x.secs, z.cls = 2) ∨ (un ≠ 0 ∧ ∀ z ∈ x.secs, z.cls ≠ 2)))) :
    x.counted cls un = (x.moveSec ⟨cls, true, true⟩ 0 (if un = 0 then cls else 3), none) := by
  have begins : ¬(un = 0 ∧ decide (x.secs.length = 10) = true ∧ x.secs.all (fun y => y.cls == 2) = true) := by
    rintro ⟨hun, hlen, ses⟩
    exact h ⟨of_decide_eq_true hlen, .inl ⟨hun, fun z hz => beq_iff_eq.mp (List.all_eq_true.mp ses z hz)⟩⟩
  have ends : ¬((!decide (un = 0)) = true ∧ decide (x.secs.length = 10) = true ∧ x.secs.all (fun y => y.cls != 2) = true) := by
    rintro ⟨hun, hlen, clean⟩
    refine h ⟨of_decide_eq_true hlen, .inr ⟨?_, fun z hz => bne_iff_ne.mp (List.all_eq_true.mp clean z hz)⟩⟩
    simpa only [Bool.not_eq_true', decide_eq_false_iff_not] using hun
  simp only [PmSt.counted, begins, ends, if_false]
  by_cases hun : un = 0 <;> simp only [hun, decide_true, decide_false, Bool.not_true, Bool.not_false, Bool.false_eq_true, if_true, if_false]

end

/-- A second counts once in its bin: by its class, or as unavailable (R145). -/
theorem moveSec_cur15 (x : PmSt) {cls : Nat} (un : Nat) (h : cls ≤ 2) :
    let b := (x.moveSec ⟨cls, true, true⟩ 0 (if un = 0 then cls else 3)).cur15
    b.es = x.cur15.es + (if un = 0 ∧ cls = 1 then 1 else 0) ∧ b.ses = x.cur15.ses + (if un = 0 ∧ cls = 2 then 1 else 0) ∧
      b.uas = x.cur15.uas + (if un = 0 then 0 else 1) := by
  by_cases available : un = 0
  · simp only [available, if_true, true_and]
    obtain rfl | rfl | rfl : cls = 0 ∨ cls = 1 ∨ cls = 2 := by omega
    all_goals exact ⟨rfl, rfl, rfl⟩
  · simp only [available, if_false, false_and]
    exact ⟨rfl, rfl, rfl⟩

/-! ### Thresholds (R147) -/

section
variable (c : Clock) (d : Dev) (i base th : Nat)

/-- The thresholds that a bin reaches are reported and noted in it: its counts stay, and nothing but events changes. -/
theorem at_binTell (b : PmBin) : d.eventsOnly (M.at (binTell i base th b) c d).2 ∧
    ∃ told, (M.at (binTell i base th b) c d).1 = { b with told := told } := by
  unfold binTell
  rw [at_bind]
  refine forIn_inv c (fun _ (out : PmBin) e => d.eventsOnly e ∧ ∃ told, out = { b with told := told }) _ ?_ [1, 2, 3] [] b d
    ⟨eventsOnly_refl d, b.told, rfl⟩
  rintro done k out e ⟨he, told, rfl⟩
  simp only [at_getO_bind, at_ite]
  split
  · rw [at_bind]
    exact ⟨_, rfl, eventsOnly_trans he (raiseEv_eventsOnly c e _ _ _ _ _ _), _, rfl⟩
  · exact ⟨_, rfl, he, told, rfl⟩

/-- The same of a bin that has ended and not closed, where there is one. -/
def endedTell (i base th : Nat) : Option (PmBin × Nat) → M (Option (PmBin × Nat))
  | some (b, t) => do let y ← binTell i base th b; pure (some (y, t))
  | none => pure none

theorem at_endedTell (o : Option (PmBin × Nat)) : d.eventsOnly (M.at (endedTell i base th o) c d).2 := by
  cases o with
  | none => exact eventsOnly_refl d
  | some x => exact (at_binTell c d i base th x.1).1

/-- The bins of `x` are compared with their thresholds and kept (R147). -/
def binsTell (i th : Nat) (x : PmSt) : M Unit := do
  let b15 ← binTell i 0 th x.cur15
  let b24 ← binTell i 3 th x.cur24
  let o15 ← endedTell i 0 th x.old15
  let o24 ← endedTell i 3 th x.old24
  modify fun d => d.setPm i { x with cur15 := b15, cur24 := b24, old15 := o15, old24 := o24 }

theorem after_binsTell (x : PmSt) : ∃ e told b24 o15 o24, d.eventsOnly e ∧
    d.after c (binsTell i th x) = e.setPm i { x with cur15 := { x.cur15 with told := told }, cur24 := b24, old15 := o15, old24 := o24 } := by
  obtain ⟨h1, told, ht⟩ := at_binTell c d i 0 th x.cur15
  rw [after_eq, binsTell, at_bind, ht]
  generalize (M.at (binTell i 0 th x.cur15) c d).2 = d1 at h1 ⊢
  have h2 := (at_binTell c d1 i 3 th x.cur24).1
  rw [at_bind]
  generalize M.at (binTell i 3 th x.cur24) c d1 = r2 at h2 ⊢
  have h3 := at_endedTell c r2.2 i 0 th x.old15
  rw [at_bind]
  generalize M.at (endedTell i 0 th x.old15) c r2.2 = r3 at h3 ⊢
  have h4 := at_endedTell c r3.2 i 3 th x.old24
  rw [at_bind, at_modify]
  exact ⟨_, told, _, _, _, eventsOnly_trans (eventsOnly_trans (eventsOnly_trans h1 h2) h3) h4, rfl⟩

end

/-! ### The second of a line or a tributary -/

/-- The second of the day count nearest to now: of network time while it is valid (R146). -/
def Dev.pmClock (d : Dev) (c : Clock) : Nat := ((if d.oB 0x1800 3 then c.net else c.dev) + uS / 2) / uS

section
variable (c : Clock) (d : Dev) (trib : Bool) (id : Nat)

/-- A change of availability is noted and reported (R145). -/
def availChange (trib : Bool) (id : Nat) : Option Nat → M Unit
  | some v => do
    setO (if trib then 0x28A0 else 0x2890) 8 id v
    raiseEv 472 0x2814 2 id (ofBool trib) v
  | none => pure ()

/-- The second of a monitored line or tributary as it is counted. -/
def Dev.pmCounted (d : Dev) (trib : Bool) (id : Nat) : PmSt × Option Nat :=
  let x := d.pm (if trib then 256 + id else id)
  let sf := bitOf (d.o (if trib then 0x2881 else 0x2880) 1 id) 8
  (x.noted (x.secondClass sf) sf (x.stopped || !d.oB 0x1800 3)).counted (x.secondClass sf) (d.o (if trib then 0x28A0 else 0x2890) 8 id)

/-- The counts of a line or tributary that is not monitored stop (R146). -/
def PmSt.halted (x : PmSt) : PmSt := { x with stopped := true, frames := 0, errored := 0, sf := false, secs := [] }

/-- PM_SECOND with what it computes taken as given, so that a case split reaches its effects: the second is monitored (`on`), counted as `r`,
at day count `sec`. -/
def pmSecondAs (trib : Bool) (id : Nat) (on : Bool) (r : PmSt × Option Nat) (sec : Nat) : M Unit := do
  let d ← get
  let i := if trib then 256 + id else id
  if !on then set (d.setPm i (d.pm i).halted)
  else
    set (d.setPm i r.1)
    match r.2 with
    | some v =>
      setO (if trib then 0x28A0 else 0x2890) 8 id v
      raiseEv 472 0x2814 2 id (ofBool trib) v
    | none => pure ()
    let th := if trib then 6 else 0
    let b15 ← binTell i 0 th r.1.cur15
    let b24 ← binTell i 3 th r.1.cur24
    let o15 ← match r.1.old15 with | some (b, t) => do let y ← binTell i 0 th b; pure (some (y, t)) | none => pure none
    let o24 ← match r.1.old24 with | some (b, t) => do let y ← binTell i 3 th b; pure (some (y, t)) | none => pure none
    modify fun d => d.setPm i { r.1 with cur15 := b15, cur24 := b24, old15 := o15, old24 := o24 }
  modify fun d => d.setPm i ((d.pm i).binsEnd sec)

theorem after_pmSecond : d.after c (pmSecond trib id) =
    d.after c (pmSecondAs trib id (d.pmOn trib id) (d.pmCounted trib id) (d.pmClock c)) := rfl

theorem after_pmSecondAs_off (r : PmSt × Option Nat) (sec : Nat) : d.after c (pmSecondAs trib id false r sec) =
    let i := if trib then 256 + id else id
    d.setPm i ((d.pm i).halted.binsEnd sec) := by
  simp only [after_eq, pmSecondAs, at_get_bind, Bool.not_false, if_true, at_set_bind, at_modify, pm_setPm_same, setPm_setPm]

theorem after_pmSecondAs_on (r : PmSt × Option Nat) (sec : Nat) : d.after c (pmSecondAs trib id true r sec) =
    let i := if trib then 256 + id else id
    let e := ((d.setPm i r.1).after c (availChange trib id r.2)).after c (binsTell i (if trib then 6 else 0) r.1)
    e.setPm i ((e.pm i).binsEnd sec) := by
  obtain ⟨⟨frames, errored, sf, secs, cur15, cur24, old15, old24, stopped⟩, change⟩ := r
  simp only [after_eq, pmSecondAs, at_get_bind, Bool.not_true, Bool.false_eq_true, if_false, at_set_bind]
  cases change <;> cases old15 <;> cases old24 <;>
    simp only [availChange, binsTell, endedTell, at_bind, at_pure, at_modify, at_setO]

end

/-- What the second of a monitored line leaves: the seconds as counted, the thresholds told, the bins that end; and its availability. -/
theorem after_pmSecondAs_line (c : Clock) (d : Dev) (p : Nat) (r : PmSt × Option Nat) (sec : Nat) :
    let t := d.after c (pmSecondAs false p true r sec)
    r.1.SameSeconds (t.pm p) ∧ t.o 0x2890 8 p = r.2.getD (d.o 0x2890 8 p) ∧
      (sec % 900 ≠ 0 → ∃ told, (t.pm p).cur15 = { r.1.cur15 with told := told }) := by
  intro t
  obtain ⟨e, told, b24, o15, o24, kept, ht⟩ := after_binsTell c ((d.setPm p r.1).after c (availChange false p r.2)) p 0 r.1
  have run := after_pmSecondAs_on c d false p r sec
  rw [show d.after c (pmSecondAs false p true r sec) = t from rfl] at run
  have pm : t.pm p = ({ r.1 with cur15 := { r.1.cur15 with told := told }, cur24 := b24, old15 := o15, old24 := o24 } : PmSt).binsEnd sec := by
    simp only [run, Bool.false_eq_true, if_false, ht, pm_setPm_same]
  refine ⟨?seconds, ?avail, fun h => ⟨told, ?bin⟩⟩
  case seconds =>
    rw [pm]
    refine sameSeconds_trans ?_ (sameSeconds_binsEnd _ sec)
    exact ⟨rfl, rfl, rfl, rfl, rfl⟩
  case avail =>
    have told : t.o 0x2890 8 p = e.o 0x2890 8 p := by
      simp only [run, Bool.false_eq_true, if_false, ht]
      rfl
    rw [told, kept.1 _ _ _ (by decide) (by decide)]
    cases r.2 with
    | none => rfl
    | some v =>
      rw [availChange, after_seq, after_eq, raiseEv_o _ _ _ _ _ _ _ _ _ _ _ (by decide) (by decide)]
      exact o_setO_same _ _ _ _ _
  case bin => rw [pm, binsEnd_cur15 _ h]

theorem exec_pmSecond_on (s : State) {p : Nat} (hp : p < 256) :
    exec (.pmSecond false p) s = .next (s.on (s.dev.after s.clk (pmSecond false p))) :=
  exec_on (c := .pmSecond false p) (decide_eq_true hp) rfl

/-- Settles O31: a window by its parity counts, a closing bin by the history that moves on, and a second by its class and by what the last
ten say of availability. -/
theorem defectsCloseIntoBinsAndSeconds : Obligations.DefectsCloseIntoBinsAndSeconds := by
  refine ⟨fun s trib id hid => ⟨?window, ?clean, ?bad, ?emptied⟩, fun s trib id day hid => ⟨fun h => ?none_, fun b end_ h => ?closes⟩,
    fun s p hp off => ?off, fun s p hp on => ?on⟩
  case window =>
    rw [exec_berWindowEnd_on s trib hid, after_berWindowEnd]
    rfl
  case clean => exact endWin_clean _ _ _ _
  case bad => exact endWin_bad _ _ _ _
  case emptied => exact endWin_emptied _ _ _ _
  case none_ => rw [exec_pmBinClose_on s trib day hid, after_pmBinClose_none s.clk s.dev trib day id h, on_dev]
  case closes =>
    have places : 0 < (if day then 7 else 96) ∧ id * (if day then 7 else 96) + (if day then 7 else 96) < 2 ^ 24 := by
      have hid' : id < 40960 := by split at hid <;> omega
      cases day <;> exact ⟨by decide, by simp only [Bool.false_eq_true, if_true, if_false]; omega⟩
    obtain ⟨plumb, ⟨es, ses, uas, suspect, time⟩, moved, others⟩ := history_moved (s.dev.setPm (if trib then 256 + id else id)
      ((s.dev.pm (if trib then 256 + id else id)).closed day)) (historyIndex trib day) _ b end_ _ places.1 places.2
    refine ⟨_, exec_pmBinClose_on s trib day hid, ?_⟩
    rw [after_pmBinClose_some s.clk s.dev trib day id h]
    refine ⟨?_, es, ses, uas, suspect, time, moved, fun ix' sub j h _ => others ix' sub j h⟩
    exact (pm_of_plumb plumb _).trans (pm_setPm_same s.dev _ _)
  case off =>
    rw [exec_pmSecond_on s hp, after_pmSecond, show s.dev.pmOn false p = false from off, after_pmSecondAs_off]
    rfl
  case on =>
    intro x sf cls last time
    have class_eq : x.secondClass sf = cls := secondClass_eq x sf
    have class_le : cls ≤ 2 := class_eq ▸ secondClass_le x sf
    let un := s.dev.o 0x2890 8 p
    let z := x.noted cls sf (x.stopped || !s.dev.oB 0x1800 3)
    have counted : s.dev.pmCounted false p = z.counted cls un := by
      rw [show s.dev.pmCounted false p = (x.noted (x.secondClass sf) sf (x.stopped || !s.dev.oB 0x1800 3)).counted (x.secondClass sf) un
        from rfl, class_eq]
    obtain ⟨seconds, avail, bin⟩ := after_pmSecondAs_line s.clk s.dev p (z.counted cls un) (s.dev.pmClock s.clk)
    have same := sameSeconds_trans (sameSeconds_counted z cls un) seconds
    refine ⟨_, exec_pmSecond_on s hp, rfl, rfl, ?_⟩
    rw [after_pmSecond, show s.dev.pmOn false p = true from on, counted]
    refine ⟨same.frames, same.errored, same.stopped, same.sf, same.classes, fun hun hlen h => ?begins, fun hun hlen h => ?ends,
      fun h => ?goesOn⟩
    case begins => rw [dev_on, avail, counted_begins z cls un hun hlen h]; rfl
    case ends => rw [dev_on, avail, counted_ends z cls un hun hlen h]; rfl
    case goesOn =>
      rw [dev_on]
      rw [counted_goes_on z cls un h] at avail bin ⊢
      refine ⟨avail, fun hsec => ?_⟩
      obtain ⟨told, hbin⟩ := bin hsec
      rw [hbin]
      exact moveSec_cur15 z un class_le

end Sys2Proof.Machine
end

section
/-! Parsing and the way through the bay (R165 to R168, R170, R222): what a parse makes of a frame, and which frames run the stages. -/

namespace Sys2Proof.Machine

/-! ### What a parse makes of a frame (R165 to R168) -/

/-- The parse of a frame under the bank that its bay holds (R165). -/
def Dev.parseOf (d : Dev) (f : Frame) : Parsed := d.parse (d.bankOf f.bay) f.port f.data

/-- DEPTH_POLICY of its port there (R168). -/
def Dev.depthPolicy (d : Dev) (f : Frame) : Nat := d.ob (d.bankOf f.bay) 0x3010 2 f.port

/-- A frame with what its parse gives. -/
def Dev.parsedFrame (d : Dev) (c : Clock) (f : Frame) : Frame :=
  let bank := d.bankOf f.bay
  let x := d.parseOf f
  ({ f with
    bank := bank, phase := 1, fields := x.fields, wofs := x.wofs, presence := x.presence, hdrs := x.hdrs
    ip := d.ipHeader x.hdrs, claim := x.claim, tParsed := some c.dev } : Frame).setT 291 1 (d.ob bank 0x3010 4 f.port)

/-- A walk that reached a state without an entry is counted and told (R165). -/
def noteUnknown (f : Frame) : Option Nat → M Unit
  | some s => do
    incO 0x3020 4 f.port
    raiseLim (256 + f.bay) 0x3006 1 f.bay f.port s 0 3
  | none => pure ()

/-- What follows: the outcomes of R168, under the actions `onIncons` and `onTrunc` of the port. -/
def parseOutcome (onIncons onTrunc : Nat) (x : Parsed) (f : Frame) : M (Option Frame) := do
  if x.incons ≠ 0 then
    incO 0x3020 2 f.port
    raiseLim (256 + f.bay) 0x3003 1 f.bay f.port x.incons 0 3
    parseEnd (f.setT 292 1 1) (if onIncons = 1 then some 2 else none)
    return none
  else if x.trunc then
    incO 0x3020 1 f.port
    raiseLim (256 + f.bay) 0x3002 1 f.bay f.port x.hdrs.length 0 3
    match onTrunc with
    | 1 =>
      parseEnd (f.setT 293 1 1) none
      return none
    | 2 =>
      parseEnd (f.setT 293 1 1) (some 1)
      return none
    | _ => return some (f.setT 293 1 1)
  else return some f

section
variable (c : Clock) (d : Dev) (f : Frame)

theorem at_parseFrame : M.at (parseFrame f) c d =
    M.at (parseOutcome (d.ob (d.bankOf f.bay) 0x3010 3 f.port) (d.depthPolicy f) (d.parseOf f) (d.parsedFrame c f)) c
      (d.after c (noteUnknown f (d.parseOf f).unknown)) := by
  unfold Dev.parseOf
  cases h : (d.parse (d.bankOf f.bay) f.port f.data).unknown with
  | none => simp only [parseFrame, at_get_bind, at_devNow_bind, h, noteUnknown, after_pure]; rfl
  | some s => simp only [parseFrame, at_get_bind, at_devNow_bind, h]; rfl

section
variable {onIncons onTrunc : Nat} {x : Parsed}

theorem parseOutcome_inconsistent (h : x.incons ≠ 0) : (M.at (parseOutcome onIncons onTrunc x f) c d).1 = none := by
  unfold parseOutcome
  rw [if_pos h]
  rfl

theorem parseOutcome_cut (hi : x.incons = 0) (ht : x.trunc = true) (h : onTrunc = 1 ∨ onTrunc = 2) :
    (M.at (parseOutcome onIncons onTrunc x f) c d).1 = none := by
  unfold parseOutcome
  rw [if_neg (not_not_intro hi), if_pos ht]
  obtain rfl | rfl := h
  · rfl
  · rfl

theorem parseOutcome_marked (hi : x.incons = 0) (ht : x.trunc = true) (h1 : onTrunc ≠ 1) (h2 : onTrunc ≠ 2) :
    (M.at (parseOutcome onIncons onTrunc x f) c d).1 = some (f.setT 293 1 1) := by
  unfold parseOutcome
  rw [if_neg (not_not_intro hi), if_pos ht, at_bind, at_bind]
  split
  · exact absurd rfl h1
  · exact absurd rfl h2
  · rfl

theorem parseOutcome_whole (hi : x.incons = 0) (ht : x.trunc = false) :
    M.at (parseOutcome onIncons onTrunc x f) c d = (some f, d) := by
  unfold parseOutcome
  rw [if_neg (not_not_intro hi), if_neg (Bool.not_eq_true _ ▸ ht), at_pure]

end

/-- `g` is `f` with its headers and fields, and the time of its parse; its octets are those of `f`. -/
def Dev.ParsedAs (d : Dev) (c : Clock) (f g : Frame) : Prop :=
  let x := d.parseOf f
  g.phase = 1 ∧ g.fields = x.fields ∧ g.hdrs = x.hdrs ∧ g.presence = x.presence ∧ g.claim = x.claim ∧ g.bank = d.bankOf f.bay ∧
    g.ip = d.ipHeader x.hdrs ∧ g.tParsed = some c.dev ∧ g.data = f.data

variable {c d f} in
/-- A flag set in its Tenon changes none of that. -/
theorem Dev.ParsedAs.setT {g : Frame} (h : d.ParsedAs c f g) (o w v : Nat) : d.ParsedAs c f (g.setT o w v) := h

theorem parsedAs_parsedFrame : d.ParsedAs c f (d.parsedFrame c f) :=
  Dev.ParsedAs.setT ⟨rfl, rfl, rfl, rfl, rfl, rfl, rfl, rfl, rfl⟩ _ _ _

/-- A parse that nothing ends (R168): the frame goes on, and is marked where its header walk was cut short. -/
theorem parseFrame_passed (known : (d.parseOf f).unknown = none) (consistent : (d.parseOf f).incons = 0)
    (passed : (d.parseOf f).trunc = false ∨ d.depthPolicy f ≠ 1 ∧ d.depthPolicy f ≠ 2) :
    ∃ g, (M.at (parseFrame f) c d).1 = some g ∧ d.ParsedAs c f g ∧
      ((d.parseOf f).trunc = false → (M.at (parseFrame f) c d).2 = d) := by
  have parsed := parsedAs_parsedFrame c d f
  rw [at_parseFrame, known, noteUnknown, after_pure]
  cases cut : (d.parseOf f).trunc with
  | false =>
    rw [parseOutcome_whole _ _ _ consistent cut]
    exact ⟨_, rfl, parsed, fun _ => rfl⟩
  | true =>
    obtain ⟨not1, not2⟩ := passed.resolve_left (by rw [cut]; exact Bool.noConfusion)
    exact ⟨_, parseOutcome_marked _ _ _ consistent cut not1 not2, parsed.setT _ _ _, fun h => Bool.noConfusion h⟩

/-- A parse that ends the frame (R168). -/
theorem parseFrame_ended (h : (d.parseOf f).incons ≠ 0 ∨ (d.parseOf f).trunc = true ∧ (d.depthPolicy f = 1 ∨ d.depthPolicy f = 2)) :
    (M.at (parseFrame f) c d).1 = none := by
  rw [at_parseFrame]
  by_cases consistent : (d.parseOf f).incons = 0
  · obtain ⟨cut, action⟩ := h.resolve_left (not_not_intro consistent)
    exact parseOutcome_cut _ _ _ consistent cut action
  · exact parseOutcome_inconsistent _ _ _ consistent

end

/-! ### Which frames run the stages (R170, R11) -/

section
variable (c : Clock) (d : Dev) {id : Nat} (bad : List Nat)

/-- A frame is parsed, and runs the stages unless parsing ends it. -/
def parseAndRun (f : Frame) (bad : List Nat) : M Unit := do
  match ← parseFrame f with
  | none => return ()
  | some g => stagesFirst g bad

theorem after_parseAndRun_none {f : Frame} (h : (M.at (parseFrame f) c d).1 = none) :
    d.after c (parseAndRun f bad) = (M.at (parseFrame f) c d).2 := by
  rw [parseAndRun, after_bind, h, after_pure]

theorem after_parseAndRun_some {f g : Frame} (h : (M.at (parseFrame f) c d).1 = some g) :
    d.after c (parseAndRun f bad) = (M.at (parseFrame f) c d).2.after c (stagesFirst g bad) := by
  rw [parseAndRun, after_bind, h]

theorem after_framePipeline_gone (h : d.frame id = none) : d.after c (framePipeline id bad) = d := by
  simp only [framePipeline, after_eq, at_get_bind, h, at_pure]

section
variable {f : Frame} (hf : d.frame id = some f)
include hf

theorem after_framePipeline_stopped (h : d.bayStopped f.bay = true) : d.after c (framePipeline id bad) = d := by
  simp only [framePipeline, after_eq, at_get_bind, hf, h, if_true, at_pure]

/-- A frame whose flow request has been served waits for the older frames of its flow and port (R11). -/
theorem after_framePipeline_parsed (h : d.bayStopped f.bay = false) (hp : f.phase ≠ 0) : d.after c (framePipeline id bad) =
    if f.phase = 1 ∧ f.asked = true ∧ f.looked = true ∧ f.parkedAt = none ∧ f.tStage9 = none ∧ d.olderBefore9 f = false then
      d.after c (stagesRest f bad)
    else d := by
  simp only [framePipeline, after_eq, at_get_bind, hf, h, hp, Bool.false_eq_true, if_false, at_ite, at_pure, apply_ite Prod.snd,
    Bool.not_eq_true']

variable (h : d.bayStopped f.bay = false) (hp : f.phase = 0)
include h hp

/-- Only the head of a FIFO leaves it. -/
theorem after_framePipeline_behind (hq : (d.fifo f.bay).head? ≠ some id) : d.after c (framePipeline id bad) = d := by
  simp only [framePipeline, after_eq, at_get_bind, hf, h, hp, Bool.false_eq_true, if_false, if_true]
  cases hl : d.fifo f.bay with
  | nil => rfl
  | cons x rest =>
    have other : x ≠ id := fun e => hq (by rw [hl, e]; rfl)
    simp only [other, ne_eq, not_false_eq_true, if_true, at_pure]

variable {rest : List Nat} (hq : d.fifo f.bay = id :: rest)
include hq

theorem after_framePipeline_direct (ho : f.origin = 3) :
    d.after c (framePipeline id bad) = (d.setFifo f.bay rest).after c (setFrame { f with phase := 2 }) := by
  simp only [framePipeline, after_eq, at_get_bind, hf, h, hp, hq, Bool.false_eq_true, if_false, if_true, ne_eq, not_true_eq_false,
    at_set_bind, ho]

theorem after_framePipeline_head (ho : f.origin ≠ 3) :
    d.after c (framePipeline id bad) = (d.setFifo f.bay rest).after c (parseAndRun f bad) := by
  simp only [framePipeline, after_eq, at_get_bind, hf, h, hp, hq, Bool.false_eq_true, if_false, if_true, ne_eq, not_true_eq_false,
    at_set_bind, ho]
  rfl

end

/-! ### The park limit (R222) -/

theorem after_parkTimeout_gone (h : d.frame id = none) : d.after c (parkTimeout id) = d := by
  simp only [parkTimeout, after_eq, at_get_bind, h, at_pure]

theorem after_parkTimeout_running {f : Frame} (hf : d.frame id = some f) (h : f.parkedAt = none) : d.after c (parkTimeout id) = d := by
  simp only [parkTimeout, after_eq, at_get_bind, hf, h, Option.isSome_none, Bool.false_eq_true, if_false, at_pure]

theorem after_parkTimeout_waiting {f : Frame} (hf : d.frame id = some f) (h : f.parkedAt ≠ none) : d.after c (parkTimeout id) =
    let r := M.at (overflowReply f 0) c d
    (r.2.unpark f.sill id).after c (resumeFrame id r.1) := by
  simp only [parkTimeout, after_eq, at_get_bind, hf, Option.isSome_iff_ne_none.mpr h, if_true]
  rfl

end

/-! ### The commands -/

theorem exec_framePipeline_on (s : State) (id : Nat) (bad : List Nat) :
    exec (.framePipeline id bad) s = .next (s.on (s.dev.after s.clk (framePipeline id bad))) := exec_on rfl rfl

theorem exec_parkTimeout_on (s : State) (id : Nat) :
    exec (.parkTimeout id) s = .next (s.on (s.dev.after s.clk (parkTimeout id))) := exec_on rfl rfl

/-- Settles O35: the commands by what the device holds of the frame, and the parse by its outcome (R168). -/
theorem bayPipelineRuns : Obligations.BayPipelineRuns := by
  refine ⟨fun s id bad => ⟨fun h => ⟨?gone, ?timeoutGone⟩, fun f hf =>
    ⟨?stopped, ?behind, fun rest h hp hq => ⟨?direct, fun ho => ⟨?ended, ?stages⟩⟩, ?waits, ?running, ?parked⟩⟩,
    fun c d f => ⟨?passed, ?endedByParse⟩⟩
  case gone => rw [exec_framePipeline_on, after_framePipeline_gone _ _ _ h, on_dev]
  case timeoutGone => rw [exec_parkTimeout_on, after_parkTimeout_gone _ _ h, on_dev]
  case stopped => exact fun h => by rw [exec_framePipeline_on, after_framePipeline_stopped _ _ _ hf h, on_dev]
  case behind => exact fun h hp hq => by rw [exec_framePipeline_on, after_framePipeline_behind _ _ _ hf h hp hq, on_dev]
  case direct => exact fun ho => by rw [exec_framePipeline_on, after_framePipeline_direct _ _ _ hf h hp hq ho]; rfl
  case ended =>
    intro hr
    rw [exec_framePipeline_on, after_framePipeline_head _ _ _ hf h hp hq ho, after_parseAndRun_none _ _ _ hr]
    rfl
  case stages =>
    intro g hr
    rw [exec_framePipeline_on, after_framePipeline_head _ _ _ hf h hp hq ho, after_parseAndRun_some _ _ _ hr]
    rfl
  case waits =>
    exact fun h hp => by rw [exec_framePipeline_on, after_framePipeline_parsed _ _ _ hf h hp, apply_ite s.on, on_dev]
  case running => exact fun h => by rw [exec_parkTimeout_on, after_parkTimeout_running _ _ hf h, on_dev]
  case parked => exact fun h => by rw [exec_parkTimeout_on, after_parkTimeout_waiting _ _ hf h]; rfl
  case passed =>
    intro known consistent passed
    obtain ⟨g, goes, ⟨phase, fields, hdrs, presence, claim, bank, ip, time, data⟩, same⟩ :=
      parseFrame_passed c d f known consistent passed
    exact ⟨g, goes, phase, fields, hdrs, presence, claim, bank, ip, time, data, same⟩
  case endedByParse => exact parseFrame_ended c d f

end Sys2Proof.Machine
end

section
/-! Forwarding tables (R181, R182, R184, R185, R190, R191): the bays follow the master copies. -/

namespace Sys2Proof.Machine

/-! ### The next write of the manager (R184) -/

/-- What lies below the least of some numbers. -/
theorem le_foldl_min (f : Nat → Nat) (l : List Nat) (a n : Nat) :
    n ≤ l.foldl (fun a x => min a (f x)) a ↔ n ≤ a ∧ ∀ x ∈ l, n ≤ f x := by
  induction l generalizing a with
  | nil => simp only [List.foldl_nil, List.not_mem_nil, false_implies, implies_true, and_true]
  | cons x r ih => simp only [List.foldl_cons, ih, Nat.le_min, List.forall_mem_cons, and_assoc]

/-- A list of which the first elements are forgotten, read from a place counted from its old start. -/
theorem drop_forgotten {α : Type} (l : List α) {base low place : Nat} (h : base ≤ low) (h' : low ≤ max base place) :
    (l.drop (low - base)).drop (place - low) = l.drop (place - base) := by
  rw [List.drop_drop]
  congr 1
  omega

/-- How many writes each bay has applied, once bay `b` has applied one more. -/
def Dev.bayPos (d : Dev) (b : Nat) : PMap Nat := nset d.bays.pos b (max d.bays.base (nget d.bays.pos b) + 1)

/-- How many of them every bay has applied then. -/
def Dev.bayBase (d : Dev) (b : Nat) : Nat :=
  (List.range 64).foldl (fun a x => min a (max d.bays.base (nget (d.bayPos b) x))) (max d.bays.base (nget d.bays.pos b) + 1)

/-- The Prism entries that are disabled in the bays once bay `b` has applied a write (R181). -/
def Dev.prismKept (d : Dev) (b : Nat) (w : BayWrite) : List Nat :=
  if w.tbl = true ∧ tkeyTable w.key = 0x320001 then d.bays.prismOff.filter (· ≠ b * 16384 + w.key % 2 ^ 32) else d.bays.prismOff

section
variable (c : Clock) (d : Dev) {b : Nat}

theorem after_bayApply_done (h : d.unapplied b = []) : d.after c (bayApply b) = d := by
  have done : ¬max d.bays.base (nget d.bays.pos b) < d.bays.base + d.bays.log.length := by
    have := List.drop_eq_nil_iff.mp h
    omega
  simp only [bayApply, after_eq, at_get_bind, done, if_false, at_pure]

theorem after_bayApply_next {w : BayWrite} {rest : List BayWrite} (h : d.unapplied b = w :: rest) : d.after c (bayApply b) =
    { d with bays := { d.bays with
      pos := d.bayPos b, base := d.bayBase b, log := d.bays.log.drop (d.bayBase b - d.bays.base), prismOff := d.prismKept b w } } := by
  have place : max d.bays.base (nget d.bays.pos b) - d.bays.base = nget d.bays.pos b - d.bays.base := by omega
  have next : d.bays.log[nget d.bays.pos b - d.bays.base]? = some w := by
    rw [← List.head?_drop, show d.bays.log.drop _ = _ from h]; rfl
  have waits : max d.bays.base (nget d.bays.pos b) < d.bays.base + d.bays.log.length := by
    have := (List.getElem?_eq_some_iff.mp next).1
    omega
  simp only [bayApply, after_eq, at_get_bind, waits, if_true, at_set, place, next]
  rfl

variable (b) in
theorem le_bayBase : d.bays.base ≤ d.bayBase b := by
  refine (le_foldl_min _ _ _ _).mpr ⟨?_, fun x _ => Nat.le_max_left _ _⟩
  exact Nat.le_succ_of_le (Nat.le_max_left _ _)

variable (b) in
theorem bayBase_le : d.bayBase b ≤ max d.bays.base (nget d.bays.pos b) + 1 := ((le_foldl_min _ _ _ _).mp (Nat.le_refl (d.bayBase b))).1

theorem bayBase_le_other {x : Nat} (h : x < 64) (hx : x ≠ b) : d.bayBase b ≤ max d.bays.base (nget d.bays.pos x) := by
  have low := ((le_foldl_min _ _ _ _).mp (Nat.le_refl (d.bayBase b))).2 x (List.mem_range.mpr h)
  rwa [Dev.bayPos, nget_nset, if_neg hx] at low

/-- The bay has one write less to apply. -/
theorem unapplied_bayApply : (d.after c (bayApply b)).unapplied b = (d.unapplied b).tail := by
  cases h : d.unapplied b with
  | nil => rw [after_bayApply_done c d h, h]; rfl
  | cons w rest =>
    have low := bayBase_le d b
    rw [after_bayApply_next c d h]
    calc (d.bays.log.drop (d.bayBase b - d.bays.base)).drop (nget (d.bayPos b) b - d.bayBase b)
        = d.bays.log.drop (nget (d.bayPos b) b - d.bays.base) := by
          refine drop_forgotten _ (le_bayBase d b) ?_
          rw [Dev.bayPos, nget_nset_same]
          omega
      _ = d.bays.log.drop (nget d.bays.pos b - d.bays.base + 1) := by
          rw [Dev.bayPos, nget_nset_same]
          congr 1
          omega
      _ = (d.unapplied b).tail := List.tail_drop.symm
      _ = rest := by rw [h]; rfl

/-- Every other bay has the same writes to apply. -/
theorem unapplied_bayApply_other {x : Nat} (hx : x < 64) (hb : x ≠ b) :
    (d.after c (bayApply b)).unapplied x = d.unapplied x := by
  cases h : d.unapplied b with
  | nil => rw [after_bayApply_done c d h]
  | cons w rest =>
    rw [after_bayApply_next c d h]
    have same : nget (d.bayPos b) x = nget d.bays.pos x := by rw [Dev.bayPos, nget_nset, if_neg hb]
    simp only [Dev.unapplied, same]
    exact drop_forgotten _ (le_bayBase d b) (bayBase_le_other d hx hb)

theorem bayApply_master : (d.after c (bayApply b)).tbls = d.tbls ∧ (d.after c (bayApply b)).objs = d.objs := by
  cases h : d.unapplied b with
  | nil => rw [after_bayApply_done c d h]; exact ⟨rfl, rfl⟩
  | cons w rest => rw [after_bayApply_next c d h]; exact ⟨rfl, rfl⟩

/-- A Prism entry that the bay writes is enabled there (R181). -/
theorem bayApply_enables {w : BayWrite} (h : (d.unapplied b).head? = some w) (ht : w.tbl = true) (hk : tkeyTable w.key = 0x320001) :
    b * 16384 + w.key % 2 ^ 32 ∉ (d.after c (bayApply b)).bays.prismOff := by
  obtain ⟨rest, h⟩ := List.head?_eq_some_iff.mp h
  rw [after_bayApply_next c d h]
  simp only [Dev.prismKept, ht, hk, and_self, if_true, List.mem_filter, decide_not, decide_true, Bool.not_true, Bool.false_eq_true,
    and_false, not_false_eq_true]

end

/-! ### Repairs and rebuilds (R185, R191) -/

section
variable (c : Clock) (d : Dev) {b : Nat}

theorem after_trieRebuilt_none (h : oget d.bays.rebuild b = none) : d.after c (trieRebuilt b) = d := by
  simp only [trieRebuilt, after_eq, at_get_bind, h, at_pure]

theorem after_trieRebuilt_some {t : Nat} (h : oget d.bays.rebuild b = some t) : d.after c (trieRebuilt b) =
    ({ d with bays := { d.bays with rebuild := oset d.bays.rebuild b none } } : Dev).after c
      (raiseEv (256 + b) 0x3406 1 b ((c.run - t) / uMs) 0) := by
  simp only [trieRebuilt, after_eq, at_get_bind, h, at_runNow_bind, at_set_bind]

end

/-! ### A scrub pass of the Prism (R182) -/

/-- The entries disabled in the bays, with `x` among them. -/
def Dev.prismOffWith (d : Dev) (x : Nat) : List Nat := if d.bays.prismOff.contains x then d.bays.prismOff else d.bays.prismOff ++ [x]

theorem mem_prismOffWith (d : Dev) (x y : Nat) : y ∈ d.prismOffWith x ↔ y ∈ d.bays.prismOff ∨ y = x := by
  unfold Dev.prismOffWith
  split
  next h =>
    refine ⟨.inl, fun hy => hy.elim id ?_⟩
    rintro rfl
    exact List.contains_iff_mem.mp h
  next => rw [List.mem_append, List.mem_singleton]

/-- The rows of a pass that differ, in turn: each takes its entry out of service, unless it is out already. -/
def scrubRows (b : Nat) (bad : List Nat) : M Unit := do
  for a in bad do
    let d ← get
    match d.prismAt b a with
    | some (e, v) => if !d.bays.prismOff.contains (b * 16384 + e) then prismDisable b e 1 (byteAt (toBytes 180 v) 0 % 4)
    | none => pure ()

/-- `x` is an entry of bay `b` to which one of the rows belongs. -/
def Dev.EntryOfRows (d : Dev) (b : Nat) (rows : List Nat) (x : Nat) : Prop :=
  ∃ a ∈ rows, ∃ k v, d.prismAt b a = some (k, v) ∧ x = b * 16384 + k

/-- `e` differs from `d` by what a scrub of bay `b` does that found the rows `done` to differ: their entries are disabled, and neither the
tables nor the count of passes have changed. -/
structure Dev.ScrubbedTo (d : Dev) (b : Nat) (done : List Nat) (e : Dev) : Prop where
  passes : e.o 0x3210 4 b = d.o 0x3210 4 b
  tbls : e.tbls = d.tbls
  bays : e.bays = { d.bays with prismOff := e.bays.prismOff }
  off : ∀ x, x ∈ e.bays.prismOff ↔ x ∈ d.bays.prismOff ∨ d.EntryOfRows b done x

section
variable (c : Clock) (d : Dev) (b : Nat)

theorem at_prismOut (a : Nat) : M.at (prismOut b a) c d =
    ((), (({ d with bays := { d.bays with prismOff := d.prismOffWith (b * 16384 + a) } } : Dev).addO 0x3210 1 b 1).setO 0x3210 3 b a) := by
  rw [prismOut, at_modify_bind, at_incO_bind, at_setO]
  rfl

/-- An entry that is disabled is counted and told; no table changes (R181, R182). -/
theorem after_prismDisable (a cause part : Nat) :
    (d.after c (prismDisable b a cause part)).o 0x3210 4 b = d.o 0x3210 4 b ∧
    (d.after c (prismDisable b a cause part)).tbls = d.tbls ∧
    (d.after c (prismDisable b a cause part)).bays = { d.bays with prismOff := d.prismOffWith (b * 16384 + a) } := by
  simp only [prismDisable, after_eq, at_bind, at_prismOut]
  refine ⟨?_, ?_, ?_⟩
  · rw [raiseEv_o _ _ _ _ _ _ _ _ _ _ _ (by decide) (by decide), o_setO_other _ _ _ (by decide), o_addO,
      if_neg fun ⟨_, h, _⟩ => absurd h (by decide)]
    rfl
  · rw [raiseEv_tbls]; rfl
  · rw [raiseEv_bays]; rfl

variable {d b}

theorem entryOfRows_append {rows : List Nat} {a x : Nat} : d.EntryOfRows b (rows ++ [a]) x ↔
    d.EntryOfRows b rows x ∨ ∃ k v, d.prismAt b a = some (k, v) ∧ x = b * 16384 + k := by
  simp only [Dev.EntryOfRows, List.mem_append, List.mem_singleton, or_and_right, exists_or, exists_eq_left]

/-- A row that belongs to no entry adds none. -/
theorem entryOfRows_append_none {rows : List Nat} {a x : Nat} (h : d.prismAt b a = none) :
    d.EntryOfRows b (rows ++ [a]) x ↔ d.EntryOfRows b rows x := by
  rw [entryOfRows_append, h]
  refine or_iff_left ?_
  rintro ⟨k, v, hkv, -⟩
  cases hkv

theorem entryOfRows_append_some {rows : List Nat} {a x k v : Nat} (h : d.prismAt b a = some (k, v)) :
    d.EntryOfRows b (rows ++ [a]) x ↔ d.EntryOfRows b rows x ∨ x = b * 16384 + k := by
  rw [entryOfRows_append, h]
  refine or_congr_right ⟨?_, fun hx => ⟨k, v, rfl, hx⟩⟩
  rintro ⟨_, _, ⟨⟩, hx⟩
  exact hx

theorem scrubbedTo_start : d.ScrubbedTo b [] d := by
  refine ⟨rfl, rfl, rfl, fun x => (or_iff_left ?_).symm⟩
  rintro ⟨a, ha, -⟩
  cases ha

section
variable {done : List Nat} {e : Dev} (h : d.ScrubbedTo b done e)
include h

/-- A row belongs to the same entry throughout the pass: the tables as the bay holds them do not change. -/
theorem Dev.ScrubbedTo.prismAt (a : Nat) : e.prismAt b a = d.prismAt b a := by
  have bayTbl (key : Nat) : e.bayTbl b key = d.bayTbl b key := by
    rw [Dev.bayTbl, Dev.bayTbl, Dev.unapplied, Dev.unapplied, h.bays, h.tbls]
  simp only [Dev.prismAt, bayTbl]

variable {a k v : Nat}

/-- A row of no entry. -/
theorem Dev.ScrubbedTo.of_none (ha : d.prismAt b a = none) : d.ScrubbedTo b (done ++ [a]) e :=
  ⟨h.passes, h.tbls, h.bays, fun x => by rw [entryOfRows_append_none ha]; exact h.off x⟩

/-- A row of an entry that is disabled already. -/
theorem Dev.ScrubbedTo.of_disabled (ha : d.prismAt b a = some (k, v)) (out : b * 16384 + k ∈ e.bays.prismOff) :
    d.ScrubbedTo b (done ++ [a]) e := by
  refine ⟨h.passes, h.tbls, h.bays, fun x => ?_⟩
  rw [entryOfRows_append_some ha, ← or_assoc, ← h.off]
  refine ⟨.inl, fun hx => hx.elim id ?_⟩
  rintro rfl
  exact out

/-- A row of an entry that it takes out of service. -/
theorem Dev.ScrubbedTo.disables (cause part : Nat) (ha : d.prismAt b a = some (k, v)) :
    d.ScrubbedTo b (done ++ [a]) (e.after c (prismDisable b k cause part)) := by
  obtain ⟨passes, tbls, bays⟩ := after_prismDisable c e b k cause part
  refine ⟨passes.trans h.passes, tbls.trans h.tbls, ?_, fun x => ?_⟩
  · rw [bays, h.bays]
  · rw [entryOfRows_append_some ha, ← or_assoc, ← h.off, bays]
    exact mem_prismOffWith e _ x

end

theorem after_scrubRows (bad : List Nat) : d.ScrubbedTo b bad (d.after c (scrubRows b bad)) := by
  refine forIn_inv c (fun done _ e => d.ScrubbedTo b done e) _ ?row bad [] PUnit.unit d scrubbedTo_start
  intro done a _ e h
  refine ⟨PUnit.unit, ?_⟩
  rw [at_get_bind, h.prismAt a]
  cases ha : d.prismAt b a with
  | none => exact ⟨rfl, h.of_none ha⟩
  | some r =>
    obtain ⟨k, v⟩ := r
    dsimp only
    cases out : e.bays.prismOff.contains (b * 16384 + k) with
    | true => exact ⟨rfl, h.of_disabled ha (List.contains_iff_mem.mp out)⟩
    | false => exact ⟨rfl, h.disables c 1 _ ha⟩

end

/-! ### What serves stage 5 (R190) -/

/-- With LPM_MODE 2 the trie of a bay that is not rebuilding serves stage 5 from LPM_READY on, and the Prism until then. -/
theorem lpmState_ready (d : Dev) (b : Nat) (on : Bool) (h : d.o 0x3441 1 = 2) (hr : oget d.bays.rebuild b = none) :
    (d.setO 0x3441 2 0 on.toNat).lpmState b = if on then 0 else 1 := by
  have mode : (d.setO 0x3441 2 0 on.toNat).o 0x3441 1 = 2 := by rw [o_setO_other _ _ _ (by decide), h]
  have ready : (d.setO 0x3441 2 0 on.toNat).oB 0x3441 2 = on := by rw [Dev.oB, o_setO_same]; cases on <;> rfl
  have built : oget (d.setO 0x3441 2 0 on.toNat).bays.rebuild b = none := hr
  rw [Dev.lpmState, mode, ready, built]
  cases on
  · rfl
  · rfl

theorem plainWrite_lpmReady (pl : Nat) (core : Option Nat) (v : Nat) (fail : List Nat) :
    plainWrite pl core (okey 0x3441 2 0) v fail = putThen (okey 0x3441 2 0) v (pure ()) := by
  simp only [plainWrite, keyIndex_okey, keySub_okey]
  rfl

theorem row_lpmReady : rowOf 0x3441 (2 % 256) = some ⟨0x3441, 2, 1, .bool, .rw, .hm, .n, 0, .any⟩ := by decide +kernel

/-! ### The commands -/

section
variable (s : State) {b : Nat} (hb : b < 64)
include hb

theorem exec_bayTableApply_on : exec (.bayTableApply b) s = .next (s.on (s.dev.after s.clk (bayApply b))) :=
  exec_on (decide_eq_true hb) rfl

theorem exec_bayCopyRepair_on {kind : Nat} (addr : Nat) (hk : kind < 11) : exec (.bayCopyRepair b kind addr) s =
    .next (s.on ((if kind < 8 then s.dev.addO 0x3401 9 kind 1 else s.dev).after s.clk (raiseEv (256 + b) 0x3408 2 kind addr 0))) := by
  refine (exec_on (c := .bayCopyRepair b kind addr) (decide_eq_true ⟨hb, hk⟩) rfl).trans ?_
  split
  · rfl
  · rfl

theorem exec_trieRebuildDone_on : exec (.trieRebuildDone b) s = .next (s.on (s.dev.after s.clk (trieRebuilt b))) :=
  exec_on (decide_eq_true hb) rfl

/-- A pass takes up the rows in turn, and is counted (R182). -/
theorem exec_prismScrubPass_on {bad : List Nat} (h : bad.all (· < 16384) = true) : exec (.prismScrubPass b bad) s =
    .next (s.on ((s.dev.after s.clk (scrubRows b bad)).addO 0x3210 4 b 1)) :=
  exec_on (c := .prismScrubPass b bad) (decide_eq_true ⟨hb, h⟩) rfl

end

/-- LPM_READY is a write of 3441h.02 (R190). -/
theorem exec_lpmReadyWrite_on (s : State) {w : Nat} (on : Bool) (hw : w < 8) :
    exec (.lpmReadyWrite w on) s = .next (s.on (s.dev.after s.clk (winPut w 0x3441 2 0 1 on.toNat))) :=
  exec_on (decide_eq_true hw) rfl

/-- Settles O36: each command by the effect it has on the bay; the scrub pass by what it keeps from row to row. -/
theorem forwardingCopiesFollow : Obligations.ForwardingCopiesFollow := by
  refine ⟨?apply, fun s b kind addr hb hk => exec_bayCopyRepair_on s hb addr hk, ?rebuilt, ?scrub, ?ready, lpmState_ready⟩
  case apply =>
    intro s b hb
    obtain ⟨tbls, objs⟩ := bayApply_master s.clk s.dev (b := b)
    exact ⟨_, exec_bayTableApply_on s hb, unapplied_bayApply _ _, fun x hx hxb => unapplied_bayApply_other _ _ hx hxb, tbls, objs,
      fun w h ht hk => bayApply_enables _ _ h ht hk⟩
  case rebuilt =>
    refine fun s b hb => ⟨fun h => ?_, fun t0 h => ?_⟩
    · rw [exec_trieRebuildDone_on s hb, after_trieRebuilt_none _ _ h, on_dev]
    · rw [exec_trieRebuildDone_on s hb, after_trieRebuilt_some _ _ h]
  case scrub =>
    intro s b bad hb hbad
    obtain ⟨passes, tbls, -, off⟩ := after_scrubRows s.clk (d := s.dev) (b := b) bad
    refine ⟨_, exec_prismScrubPass_on s hb hbad, ?_, tbls, fun a ha e v h => (off _).mpr (.inr ⟨a, ha, e, v, h, rfl⟩),
      fun x hx => (off x).mp hx⟩
    rw [← passes]
    exact o_setO_same _ _ _ _ _
  case ready =>
    intro s w on hw h
    rw [exec_lpmReadyWrite_on s on hw, after_winPut_plain _ h row_lpmReady rfl rfl (by decide) rfl (by decide)
      (Nat.lt_of_lt_of_le (Bool.toNat_lt on) (by decide)) ((plainWrite_lpmReady (w / 4) none on.toNat []).trans (putThen_eq_doing _ _ _))]
    rfl

end Sys2Proof.Machine
end

section
/-! Maps in canonical form: what stands under a key, and entries that are rewritten one after another. -/

namespace Sys2Proof

variable {α : Type}

/-- The keys of a map in canonical form rise. -/
theorem mwfFrom_rises [DecidableEq α] (d : Nat → α) (m : PMap α) (lo : Option Nat) (h : mwfFrom d lo m = true) :
    (∀ l, lo = some l → ∀ k ∈ m.map Prod.fst, l < k) ∧ (m.map Prod.fst).Pairwise (· < ·) := by
  induction m generalizing lo with
  | nil => exact ⟨fun _ _ _ hk => absurd hk List.not_mem_nil, .nil⟩
  | cons e r ih =>
    simp only [mwfFrom, Bool.and_eq_true] at h
    obtain ⟨⟨hlo, -⟩, hr⟩ := h
    obtain ⟨above, rises⟩ := ih _ hr
    refine ⟨?_, .cons (above _ rfl) rises⟩
    rintro l rfl k hk
    have first : l < e.1 := of_decide_eq_true hlo
    rcases List.mem_cons.mp hk with rfl | hk
    · exact first
    · exact Nat.lt_trans first (above _ rfl k hk)

theorem nodup_keys_of_mwf [DecidableEq α] {d : Nat → α} {m : PMap α} (h : mwf d m = true) : (m.map Prod.fst).Nodup :=
  (mwfFrom_rises d m none h).2.imp Nat.ne_of_lt

/-- A key that stands once in a map reads the value that stands with it. -/
theorem mget_of_mem (d : Nat → α) {m : PMap α} (h : (m.map Prod.fst).Nodup) {k : Nat} {v : α} (hm : (k, v) ∈ m) :
    mget d m k = v := by
  induction m with
  | nil => cases hm
  | cons e r ih =>
    obtain ⟨hk, hr⟩ := List.nodup_cons.mp h
    rw [mget]
    rcases List.mem_cons.mp hm with rfl | hm
    · exact if_pos rfl
    · rw [if_neg, ih hr hm]
      rintro rfl
      exact hk (List.mem_map.mpr ⟨_, hm, rfl⟩)

section
variable [DecidableEq α] {β : Type} (key : β → Nat) (new : β → Option (Option α))

/-- A map in which the entry of a key is rewritten, removed, or (`none`) left as it is. -/
def rewriteOne (m : PMap (Option α)) (k : Nat) : Option (Option α) → PMap (Option α)
  | none => m
  | some w => oset m k w

theorem oget_rewriteOne (m : PMap (Option α)) (k : Nat) (w : Option (Option α)) (j : Nat) :
    oget (rewriteOne m k w) j = if j = k then w.getD (oget m j) else oget m j := by
  cases w with
  | none => exact (ite_self _).symm
  | some w => exact oget_oset m k w j

/-- A map in which this is done for each element of a list, in turn. -/
def rewriteAll (l : List β) (m : PMap (Option α)) : PMap (Option α) := l.foldl (fun m x => rewriteOne m (key x) (new x)) m

theorem rewriteAll_concat (l : List β) (x : β) (m : PMap (Option α)) :
    rewriteAll key new (l ++ [x]) m = rewriteOne (rewriteAll key new l m) (key x) (new x) := by
  rw [rewriteAll, List.foldl_append]
  rfl

theorem oget_rewriteAll_absent (l : List β) (m : PMap (Option α)) {k : Nat} (h : k ∉ l.map key) :
    oget (rewriteAll key new l m) k = oget m k := by
  induction l generalizing m with
  | nil => rfl
  | cons y r ih =>
    obtain ⟨hy, hr⟩ := not_or.mp (mt List.mem_cons.mpr h)
    exact (ih _ hr).trans ((oget_rewriteOne _ _ _ _).trans (if_neg hy))

/-- Where no two of the elements share a key, each key reads what it was rewritten to. -/
theorem oget_rewriteAll_mem (l : List β) (m : PMap (Option α)) (h : (l.map key).Nodup) {x : β} (hx : x ∈ l) :
    oget (rewriteAll key new l m) (key x) = (new x).getD (oget m (key x)) := by
  induction l generalizing m with
  | nil => cases hx
  | cons y r ih =>
    obtain ⟨hy, hr⟩ := List.nodup_cons.mp h
    rcases List.mem_cons.mp hx with rfl | hx
    · exact (oget_rewriteAll_absent key new r _ hy).trans ((oget_rewriteOne _ _ _ _).trans (if_pos rfl))
    · have other : key x ≠ key y := fun e => hy (e ▸ List.mem_map_of_mem hx)
      exact (ih _ hr hx).trans (congrArg (new x).getD ((oget_rewriteOne _ _ _ _).trans (if_neg other)))

end

end Sys2Proof
end

section
/-! Learning (R201, R202, R205): the requests that the manager executes. -/

namespace Sys2Proof.Machine

/-! ### Fields of an entry of 60 octets -/

theorem emCtrl_emWithCtrl {v ctrl : Nat} (hv : v < 2 ^ 480) (h : ctrl < 256) : emCtrl (emWithCtrl v ctrl) = ctrl := by
  simp only [emCtrl, emWithCtrl, putFld, fld, Nat.shiftLeft_eq, Nat.shiftRight_eq_div_pow]
  omega

/-- The location is no part of the control octet. -/
theorem emCtrl_putLoc (v loc : Nat) : emCtrl (putFld v 104 24 loc) = emCtrl v := by
  simp only [emCtrl, putFld, fld, Nat.shiftLeft_eq, Nat.shiftRight_eq_div_pow]
  omega

theorem locOf_putLoc (v : Nat) {loc : Nat} (h : loc < 2 ^ 24) : locOf (putFld v 104 24 loc) = loc := by
  simp only [locOf, putFld, fld, Nat.shiftLeft_eq, Nat.shiftRight_eq_div_pow]
  omega

/-- The number that joined octet strings spell. -/
theorem ofBytes_append (a b : Bytes) : ofBytes (a ++ b) = ofBytes a * 256 ^ b.length + ofBytes b := by
  rw [ofBytes, List.foldl_append, foldl_bytes]
  rfl

theorem byteAt_middle (a m b : Bytes) {n : Nat} (h : n < m.length) : byteAt (a ++ m ++ b) (a.length + n) = m[n].toNat := by
  rw [byteAt, List.append_assoc, List.getD_eq_getElem?_getD, List.getElem?_append_right (Nat.le_add_right _ _), Nat.add_sub_cancel_left,
    List.getElem?_append_left h, List.getElem?_eq_getElem h, Option.getD_some]

/-- The number that the first octets behind `a` spell. -/
theorem beAt_middle (a m b : Bytes) {n : Nat} (h : n ≤ m.length) : beAt (a ++ m ++ b) a.length n = ofBytes (m.take n) := by
  induction n with
  | zero => rfl
  | succ n ih =>
    have before := ih (Nat.le_of_succ_le h)
    rw [beAt] at before ⊢
    rw [List.range_succ, List.foldl_append, List.foldl_cons, List.foldl_nil, byteAt_middle a m b h, before,
      List.take_succ_eq_append_getElem h, ofBytes_append, List.length_singleton, Nat.pow_one, ofBytes_cons, List.length_nil, Nat.pow_zero,
      Nat.mul_one]
    rfl

/-- The entry that a request makes (R201): dynamic and of age 0, with the location reached and the template 3430h.04. -/
def Dev.learnEntry (d : Dev) (r : LearnReq) : Nat :=
  let n := d.emKeyLen d.learnTable
  ofBytes ([0x80#8, 0#8, 0#8, 0#8] ++ toBytes n r.key ++ List.replicate (40 - n) 0#8 ++ toBytes 3 r.loc ++ [0#8] ++
    toBytes 12 (d.o 0x3430 4))

theorem emKeyLen_le (d : Dev) (t : Nat) : d.emKeyLen t ≤ 40 := by
  unfold Dev.emKeyLen
  split <;> decide

theorem emKey_learnEntry (d : Dev) {r : LearnReq} (h : r.key < 256 ^ d.emKeyLen d.learnTable) :
    d.emKey d.learnTable (d.learnEntry r) = r.key := by
  have len := emKeyLen_le d d.learnTable
  rw [Dev.emKey, Dev.learnEntry]
  generalize d.emKeyLen d.learnTable = n at *
  have total : ([0x80#8, 0#8, 0#8, 0#8] ++ toBytes n r.key ++ List.replicate (40 - n) 0#8 ++ toBytes 3 r.loc ++ [0#8] ++
      toBytes 12 (d.o 0x3430 4)).length = 60 := by
    simp only [List.length_append, List.length_cons, List.length_nil, List.length_replicate, toBytes_length]
    omega
  rw [toBytes_ofBytes _ 60 total]
  have key := beAt_middle [0x80#8, 0#8, 0#8, 0#8] (toBytes n r.key) (List.replicate (40 - n) 0#8 ++ toBytes 3 r.loc ++ [0#8] ++
    toBytes 12 (d.o 0x3430 4)) (Nat.le_of_eq (toBytes_length n r.key).symm)
  rw [List.take_of_length_le (Nat.le_of_eq (toBytes_length n r.key)), ofBytes_toBytes, Nat.mod_eq_of_lt h] at key
  simp only [List.append_assoc] at key ⊢
  exact key

theorem locOf_learnEntry (d : Dev) {r : LearnReq} (h : r.loc < 2 ^ 24) : locOf (d.learnEntry r) = r.loc := by
  have tmpl : d.o 0x3430 4 % 256 ^ 12 < 256 ^ 12 := Nat.mod_lt _ (by decide)
  simp only [Dev.learnEntry, ofBytes_append, ofBytes_toBytes, toBytes_length, List.length_singleton, locOf, fld,
    Nat.shiftRight_eq_div_pow]
  generalize d.o 0x3430 4 % 256 ^ 12 = m at *
  have zero : ofBytes [0#8] = 0 := rfl
  rw [zero]
  omega

/-! ### Requests (R201, R202) -/

section
variable (c : Clock) (d : Dev) (r : LearnReq)

/-- The entry of the learning table that holds a key, with its address. -/
abbrev Dev.learnFind (d : Dev) (key : Nat) : Option (Nat × Nat) := d.emFind d.learnTable key (d.emMaster d.learnTable)

/-- Whether the rate lets a request through, and the bucket after it (R202). -/
def Dev.learnTake (d : Dev) (c : Clock) : Bool × Option Bucket :=
  bucketTake (d.o 0x3430 6) (d.o 0x3430 6 / 10) c.run d.bays.learnRate

/-- The device after the rate has seen a request. -/
def Dev.learnTaken (d : Dev) (c : Clock) : Dev := { d with bays := { d.bays with learnRate := (d.learnTake c).2 } }

/-- The port limit forbids a dynamic entry at the location of a request (R202). -/
abbrev Dev.AtPortLimit (d : Dev) (r : LearnReq) : Prop :=
  r.loc >>> 20 = 1 ∧ d.o 0x3433 1 r.port ≠ 0 ∧ d.o 0x3433 1 r.port ≤ d.learnedNow r.port

/-- The device once it has counted and recorded a request that the port limit forbids. -/
def Dev.limitNoted (d : Dev) (c : Clock) (r : LearnReq) : Dev :=
  (d.addO 0x3432 9 0 1).after c (raiseLim 636 0x3409 1 r.port r.port (d.o 0x3433 1 r.port) 0 3)

/-- An entry moved to another location (R201): of age 0, its template as it was. -/
def movedEntry (v loc : Nat) : Nat := putFld (emWithCtrl v 0x80) 104 24 loc

/-- The device once an entry has moved to the location that `v` holds. -/
def Dev.moved (d : Dev) (a v key : Nat) : Dev :=
  ({ d.learnWrite a v with bays := { (d.learnWrite a v).bays with moves := nset d.bays.moves key (nget d.bays.moves key + 1) } } : Dev).addO
    0x3432 5 0 1

theorem at_learnRate : M.at learnRate c d = ((d.learnTake c).1, d.learnTaken c) := rfl

variable {d r}

theorem at_learnLimited (h : d.AtPortLimit r) : M.at (learnLimited r) c d = (true, d.limitNoted c r) := by
  simp only [learnLimited, at_get_bind]
  rw [if_pos h]
  rfl

theorem at_learnLimited_free (h : ¬d.AtPortLimit r) : M.at (learnLimited r) c d = (false, d) := by
  simp only [learnLimited, at_get_bind]
  rw [if_neg h]
  rfl

/-! A request over the rate is dropped. -/

section
variable (hrate : (d.learnTake c).1 = false)
include hrate

theorem after_learnExec_dropped : d.after c (learnExec r) = (d.learnTaken c).after c (learnDrop 1) := by
  simp only [learnExec, after_eq, at_bind, at_learnRate, hrate]
  rfl

theorem after_moveExec_dropped : d.after c (moveExec r) = (d.learnTaken c).after c (learnDrop 1) := by
  simp only [moveExec, after_eq, at_bind, at_learnRate, hrate]
  rfl

end

/-! What is done with a request that the rate lets through. -/

section
variable (hrate : (d.learnTake c).1 = true)
include hrate

theorem after_learnExec_limited (h : d.AtPortLimit r) : d.after c (learnExec r) = (d.learnTaken c).limitNoted c r := by
  simp only [learnExec, after_eq, at_bind, at_learnRate, hrate, Bool.not_true, Bool.false_eq_true, if_false,
    at_learnLimited c (d := d.learnTaken c) h, at_pure]

theorem after_learnExec_new (h : ¬d.AtPortLimit r) (hk : d.learnFind r.key = none) :
    d.after c (learnExec r) = (d.learnTaken c).after c (learnNew r) := by
  have absent : ((d.learnTaken c).learnFind r.key).isNone := Option.isNone_iff_eq_none.mpr hk
  simp only [learnExec, after_eq, at_bind, at_learnRate, hrate, Bool.not_true, Bool.not_false, Bool.false_eq_true, if_false, if_true,
    at_learnLimited_free c (d := d.learnTaken c) h, at_get, absent]

theorem after_moveExec_limited (h : d.AtPortLimit r) (hk : d.learnFind r.key = none) :
    d.after c (moveExec r) = (d.learnTaken c).limitNoted c r := by
  have absent : (d.learnTaken c).learnFind r.key = none := hk
  simp only [moveExec, after_eq, at_bind, at_learnRate, hrate, Bool.not_true, Bool.false_eq_true, if_false, at_get, absent,
    at_learnLimited c (d := d.learnTaken c) h, at_pure]

theorem after_moveExec_new (h : ¬d.AtPortLimit r) (hk : d.learnFind r.key = none) :
    d.after c (moveExec r) = (d.learnTaken c).after c (learnNew r) := by
  have absent : (d.learnTaken c).learnFind r.key = none := hk
  simp only [moveExec, after_eq, at_bind, at_learnRate, hrate, Bool.not_true, Bool.not_false, Bool.false_eq_true, if_false, if_true,
    at_get, absent, at_learnLimited_free c (d := d.learnTaken c) h]

theorem after_moveExec_found {a v : Nat} (hk : d.learnFind r.key = some (a, v)) :
    d.after c (moveExec r) =
      if bitOf (emCtrl v) 6 = true ∨ locOf v = r.loc then d.learnTaken c
      else if bitOf (emCtrl v) 3 = true then (d.learnTaken c).addO 0x3432 6 0 1
      else if d.AtPortLimit r then (d.learnTaken c).limitNoted c r
      else (d.learnTaken c).moved a (movedEntry v r.loc) r.key := by
  have found : (d.learnTaken c).learnFind r.key = some (a, v) := hk
  simp only [moveExec, after_eq, at_bind, at_learnRate, hrate, Bool.not_true, Bool.false_eq_true, if_false, at_get,
    found, at_ite, at_pure, at_incO, at_set]
  split
  next stays => rfl
  next =>
    split
    next frozen => rfl
    next =>
      by_cases h : d.AtPortLimit r
      · simp only [at_learnLimited c (d := d.learnTaken c) h, if_pos h, Bool.not_true, Bool.false_eq_true, if_false]
      · simp only [at_learnLimited_free c (d := d.learnTaken c) h, if_neg h, Bool.not_false, if_true]
        rfl

end

/-- A move request without an entry of its key is a learn request (R205). -/
theorem after_moveExec_absent (hk : d.learnFind r.key = none) : d.after c (moveExec r) = d.after c (learnExec r) := by
  cases hrate : (d.learnTake c).1 with
  | false => rw [after_moveExec_dropped c hrate, after_learnExec_dropped c hrate]
  | true =>
    by_cases h : d.AtPortLimit r
    · rw [after_moveExec_limited c hrate h hk, after_learnExec_limited c hrate h]
    · rw [after_moveExec_new c hrate h hk, after_learnExec_new c hrate h hk]

/-- A key with a free slot in its buckets is entered there, and counted (R196, R201). -/
theorem after_learnNew_free {a : Nat} (hkey : r.key < 256 ^ d.emKeyLen d.learnTable) (hk : d.learnFind r.key = none)
    (hfree : (d.emSlots d.learnTable r.key 0 ++ d.emSlots d.learnTable r.key 1).find? (fun a => (d.emMaster d.learnTable a).isNone) =
      some a) :
    d.after c (learnNew r) = (d.learnWrite a (d.learnEntry r)).addO 0x3432 1 0 1 := by
  have inserted : M.at (emInsert d.learnTable (d.learnEntry r)) c d = ((0, a), d.learnWrite a (d.learnEntry r)) := by
    simp only [emInsert, at_get_bind, emKey_learnEntry d hkey, hk, hfree]
    rfl
  rw [Dev.learnEntry] at inserted
  simp only [learnNew, after_eq, at_get_bind]
  rw [at_bind, inserted]
  rfl

end

/-! ### Requests that wait (R184, R205) -/

section
variable (c : Clock) {d : Dev}

theorem after_learnNext {r : LearnReq} {rest : List LearnReq} (h : d.bays.learnQ = r :: rest) :
    d.after c learnNext =
      ({ d with bays := { d.bays with learnQ := rest } } : Dev).after c (if r.move then moveExec r else learnExec r) := by
  simp only [learnNext, after_eq, at_get_bind, h, at_set_bind]

theorem at_drainLearn_none (h : d.bays.learnQ = []) : M.at drainLearn c d = ((), d) := by
  simp only [drainLearn, at_get_bind, h]
  rfl

end

section
variable (s : State)

/-- With no request waiting, neither command finds one. -/
theorem exec_requests_none (h : s.dev.bays.learnQ = []) : exec .learnRequest s = .next s ∧ exec .moveRequest s = .next s := by
  constructor
  · rw [exec_learnRequest, execLearnRequest, run_next _ _ _ rfl, after_eq, at_get_bind, h]
    rfl
  · rw [exec_moveRequest, execMoveRequest, run_next _ _ _ rfl, after_eq, at_get_bind, h]
    rfl

variable {s} {r : LearnReq} {rest : List LearnReq} (h : s.dev.bays.learnQ = r :: rest)
include h

/-- The request at the front is executed by the command of its kind alone. -/
theorem exec_learnRequest_cons :
    exec .learnRequest s = .next (if r.move then s else s.on (s.dev.after s.clk learnNext)) := by
  rw [exec_learnRequest, execLearnRequest, run_next _ _ _ rfl, after_eq, at_get_bind, h]
  dsimp only
  cases r.move with
  | false => rfl
  | true => rfl

theorem exec_moveRequest_cons :
    exec .moveRequest s = .next (if r.move then s.on (s.dev.after s.clk learnNext) else s) := by
  rw [exec_moveRequest, execMoveRequest, run_next _ _ _ rfl, after_eq, at_get_bind, h]
  dsimp only
  cases r.move with
  | false => rfl
  | true => rfl

end

end Sys2Proof.Machine
end

section
/-! Freezes and aging (R201, R204): the end of a second, the end of a freeze, and the pass over the learning table. -/

namespace Sys2Proof.Machine

/-! ### The entries of a table -/

theorem tkey_of_tkeyTable {ix sub k : Nat} (hsub : sub < 256) (h : tkeyTable k = ix * 256 + sub) : tkey ix sub (k % 2 ^ 32) = k := by
  simp only [tkeyTable, tkey, Nat.shiftLeft_eq, Nat.shiftRight_eq_div_pow] at h ⊢
  omega

/-- An entry of a table stands under its key. -/
theorem tbls_of_mem_entries {d : Dev} {ix sub a v : Nat} (hsub : sub < 256) (h : (a, v) ∈ d.entries ix sub) :
    (tkey ix sub a, some v) ∈ d.tbls := by
  obtain ⟨⟨k, w⟩, hk, he⟩ := List.mem_filterMap.mp h
  dsimp only at he
  split at he
  next ht =>
    obtain ⟨_, rfl, e⟩ := Option.map_eq_some_iff.mp he
    obtain ⟨rfl, rfl⟩ := Prod.mk.inj e
    rwa [tkey_of_tkeyTable hsub ht]
  next => cases he

/-- The entries of a table have keys of their own. -/
theorem nodup_keys_entries {d : Dev} (ix : Nat) {sub : Nat} (hsub : sub < 256) (h : mwf (dK none) d.tbls = true) :
    ((d.entries ix sub).map fun e => tkey ix sub e.1).Nodup := by
  refine (nodup_keys_of_mwf h).sublist ?_
  rw [Dev.entries]
  induction d.tbls with
  | nil => exact .slnil
  | cons e r ih =>
    obtain ⟨k, w⟩ := e
    rw [List.filterMap_cons, List.map_cons]
    by_cases ht : tkeyTable k = ix * 256 + sub
    · cases w with
      | none => simpa only [ht, if_true, Option.map_none] using ih.cons _
      | some v =>
        simp only [ht, if_true, Option.map_some, List.map_cons, tkey_of_tkeyTable hsub ht]
        exact ih.cons_cons _
    · simpa only [ht, if_false] using ih.cons _

/-! ### Writes of the manager (R184) -/

theorem learnWrite_tbls (d : Dev) (a v : Nat) : (d.learnWrite a v).tbls = oset d.tbls (tkey 0x3400 (d.learnTable + 1) a) (some v) := rfl

/-! ### The end of a second (R201) -/

section
variable (c : Clock) {d : Dev} (h : d.bays.learnQ = [])
include h

/-- The moves of the second are forgotten; no request comes to wait. -/
theorem after_moveSecondEnd_bays :
    (d.after c moveSecondEnd).bays.moves = [] ∧ (d.after c moveSecondEnd).bays.learnQ = [] := by
  simp only [moveSecondEnd, after_eq, at_bind, at_drainLearn_none c h, at_get, at_modify, true_and]
  refine forIn_inv c (fun _ _ e => e.bays.learnQ = []) _ ?_ d.bays.moves [] PUnit.unit d h
  intro done x _ e he
  refine ⟨PUnit.unit, ?_⟩
  split
  · rw [at_get_bind]
    split
    · refine ⟨rfl, ?_⟩
      rw [at_set_bind, at_bind, at_pure, raiseEv_bays]
      exact he
    · exact ⟨rfl, he⟩
  · exact ⟨rfl, he⟩

/-- The one entry that has moved is frozen where it moved too often. -/
theorem after_moveSecondEnd_tbls {key n a v : Nat} (hm : d.bays.moves = [(key, n)]) (hk : d.learnFind key = some (a, v)) :
    (d.after c moveSecondEnd).tbls = if d.o 0x3430 7 < n then (d.learnWrite a (emWithCtrl v (emCtrl v ||| 8))).tbls else d.tbls := by
  simp only [moveSecondEnd, after_eq, at_bind, at_drainLearn_none c h, at_get, at_modify, hm, List.forIn_cons, List.forIn_nil]
  by_cases often : d.o 0x3430 7 < n
  · simp only [if_pos often, at_bind, at_get, hk, at_set, at_pure, raiseEv_tbls]
  · simp only [if_neg often, at_pure]

omit h

/-! ### The end of a freeze (R201) -/

/-- The device once the freeze of the entry at an address has ended. -/
def Dev.unfrozen (d : Dev) (a : Nat) : Dev :=
  match d.emMaster d.learnTable a with
  | some v => if bitOf (emCtrl v) 3 = true then d.learnWrite a (emWithCtrl v (clearBits (emCtrl v) 8)) else d
  | none => d

/-- The requests that wait are executed before (R205). -/
theorem after_freezeEnd (a : Nat) : d.after c (freezeEnd a) = (d.after c drainLearn).unfrozen a := by
  rw [freezeEnd, after_seq, after_eq, at_get_bind, Dev.unfrozen]
  cases (d.after c drainLearn).emMaster (d.after c drainLearn).learnTable a with
  | none => rfl
  | some v =>
    dsimp only
    split
    · rfl
    · rfl

/-! ### Aging (R204) -/

include h

theorem after_agingPass_off (off : d.o 0x3430 9 = 0) : d.after c agingPass = d := by
  simp only [agingPass, after_eq, at_bind, at_drainLearn_none c h, at_get, off, ne_eq, not_true_eq_false, if_false, at_pure]

omit h in
/-- What a pass writes to an entry: `none`, it leaves it; `some none`, it removes it. -/
def Dev.agedTo (d : Dev) (x : Nat × Nat) : Option (Option Nat) :=
  let ctrl := emCtrl x.2
  if !bitOf ctrl 6 then
    if d.bays.marks.contains (d.emKey d.learnTable x.2) then
      if fld ctrl 4 2 ≠ 0 then some (some (emWithCtrl x.2 (putFld ctrl 4 2 0))) else none
    else if fld ctrl 4 2 + 1 = 3 then some none
    else some (some (emWithCtrl x.2 (putFld ctrl 4 2 (fld ctrl 4 2 + 1))))
  else none

/-- A pass takes up the entries of the table in turn, and forgets the marks. -/
theorem after_agingPass (on : d.o 0x3430 9 ≠ 0) :
    (d.after c agingPass).bays.marks = [] ∧ (d.after c agingPass).tbls =
      rewriteAll (fun x => tkey 0x3400 (d.learnTable + 1) x.1) d.agedTo (d.entries 0x3400 (d.learnTable + 1)) d.tbls := by
  simp only [agingPass, after_eq, at_bind, at_drainLearn_none c h, at_get, if_pos on, at_modify, true_and]
  refine (forIn_inv c (fun done _ e => e.learnTable = d.learnTable ∧
    e.tbls = rewriteAll (fun x => tkey 0x3400 (d.learnTable + 1) x.1) d.agedTo done d.tbls) _ ?_ _ [] PUnit.unit d ⟨rfl, rfl⟩).2
  rintro done x _ e ⟨table, tbls⟩
  refine ⟨PUnit.unit, ?_⟩
  rw [rewriteAll_concat, ← tbls, Dev.agedTo, ← table]
  split
  next dynamic =>
    split
    next used =>
      split
      next aged => exact ⟨rfl, rfl, rfl⟩
      next => exact ⟨rfl, rfl, rfl⟩
    next unused =>
      split
      next removed => exact ⟨rfl, o_setO_other _ _ _ (by decide), rfl⟩
      next older => exact ⟨rfl, rfl, rfl⟩
  next => exact ⟨rfl, rfl, rfl⟩

/-- What each entry of the table reads after a pass. -/
theorem emMaster_agingPass (on : d.o 0x3430 9 ≠ 0) (hwf : mwf (dK none) d.tbls = true) (ht : d.learnTable < 8) {a v : Nat}
    (hm : (a, v) ∈ d.entries 0x3400 (d.learnTable + 1)) :
    (d.after c agingPass).emMaster d.learnTable a = (d.agedTo (a, v)).getD (some v) := by
  have hsub : d.learnTable + 1 < 256 := by omega
  have stood : oget d.tbls (tkey 0x3400 (d.learnTable + 1) a) = some v :=
    mget_of_mem _ (nodup_keys_of_mwf hwf) (tbls_of_mem_entries hsub hm)
  rw [Dev.emMaster, (after_agingPass c h on).2]
  exact (oget_rewriteAll_mem _ _ _ _ (nodup_keys_entries _ hsub hwf) hm).trans (congrArg _ stood)

end

section
variable (d : Dev) {a v : Nat}

/-- A pass leaves a static entry as it is. -/
theorem agedTo_static (h : bitOf (emCtrl v) 6 = true) : d.agedTo (a, v) = none := by
  rw [Dev.agedTo, h]
  rfl

variable (h : bitOf (emCtrl v) 6 = false)
include h

/-- A dynamic entry that has been used is of age 0. -/
theorem agedTo_marked (hm : d.emKey d.learnTable v ∈ d.bays.marks) : d.agedTo (a, v) =
    if fld (emCtrl v) 4 2 ≠ 0 then some (some (emWithCtrl v (putFld (emCtrl v) 4 2 0))) else none := by
  simp only [Dev.agedTo, h, List.contains_iff_mem.mpr hm, Bool.not_false, if_true]

/-- One that has not been used ages by one, and is removed at age 3. -/
theorem agedTo_unused (hm : d.emKey d.learnTable v ∉ d.bays.marks) : d.agedTo (a, v) =
    if fld (emCtrl v) 4 2 + 1 = 3 then some none else some (some (emWithCtrl v (putFld (emCtrl v) 4 2 (fld (emCtrl v) 4 2 + 1)))) := by
  simp only [Dev.agedTo, h, mt List.contains_iff_mem.mp hm, Bool.not_false, Bool.false_eq_true, if_true, if_false]

end

/-! ### The commands -/

section
variable (s : State)

theorem exec_moveSecondEnd_on : exec .moveSecondEnd s = .next (s.on (s.dev.after s.clk moveSecondEnd)) :=
  exec_on (c := .moveSecondEnd) rfl rfl

theorem exec_learnAgingPass_on : exec .learnAgingPass s = .next (s.on (s.dev.after s.clk agingPass)) :=
  exec_on (c := .learnAgingPass) rfl rfl

theorem exec_freezeExpiry_on (a : Nat) :
    exec (.freezeExpiry a) s = .next (s.on ((s.dev.after s.clk drainLearn).unfrozen a)) :=
  (exec_on (c := .freezeExpiry a) (f := freezeEnd a) rfl rfl).trans (by rw [after_freezeEnd])

end

/-- Settles O37: each request by the rate, the entry of its key and the port limit; the end of a second by what the freezes keep; the aging
pass by what it writes to each entry, as no two entries share a key. -/
theorem learningMovesAndAges : Obligations.LearningMovesAndAges := by
  refine ⟨⟨exec_requests_none, ?front, ?requests⟩, ?second, ?freeze, ?off, ?aging⟩
  case front =>
    intro s r rest h
    rw [exec_learnRequest_cons h, exec_moveRequest_cons h, after_learnNext _ h]
    refine ⟨fun hm => ?_, fun hm => ?_⟩
    · rw [hm]; exact ⟨rfl, rfl⟩
    · rw [hm]; exact ⟨rfl, rfl⟩
  case requests =>
    intro c d r hloc
    refine ⟨after_moveExec_absent c, fun hr => ⟨after_learnExec_dropped c hr, after_moveExec_dropped c hr⟩,
      after_learnExec_limited c, fun a hr hk hkey hl hfree => ⟨(d.learnTaken c).learnEntry r, ?_, emKey_learnEntry _ hkey,
        locOf_learnEntry _ hloc⟩, fun a v hr hv hk => ?_⟩
    · exact (after_learnExec_new c hr hl hk).trans (after_learnNew_free c (d := d.learnTaken c) hkey hk hfree)
    · have run := after_moveExec_found c hr hk
      have movable (hs : bitOf (emCtrl v) 6 = false) (ho : locOf v ≠ r.loc) : ¬(bitOf (emCtrl v) 6 = true ∨ locOf v = r.loc) :=
        not_or.mpr ⟨ne_true_of_eq_false hs, ho⟩
      refine ⟨fun stays => run.trans (if_pos stays), fun hs ho frozen => ?_, fun hs ho hf full => ?_, fun hs ho hf free =>
        ⟨movedEntry v r.loc, ?_, locOf_putLoc _ hloc, (emCtrl_putLoc _ _).trans (emCtrl_emWithCtrl hv (by decide))⟩⟩
      · exact run.trans ((if_neg (movable hs ho)).trans (if_pos frozen))
      · exact run.trans ((if_neg (movable hs ho)).trans ((if_neg (ne_true_of_eq_false hf)).trans (if_pos full)))
      · exact run.trans ((if_neg (movable hs ho)).trans ((if_neg (ne_true_of_eq_false hf)).trans (if_neg free)))
  case second =>
    intro s h
    obtain ⟨moves, queue⟩ := after_moveSecondEnd_bays s.clk h
    refine ⟨_, exec_moveSecondEnd_on s, moves, queue, fun key n a v hm hk => ?_⟩
    have tbls := after_moveSecondEnd_tbls s.clk h hm hk
    refine ⟨fun often => ?_, fun seldom => tbls.trans (if_neg (Nat.not_lt.mpr seldom))⟩
    rw [if_pos often, learnWrite_tbls] at tbls
    exact (congrArg (oget · _) tbls).trans (oget_oset_same _ _ _)
  case freeze =>
    exact fun s a => ⟨exec_freezeExpiry_on s a, fun h => congrArg Prod.snd (at_drainLearn_none s.clk h)⟩
  case off =>
    intro s h off
    rw [exec_learnAgingPass_on, after_agingPass_off _ h off, on_dev]
  case aging =>
    intro s h on hwf ht
    refine ⟨_, exec_learnAgingPass_on s, (after_agingPass s.clk h on).1, fun a v hm => ?_⟩
    have read := emMaster_agingPass s.clk h on hwf ht hm
    refine ⟨fun hs => ?_, fun hs used => ?_, fun hs unused old => ?_, fun hs unused young => ?_⟩
    · rw [agedTo_static _ hs] at read; exact read
    · rw [agedTo_marked _ hs used] at read
      refine read.trans ?_
      split
      · rfl
      · rfl
    · rw [agedTo_unused _ hs unused, if_pos (by omega)] at read; exact read
    · rw [agedTo_unused _ hs unused, if_neg (by omega)] at read; exact read

end Sys2Proof.Machine
end

section
/-! The aging timer (R238, R264): which segments it submits. -/

namespace Sys2Proof.Machine

/-! ### Submission (R267) -/

section
variable (c : Clock) (d : Dev) (k kind : Nat) (work : Work)

theorem addTask_tasks : ∃ t : Task, t.work = work ∧ (d.after c (addTask k kind work)).tasks k = d.tasks k ++ [t] :=
  ⟨_, rfl, tasks_setTasks_same _ _ _⟩

/-- A submission adds a task of its work, or none. -/
theorem submit_tasks : (M.at (submit k kind work) c d).2.tasks k = d.tasks k ∨
    ∃ t : Task, t.work = work ∧ (M.at (submit k kind work) c d).2.tasks k = d.tasks k ++ [t] := by
  simp only [submit, at_get_bind, at_runNow_bind, at_ite]
  split
  next full =>
    left
    split
    · rfl
    · rfl
  next room =>
    right
    split
    · exact addTask_tasks c _ k kind work
    · exact addTask_tasks c _ k kind work

theorem submitOrWait_tasks : (d.after c (submitOrWait k kind work)).tasks k = d.tasks k ∨
    ∃ t : Task, t.work = work ∧ (d.after c (submitOrWait k kind work)).tasks k = d.tasks k ++ [t] := by
  cases ahead : d.joinery.waiting.any (fun e => e.1 == k && e.2.kind == kind) with
  | true =>
    left
    simp only [submitOrWait, after_eq, at_bind, at_get, ahead, if_true, at_pure]
    rfl
  | false =>
    have same : (d.after c (submitOrWait k kind work)).tasks k = (M.at (submit k kind work) c d).2.tasks k := by
      simp only [submitOrWait, after_eq, at_bind, at_get, ahead, Bool.false_eq_true, if_false, at_ite]
      split
      · rfl
      · rfl
    rw [same]
    exact submit_tasks c d k kind work

/-- What a submission submits is new; the other tasks stood there before. -/
theorem submitOrWait_work_ne {w : Work} (h : work ≠ w) (hd : ∀ t ∈ d.tasks k, t.work ≠ w) :
    ∀ t ∈ (d.after c (submitOrWait k kind work)).tasks k, t.work ≠ w := by
  rcases submitOrWait_tasks c d k kind work with e | ⟨u, rfl, e⟩
  · rwa [e]
  · rw [e]
    intro t ht
    rcases List.mem_append.mp ht with ht | ht
    · exact hd t ht
    · rw [List.mem_singleton.mp ht]
      exact h

end

/-! ### The aging timer (R238) -/

/-- Segment `seg` of Sill `k` waits from the last pass. -/
def Dev.agingWaits (d : Dev) (k seg : Nat) : Bool := d.joinery.waiting.any (fun e => e.1 == k && e.2.work == .aging seg)

/-- The effect of FLOW_AGING_PASS. -/
def agingTimer (k : Nat) : M Unit := do
  let d ← get
  if !d.sillFailed k then
    for seg in (List.range 1024).filter (fun seg => !d.agingWaits k seg) do submitOrWait k 5 (.aging seg)

theorem exec_flowAgingPass_on (s : State) {k : Nat} (h : k < 2) :
    exec (.flowAgingPass k) s = .next (s.on (s.dev.after s.clk (agingTimer k))) :=
  exec_on (c := .flowAgingPass k) (f := agingTimer k) (decide_eq_true h) rfl

/-- What is submitted for other segments adds no task of segment `seg`. -/
theorem submissions_work_ne (c : Clock) {k seg : Nat} {l : List Nat} (h : seg ∉ l) (d : Dev) (absent : ∀ t ∈ d.tasks k, t.work ≠ .aging seg) :
    ∀ t ∈ (d.after c (do for g in l do submitOrWait k 5 (.aging g))).tasks k, t.work ≠ .aging seg :=
  loop_keeps (fun e => ∀ t ∈ e.tasks k, t.work ≠ .aging seg) c l (fun g => submitOrWait k 5 (.aging g))
    (fun _ hg e he => submitOrWait_work_ne c e k 5 _ (fun same => h (Work.aging.inj same ▸ hg)) he) d absent

/-- The timer does not submit a segment that waits. -/
theorem agingTimer_skips (c : Clock) {d : Dev} {k seg : Nat} (waits : d.agingWaits k seg = true)
    (absent : ∀ t ∈ d.tasks k, t.work ≠ .aging seg) : ∀ t ∈ (d.after c (agingTimer k)).tasks k, t.work ≠ .aging seg := by
  have skipped : seg ∉ (List.range 1024).filter (fun g => !d.agingWaits k g) := by
    rw [List.mem_filter, waits]
    exact fun h => Bool.noConfusion h.2
  rw [agingTimer, after_eq, at_get_bind, at_ite]
  split
  next served => exact submissions_work_ne c skipped d absent
  next failed => exact absent

theorem exec_flowAgingPass_skips {s t : State} {k seg : Nat} (hk : k < 2) (run : exec (.flowAgingPass k) s = .next t)
    (waits : s.dev.agingWaits k seg = true) (absent : ∀ x ∈ s.dev.tasks k, x.work ≠ .aging seg) :
    ∀ x ∈ t.dev.tasks k, x.work ≠ .aging seg := by
  rw [exec_flowAgingPass_on s hk] at run
  obtain rfl := Host.Outcome.next.inj run
  exact agingTimer_skips s.clk waits absent

/-- A device on which the work of aging segment 0 of Sill 0 waits in a task of kind 4, not of the aging timer's kind 5. -/
def strayAging : State := State.reset.on { ({} : Dev) with joinery.waiting := [(0, { kind := 4, work := .aging 0 })] }

/-- Refutes O38, in its clause on the aging timer: the clause asks that no task of kind 5 waits for the Sill, while the timer passes over each
segment whose work waits, whatever the kind of the task that holds it. In `strayAging` the premise holds and segment 0 is not submitted. -/
theorem not_flowLookupsAndFetches : ¬ Obligations.FlowLookupsAndFetches := by
  intro h
  obtain ⟨_, _, _, _, aging, _⟩ := h
  obtain ⟨t, l, run, tasks, works, _⟩ := aging strayAging 0 (by decide) (by decide) (by decide) (by decide)
  have absent := exec_flowAgingPass_skips (by decide) run (seg := 0) (by decide) (by decide)
  have submitted : Work.aging 0 ∈ l.map Task.work := by
    rw [works]
    exact List.mem_map_of_mem (List.mem_range.mpr (Nat.zero_lt_succ _))
  obtain ⟨x, hx, hw⟩ := List.mem_map.mp submitted
  exact absent x (tasks ▸ List.mem_append_right _ hx) hw

end Sys2Proof.Machine
end

section
/-! Commits and samples (R234 to R237): what a frame that ends, and a latency sample, add to a cached record. -/

namespace Sys2Proof.Machine

/-! ### What a commit makes of an entry (R234 to R236) -/

/-- The end of the frame found no fault that makes it bad. -/
def Frame.good (f : Frame) : Bool := match f.fault with | some x => decide (4 < x) | none => true

/-- The meter found the frame green (R235). -/
def Frame.green (f : Frame) : Bool := match f.reply with | some r => fld r.res 100 2 == 1 | none => false

/-- A frame would overflow a count of the entry (R216). -/
def CacheEnt.overflows (x : CacheEnt) (f : Frame) : Bool :=
  if f.good then decide (0xFFFFFF < x.pk + 1 ∨ 0xFFFFFFFF - 16383 < x.oct + f.data.length) else decide (0xFF < x.err + 1)

/-- An entry whose lookup has committed: a green frame is charged to its meter. -/
def CacheEnt.charged (x : CacheEnt) (f : Frame) : CacheEnt :=
  let e := if f.green then { x with credit := max (-(2 ^ 31) * polUnit) (x.credit - (f.data.length : Int) * polUnit) } else x
  { e with dirty := true, pins := e.pins - 1 }

theorem CacheEnt.charged_eq (x : CacheEnt) (f : Frame) : x.charged f =
    { x with
      credit := if f.green then max ((-(2 ^ 31) : Int) * polUnit) (x.credit - (f.data.length : Int) * polUnit) else x.credit
      dirty := true, pins := x.pins - 1 } := by
  rw [CacheEnt.charged]
  cases f.green with
  | false => rfl
  | true => rfl

/-- A record with the TCP flags and state of a good frame (R236). -/
def Dev.tcpRecord (d : Dev) (f : Frame) (data : Nat) : Nat :=
  let role := if f.tf 290 1 = recInit data then 1 else 0
  let o := if role = 1 then 74 else 75
  let r := setRf data o 1 (rf data o 1 ||| d.tcpFlags f)
  setRf r 73 1 (tcpStep (rf r 73 1) role (d.tcpFlags f) (rf r 74 1) (rf r 75 1))

/-- An entry after the commit of a frame. -/
def Dev.committedEnt (d : Dev) (f : Frame) (x : CacheEnt) : CacheEnt :=
  let e := x.charged f
  if f.good then { e with data := d.tcpRecord f e.data, pk := e.pk + 1, oct := e.oct + f.data.length } else { e with err := e.err + 1 }

/-- The device once the commit of a frame has ended. -/
def Dev.commitEnded (d : Dev) (c : Clock) (f : Frame) : Dev :=
  ({ d with yard := { d.yard with frames := oset d.yard.frames f.id (some { f with committed := true }) } } : Dev).after c (frameDone f.id)

section
variable (c : Clock) {d : Dev}

/-- The frames that commit: whole, with a record, and not committed before (R234). -/
theorem owesCommit_iff (f : Frame) : (f.whole = true ∧ f.slot.isSome = true ∧ (!f.committed) = true) ↔
    f.whole = true ∧ f.slot ≠ none ∧ f.committed = false := by
  rw [Option.isSome_iff_ne_none, Bool.not_eq_true']

theorem after_flowCommit_idle {id : Nat} (h : ∀ f, d.frame id = some f → ¬(f.whole = true ∧ f.slot ≠ none ∧ f.committed = false)) :
    d.after c (flowCommit id) = d := by
  rw [flowCommit, after_eq, at_get_bind]
  cases hf : d.frame id with
  | none => rfl
  | some f =>
    dsimp only
    rw [if_neg (mt (owesCommit_iff f).mp (h f hf))]
    rfl

section
variable {f : Frame} (hf : d.frame f.id = some f) (owes : f.whole = true ∧ f.slot ≠ none ∧ f.committed = false)
include hf owes

theorem after_flowCommit_lost (gone : d.cacheFind f.sill f.key f.kdir = none) :
    d.after c (flowCommit f.id) = (d.addO 0x3830 0xF f.sill 1).commitEnded c f := by
  have kept : (d.addO 0x3830 0xF f.sill 1).frame f.id = some f := hf
  rw [flowCommit, after_eq, at_get_bind, hf]
  dsimp only
  simp only [if_pos ((owesCommit_iff f).mpr owes), gone, at_incO_bind, at_get_bind, kept]
  rfl

theorem after_flowCommit_counted {i : Nat} {x : CacheEnt} (found : d.cacheFind f.sill f.key f.kdir = some i) (hx : d.cacheAt i = some x)
    (fits : x.overflows f = false) :
    d.after c (flowCommit f.id) = (d.setCache i (some (d.committedEnt f x))).commitEnded c f := by
  have kept (e : Option CacheEnt) : (d.setCache i e).frame f.id = some f := hf
  rw [flowCommit, after_eq, at_get_bind, hf]
  dsimp only
  rw [if_pos ((owesCommit_iff f).mpr owes), found]
  dsimp only
  rw [hx]
  refine (congrArg (fun g => (M.at g c d).2) (if_neg (Bool.eq_false_iff.mp fits))).trans ?_
  rw [at_get_bind, hx]
  dsimp only
  rw [at_set_bind, at_get_bind, kept]
  rfl

end

/-! ### Samples (R237) -/

theorem after_flowSample_none {id : Nat} (h : d.flow.samples.find? (fun x => x.frame == id) = none) : d.after c (flowSample id) = d := by
  rw [flowSample, after_eq, at_get_bind, h]
  rfl

/-- The device without a sample that has arrived. -/
def Dev.sampleTaken (d : Dev) (x : FlowSample) : Dev := { d with flow := { d.flow with samples := d.flow.samples.erase x } }

/-- The bin of 3807h that a latency falls in. -/
def Dev.latencyBin (d : Dev) (lat : Nat) : Nat := ((List.range 7).filter (fun j => d.o 0x3807 (j + 1) ≤ lat)).length

/-- An entry with one more sample in a bin. -/
def CacheEnt.sampled (e : CacheEnt) (bin : Nat) : CacheEnt :=
  { e with hist := (List.range 8).map (fun j => e.hist.getD j 0 + (if j = bin then 1 else 0)), dirty := true }

section
variable {id : Nat} {x : FlowSample} (h : d.flow.samples.find? (fun x => x.frame == id) = some x)
include h

theorem after_flowSample_lost (gone : d.cacheFind x.sill x.key x.kdir = none) :
    d.after c (flowSample id) = (d.sampleTaken x).addO 0x3830 0x10 x.sill 1 := by
  simp only [flowSample, after_eq, at_get_bind, h, at_set_bind, gone, at_incO]
  rfl

theorem after_flowSample_counted {i : Nat} {e : CacheEnt} (found : d.cacheFind x.sill x.key x.kdir = some i) (he : d.cacheAt i = some e)
    (fits : e.hist.getD (d.latencyBin x.lat) 0 + 1 ≤ 0xFF) :
    d.after c (flowSample id) = (d.sampleTaken x).setCache i (some (e.sampled (d.latencyBin x.lat))) := by
  have stands : (d.sampleTaken x).cacheAt i = some e := he
  rw [Dev.latencyBin] at fits
  rw [Dev.sampleTaken] at stands
  simp only [flowSample, after_eq, at_get_bind, h, at_set_bind, found, he, Nat.not_lt.mpr fits, if_false, stands, at_set]
  rfl

end
end

/-! ### The commands -/

theorem exec_flowCommit_on (s : State) (id : Nat) : exec (.flowCommit id) s = .next (s.on (s.dev.after s.clk (flowCommit id))) :=
  exec_on rfl rfl

theorem exec_flowSample_on (s : State) (id : Nat) : exec (.flowSample id) s = .next (s.on (s.dev.after s.clk (flowSample id))) :=
  exec_on rfl rfl

/-- Settles O39: a commit by whether its frame owes one, whether the entry still stands, and whether the frame is good; a sample by whether
one is on its way and the entry stands. -/
theorem flowCommitsCountFrames : Obligations.FlowCommitsCountFrames := by
  refine ⟨fun s id h => ?idle, fun s f hf whole held owed => ⟨fun gone => ?lost, fun i x found hx => ⟨fun bad fits => ?bad,
    fun good pk oct => ?good⟩⟩, fun s id h => ?noSample, fun s id x h => ⟨fun gone => ?sampleLost, fun i e found he fits => ?sample⟩⟩
  case idle => rw [exec_flowCommit_on, after_flowCommit_idle _ h, on_dev]
  case lost => rw [exec_flowCommit_on, after_flowCommit_lost _ hf ⟨whole, held, owed⟩ gone]; rfl
  case bad =>
    have good : f.good = false := bad
    rw [exec_flowCommit_on, after_flowCommit_counted _ hf ⟨whole, held, owed⟩ found hx, Dev.committedEnt, CacheEnt.charged_eq, good]
    · rfl
    · rw [CacheEnt.overflows, good, if_neg Bool.false_ne_true]
      exact decide_eq_false (Nat.not_lt.mpr fits)
  case good =>
    have good : f.good = true := good
    rw [exec_flowCommit_on, after_flowCommit_counted _ hf ⟨whole, held, owed⟩ found hx, Dev.committedEnt, CacheEnt.charged_eq, good]
    · rfl
    · rw [CacheEnt.overflows, if_pos good]
      exact decide_eq_false (not_or.mpr ⟨Nat.not_lt.mpr pk, Nat.not_lt.mpr oct⟩)
  case noSample => rw [exec_flowSample_on, after_flowSample_none _ h, on_dev]
  case sampleLost => rw [exec_flowSample_on, after_flowSample_lost _ h gone]; rfl
  case sample => rw [exec_flowSample_on, after_flowSample_counted _ h found he fits]; rfl

end Sys2Proof.Machine
end

section
/-! Dispatch (R263, R264, R266, R271, R272): where a ready task starts, and what a preempt and a retry time do. -/

namespace Sys2Proof.Machine

/-! ### Registers that are written one after another -/

/-- A map written once under each of several keys reads what was written. -/
theorem nget_foldl_nset {g : Nat → Nat} (hg : Function.Injective g) (v : Nat → Nat) (m : PMap Nat) {n r : Nat} (h : r < n) :
    nget ((List.range n).foldl (fun m r => nset m (g r) (v r)) m) (g r) = v r := by
  induction n with
  | zero => exact absurd h (Nat.not_lt_zero r)
  | succ n ih =>
    rw [List.range_succ, List.foldl_append, List.foldl_cons, List.foldl_nil, nget_nset]
    by_cases e : r = n
    · rw [e, if_pos rfl]
    · rw [if_neg fun same => e (hg same)]
      exact ih (by omega)

section
variable (c : Clock) (d : Dev) (k i : Nat) (t : Task)

/-! ### The start of a task (R263, R271) -/

/-- A thread goes on as it is, or halts at a breakpoint (R277). -/
theorem thr_atBreak : (d.atBreak i).thr i = d.thr i ∨ (d.atBreak i).thr i = { d.thr i with was := (d.thr i).st, st := 7 } := by
  by_cases h : ((d.thr i).busy && (d.thr i).st != 7 && d.breakAt (i / 16) (d.thr i).pc) = true
  · simp only [Dev.atBreak, h, if_true, thr_setThr_same, or_true]
  · simp only [Dev.atBreak, h, if_false, true_or, Bool.false_eq_true]

theorem peakO_joinery (ix sub i v : Nat) : (d.after c (peakO ix sub i v)).joinery = d.joinery := by
  rw [after_eq, at_peakO]; split <;> rfl

/-- The registers with which a task starts on a thread: those that its token keeps, or its six words. -/
def Task.startRegs (t : Task) (x : Thread) : PMap Nat :=
  match t.token with
  | some k => (List.range 8).foldl (fun m r => nset m (24 + r) (k.regs.getD r 0)) []
  | none => (List.range 6).foldl (fun m r => nset m r (t.args.getD r 0)) x.regs

/-- The address at which a task starts: its token's, or the entry of its kind. -/
def Dev.startPc (d : Dev) (k : Nat) (t : Task) : Nat :=
  match t.token with
  | some tk => tk.pc
  | none => d.o 0x3841 1 (k * 256 + t.kind)

/-- The thread on which a task starts. -/
def Dev.startThread (d : Dev) (k : Nat) (t : Task) (i : Nat) : Thread :=
  { st := 1, task := t.seq, root := true, pc := d.startPc k t, regs := t.startRegs (d.thr i), scratch := (d.thr i).scratch }

/-- A task that starts runs on its core; the dependence counter that it waited for is free once no task waits on it (R265). -/
def Dev.taskStarted (d : Dev) (k : Nat) (t : Task) (n : Nat) : Dev :=
  let d := d.setTask k { t with st := 1, core := n, token := none, asked := false }
  if d.dep k t.waitCtr = some 0 then d.setDep k t.waitCtr 0 else d

theorem after_startTask : d.after c (startTask k t i) =
    ((((d.taskStarted k t (i / 16)).setThr i (d.startThread k t i)).atBreak i).addO 0x3852 1 (i / 16) 1).after c
      (peakO 0x3852 6 (i / 16) (min (2 ^ 32 - 1) ((c.run - t.arr) / uNs))) := by
  simp only [startTask, after_eq, at_get_bind, at_runNow_bind, at_set_bind, at_incO_bind, Dev.taskStarted]
  split
  next h => rw [if_pos h]; rfl
  next h => rw [if_neg h]; rfl

theorem thr_startTask : (d.after c (startTask k t i)).thr i = d.startThread k t i ∨
    (d.after c (startTask k t i)).thr i = { d.startThread k t i with was := 1, st := 7 } := by
  have halts := thr_atBreak ((d.taskStarted k t (i / 16)).setThr i (d.startThread k t i)) i
  rw [thr_setThr_same] at halts
  rw [after_startTask, Dev.thr, peakO_joinery]
  exact halts

/-! ### Dispatch (R263) -/

/-- With no activated patch under way nothing of it goes on (R430). -/
theorem after_patchDrive_idle (hn : d.joinery.patchNext = none) (hp : d.sec.patching = false) : d.after c patchDrive = d := by
  simp only [patchDrive, after_eq, at_get_bind, hn]
  cases (oget d.joinery.apply 0).isNone
  all_goals simp only [if_true, if_false, Bool.false_eq_true, at_bind, at_get, at_pure, hp, false_and]

theorem after_taskDispatch_idle (h : (oget d.joinery.apply k).isSome = true ∨ d.dispatching k = false ∨
    (d.tasks k).filter (d.ready k) = [] ∨ d.pickCore k = none) : d.after c (taskDispatch k) = d := by
  rw [taskDispatch, after_eq, at_get_bind, at_ite]
  split
  next may =>
    obtain ⟨free, started⟩ := may
    rcases h with h | h | h | h
    · rw [Option.isNone_iff_eq_none] at free
      rw [free] at h
      cases h
    · rw [h] at started
      cases started
    · rw [h]
      rfl
    · rw [h]
      cases firstTask ((d.tasks k).filter (d.ready k)) <;> rfl
  next => rfl

theorem after_taskDispatch_starts {n : Nat} {r : List Nat} (ha : (oget d.joinery.apply k).isSome = false) (hs : d.dispatching k = true)
    (ht : firstTask ((d.tasks k).filter (d.ready k)) = some t) (hc : d.pickCore k = some n) (hi : d.freeThreads n = i :: r) :
    d.after c (taskDispatch k) = d.after c (startTask k t i) := by
  have free : (oget d.joinery.apply k).isNone = true := Option.isSome_eq_false_iff.mp ha
  simp only [taskDispatch, after_eq, at_get_bind, free, hs, and_self, if_true, ht, hc, hi]

/-! ### Completions, preemption and retries (R266, R271, R272) -/

theorem after_preemptPost_off (h : d.o 0x3843 1 = 0 ∨ (d.pickCore k).isSome = true ∨ (oget d.joinery.apply k).isSome = true) :
    d.after c (preemptPost k) = d := by
  have not : ¬(d.o 0x3843 1 ≠ 0 ∧ (d.pickCore k).isNone = true ∧ (oget d.joinery.apply k).isNone = true) := by
    rintro ⟨on, full, idle⟩
    rw [Option.isNone_iff_eq_none] at full idle
    rw [full, idle] at h
    simp [on] at h
  simp only [preemptPost, after_eq, at_get_bind, if_neg not, at_pure]

theorem after_preemptPost_posts {v : Task} (on : d.o 0x3843 1 ≠ 0) (full : d.pickCore k = none) (idle : oget d.joinery.apply k = none)
    (ht : firstTask ((d.tasks k).filter (fun t => d.ready k t && !t.asked)) = some t) (hv : d.preemptVictim k t = some v)
    (hi : d.taskThreads k v.seq = [i]) :
    d.after c (preemptPost k) = (d.setTask k { t with asked := true }).after c (postInt i 2) := by
  simp only [preemptPost, after_eq, at_get_bind, full, idle, ht, hv, hi, Option.isNone_none, and_true, ne_eq, on, not_false_eq_true,
    if_true, at_set_bind]

theorem after_dovetailRelease_none {dom : Nat}
    (h : (d.tasks k).find? (fun t => t.st == 3 && bitOf t.ctrl 2 && t.domain == dom && !d.domainHeld k t) = none) :
    d.after c (dovetailRelease k dom) = d := by
  rw [dovetailRelease, after_eq, at_get_bind]
  simp only [h, at_pure]

theorem after_dovetailRelease_some {dom : Nat}
    (h : (d.tasks k).find? (fun t => t.st == 3 && bitOf t.ctrl 2 && t.domain == dom && !d.domainHeld k t) = some t) :
    d.after c (dovetailRelease k dom) = d.after c (releaseTask k t) := by
  rw [dovetailRelease, after_eq, at_get_bind]
  simp only [h]
  rfl

end

theorem firstReady_cons_cons (x y : Task) (l : List Task) :
    firstReady (x :: y :: l) = if y.readyAt < x.readyAt then firstReady (y :: l) else firstReady (x :: l) := by
  simp only [firstReady, List.foldl_cons]
  split <;> rfl

/-- The first task to be ready again is one of the list, and none of the list ends its time before it. -/
theorem firstReady_cons_least {x t : Task} {l : List Task} (h : firstReady (x :: l) = some t) :
    t ∈ x :: l ∧ ∀ u ∈ x :: l, t.readyAt ≤ u.readyAt := by
  induction l generalizing x with
  | nil =>
    obtain rfl : x = t := Option.some.inj h
    simp
  | cons y l ih =>
    rw [firstReady_cons_cons] at h
    split at h
    next sooner =>
      obtain ⟨mem, le⟩ := ih h
      exact ⟨List.mem_cons_of_mem _ mem, List.forall_mem_cons.mpr ⟨Nat.le_trans (le y List.mem_cons_self) (Nat.le_of_lt sooner), le⟩⟩
    next later =>
      obtain ⟨mem, le⟩ := ih h
      obtain ⟨lex, lel⟩ := List.forall_mem_cons.mp le
      refine ⟨?_, List.forall_mem_cons.mpr ⟨lex, List.forall_mem_cons.mpr ⟨Nat.le_trans lex (Nat.not_lt.mp later), lel⟩⟩⟩
      rcases List.mem_cons.mp mem with rfl | mem
      · exact List.mem_cons_self
      · exact List.mem_cons_of_mem _ (List.mem_cons_of_mem _ mem)

theorem firstReady_least {l : List Task} {t : Task} (h : firstReady l = some t) : t ∈ l ∧ ∀ u ∈ l, t.readyAt ≤ u.readyAt := by
  cases l with
  | nil => cases h
  | cons x l => exact firstReady_cons_least h

/-! ### The commands -/

section
variable (s : State) {k : Nat}

theorem exec_taskDispatch_on (hk : k < 2) :
    exec (.taskDispatch k) s = .next (s.on ((s.dev.after s.clk patchDrive).after s.clk (taskDispatch k))) :=
  exec_on (c := .taskDispatch k) (decide_eq_true hk) rfl

theorem exec_dovetailRelease_on (dom : Nat) (hk : k < 2) :
    exec (.dovetailRelease k dom) s = .next (s.on ((s.dev.after s.clk (dovetailRelease k dom)).after s.clk listsGo)) := by
  rw [← after_seq]
  exact exec_on (c := .dovetailRelease k dom) (decide_eq_true hk) rfl

theorem exec_preemptPost_on (hk : k < 2) : exec (.preemptPost k) s = .next (s.on (s.dev.after s.clk (preemptPost k))) :=
  exec_on (c := .preemptPost k) (decide_eq_true hk) rfl

theorem exec_taskRetryReady_none (hk : k < 2) (h : firstReady ((s.dev.tasks k).filter (fun t => t.st == 2)) = none) :
    exec (.taskRetryReady k) s = .next s := by
  refine (exec_on (c := .taskRetryReady k) (decide_eq_true hk) rfl).trans ?_
  simp only [after_eq, at_get_bind, h, at_pure, on_dev]

theorem exec_taskRetryReady_some {t : Task} (hk : k < 2) (h : firstReady ((s.dev.tasks k).filter (fun t => t.st == 2)) = some t) :
    exec (.taskRetryReady k) s = .next (s.on (s.dev.setTask k { t with st := 0 })) := by
  refine (exec_on (c := .taskRetryReady k) (decide_eq_true hk) rfl).trans ?_
  simp only [after_eq, at_get_bind, h, at_set]

end

/-- Settles O40: each command by the task that it finds; a task that starts by whether it has a token. -/
theorem tasksAreDispatched : Obligations.TasksAreDispatched := by
  refine ⟨fun s k hk => ⟨fun hn hp => after_patchDrive_idle _ _ hn hp, ?idle, ?starts⟩, ?start, fun s k dom hk => ⟨?held, ?release⟩,
    fun s k hk => ⟨?off, ?posts⟩, fun s k hk => ?retry, fun l t h => firstReady_least h⟩
  case idle => exact fun h => by rw [exec_taskDispatch_on s hk, after_taskDispatch_idle _ _ _ h]
  case starts =>
    intro t n i r ha hs ht hc hi
    rw [exec_taskDispatch_on s hk, after_taskDispatch_starts _ _ _ _ _ ha hs ht hc hi]
  case start =>
    intro c d k i t x
    have six : t.token = none → d.startPc k t = d.o 0x3841 1 (k * 256 + t.kind) ∧
        ∀ r, r < 6 → nget (t.startRegs (d.thr i)) r = t.args.getD r 0 := fun h => by
      simp only [Dev.startPc, Task.startRegs, h, true_and]
      exact fun r hr => nget_foldl_nset (g := fun r => r) (fun _ _ e => e) _ _ hr
    have kept : ∀ tk, t.token = some tk → d.startPc k t = tk.pc ∧
        ∀ r, r < 8 → nget (t.startRegs (d.thr i)) (24 + r) = tk.regs.getD r 0 := fun tk h => by
      simp only [Dev.startPc, Task.startRegs, h, true_and]
      exact fun r hr => nget_foldl_nset (g := fun r => 24 + r) (fun _ _ e => Nat.add_left_cancel e) _ _ hr
    have halts : x = d.startThread k t i ∨ x = { d.startThread k t i with was := 1, st := 7 } := thr_startTask c d k i t
    clear_value x
    rcases halts with rfl | rfl
    · exact ⟨rfl, rfl, .inl rfl, rfl, six, kept⟩
    · exact ⟨rfl, rfl, .inr rfl, rfl, six, kept⟩
  case held => exact fun h => by rw [exec_dovetailRelease_on s dom hk, after_dovetailRelease_none _ _ _ h]
  case release => exact fun t h => by rw [exec_dovetailRelease_on s dom hk, after_dovetailRelease_some _ _ _ t h]
  case off => exact fun h => by rw [exec_preemptPost_on s hk, after_preemptPost_off _ _ _ h, on_dev]
  case posts =>
    intro t v i on full idle ht hv hi
    rw [exec_preemptPost_on s hk, after_preemptPost_posts _ _ _ _ _ on full idle ht hv hi]
  case retry =>
    cases h : firstReady ((s.dev.tasks k).filter (fun t => t.st == 2)) with
    | none => exact exec_taskRetryReady_none s hk h
    | some t => exact exec_taskRetryReady_some s hk h

end Sys2Proof.Machine
end

section
/-! Microwords (R245 to R253, R256, R257, R269, R270): which thread a core issues from, and what its word does. -/

namespace Sys2Proof.Machine

/-! ### The word of a thread -/

/-- A thread's word is the entry of the ROM routine of its task, which runs whole (log entry 19). -/
def Dev.atRoutine (d : Dev) (i : Nat) (t : Task) : Bool :=
  !(d.fetchWord (thrSill i) (d.thr i).pc).2 && (d.thr i).root && (d.thr i).pc == d.o 0x3841 1 (thrSill i * 256 + t.kind) && t.work != .none

/-- A pending interrupt that a thread takes now (R270). -/
def Dev.interrupted (d : Dev) (i : Nat) : Bool :=
  (d.thr i).abort || (d.thr i).quiesce || ((d.thr i).preempt && d.preemptible i)

/-- The device at which the word of a thread is looked at: fetch-unit commands have completed, and, at the end of a wait for them, those
of the thread (log entry 18). -/
def Dev.atWord (d : Dev) (c : Clock) (i : Nat) (issue : Bool) : Dev :=
  let g := d.after c (cmdDrain (thrSill i))
  if issue = false ∧ (g.thr i).st = 2 then g.after c (cmdDone (thrSill i) (g.cmdsOfThread i)) else g

theorem atWord_issue (d : Dev) (c : Clock) (i : Nat) : d.atWord c i true = d.after c (cmdDrain (thrSill i)) := by
  simp only [Dev.atWord, Bool.true_eq_false, false_and, if_false]

theorem atWord_wait (d : Dev) (c : Clock) (i : Nat) : d.atWord c i false =
    let g := d.after c (cmdDrain (thrSill i))
    if (g.thr i).st = 2 then g.after c (cmdDone (thrSill i) (g.cmdsOfThread i)) else g := by
  simp only [Dev.atWord, true_and]

/-- An issue counts (R256), and is one word more since the last checkpoint (R269). -/
def Dev.issued (d : Dev) (i : Nat) (t : Task) : Dev :=
  (d.addO 0x3851 1 (i / 16 * 4 + t.ctrl / 8 % 4) 1).setThr i { d.thr i with since := (d.thr i).since + 1 }

/-- What the word of a thread does, and the device that it does it to. -/
def Dev.wordAct (d : Dev) (i : Nat) (issue : Bool) (err : Nat) (t : Task) : Dev × M Unit :=
  let x := d.thr i
  let w := d.fetchWord (thrSill i) x.pc
  let e := if issue then d.issued i t else d
  if 17408 ≤ x.pc then (d, threadFault i 1 x.pc)
  else if d.atRoutine i t then
    (d, if err = 1 then threadFault i 6 x.pc else if d.interrupted i then takeInt i x.pc else romRun i t)
  else if issue ∧ 256 ≤ x.since then (e, threadFault i 4 x.pc)
  else if err = 1 then (e, threadFault i 6 x.pc)
  else if wRefused w.1 then (e, threadFault i 2 x.pc)
  else match d.mustWait i w.1 with
    | some st => (e, enterWait i w.1 st)
    | none => (e.unqueue i, execWord i w.1 w.2 false err)

theorem atRoutine_iff (d : Dev) (i : Nat) (t : Task) : d.atRoutine i t = true ↔
    (d.fetchWord (thrSill i) (d.thr i).pc).2 = false ∧ (d.thr i).root = true ∧
      (d.thr i).pc = d.o 0x3841 1 (thrSill i * 256 + t.kind) ∧ t.work ≠ .none := by
  simp only [Dev.atRoutine, Bool.and_eq_true, Bool.not_eq_true', beq_iff_eq, bne_iff_ne, and_assoc]

theorem interrupted_iff (d : Dev) (i : Nat) : d.interrupted i = true ↔
    (d.thr i).abort = true ∨ (d.thr i).quiesce = true ∨ ((d.thr i).preempt = true ∧ d.preemptible i = true) := by
  simp only [Dev.interrupted, Bool.or_eq_true, Bool.and_eq_true, or_assoc]

section
variable (c : Clock) (d : Dev) (i : Nat) (issue : Bool) (err : Nat) (t : Task)

/-- What follows the completion of the commands sees the device that they leave. -/
theorem after_drains (g : M Unit) : (d.after c do
    cmdDrain (thrSill i)
    let e ← get
    if (!issue) = true ∧ (e.thr i).st = 2 then do
      let e ← get
      cmdDone (thrSill i) (e.cmdsOfThread i)
      g
    else g) = (d.atWord c i issue).after c g := by
  rw [after_seq, Dev.atWord]
  generalize d.after c (cmdDrain (thrSill i)) = e
  simp only [after_eq, at_get, at_ite, at_bind, Bool.not_eq_true']
  split
  next ends => rfl
  next goes => rfl

/-- What follows the count of an issue sees the device that has counted. -/
theorem at_issued (g : M Unit) : M.at (if issue = true then do
      addO 0x3851 1 (i / 16 * 4 + t.ctrl / 8 % 4) 1
      modify fun e => e.setThr i { d.thr i with since := (d.thr i).since + 1 }
      g
    else g) c d = M.at g c (if issue then d.issued i t else d) := by
  cases issue <;> rfl

theorem after_wordStep_idle (h : (d.atWord c i issue).taskOf (thrSill i) ((d.atWord c i issue).thr i).task = none) :
    d.after c (wordStep i issue err) = d.atWord c i issue := by
  simp only [wordStep, after_drains]
  simp only [after_eq, at_get_bind, h, at_pure]

theorem after_wordStep_task (h : (d.atWord c i issue).taskOf (thrSill i) ((d.atWord c i issue).thr i).task = some t) :
    d.after c (wordStep i issue err) =
      ((((d.atWord c i issue).wordAct i issue err t).1.after c ((d.atWord c i issue).wordAct i issue err t).2).after c
        (patchMaybe (thrSill i))).after c patchDrive := by
  simp only [wordStep, after_drains]
  generalize d.atWord c i issue = e at *
  have routine := atRoutine_iff e i t
  have interrupt := interrupted_iff e i
  simp only [after_eq, at_get_bind, h, Bool.not_eq_true', ← routine, ← interrupt, Dev.wordAct]
  by_cases outside : 17408 ≤ (e.thr i).pc
  · simp only [outside, if_true, at_bind]
  · simp only [outside, if_false]
    by_cases rom : e.atRoutine i t = true
    · simp only [rom, if_true, at_ite, at_bind]
      split
      · rfl
      · split
        · rfl
        · rfl
    · simp only [rom, if_false, Bool.false_eq_true]
      rw [at_issued]
      generalize (if issue = true then e.issued i t else e) = counted
      by_cases late : issue = true ∧ 256 ≤ (e.thr i).since
      · simp only [late, and_self, if_true, at_bind]
      simp only [late, if_false]
      by_cases bad : err = 1
      · simp only [bad, if_true, at_bind]
      simp only [bad, if_false]
      by_cases refused : wRefused (e.fetchWord (thrSill i) (e.thr i).pc).1 = true
      · simp only [refused, if_true, at_bind]
      simp only [refused, if_false, Bool.false_eq_true]
      cases e.mustWait i (e.fetchWord (thrSill i) (e.thr i).pc).1 with
      | some st => simp only [at_bind]
      | none => simp only [at_bind, at_modify]

end

/-! ### What the word does, case by case -/

section
variable {d : Dev} {i err : Nat} {issue : Bool} {t : Task}

theorem wordAct_outside (h : 17408 ≤ (d.thr i).pc) : d.wordAct i issue err t = (d, threadFault i 1 (d.thr i).pc) := if_pos h

theorem wordAct_routine (h : (d.thr i).pc < 17408) (rom : d.atRoutine i t = true) : d.wordAct i issue err t =
    (d, if err = 1 then threadFault i 6 (d.thr i).pc else if d.interrupted i then takeInt i (d.thr i).pc else romRun i t) :=
  (if_neg (Nat.not_le.mpr h)).trans (if_pos rom)

/-- A word that is no routine's, and no word too many. -/
theorem wordAct_word (h : (d.thr i).pc < 17408) (rom : ¬d.atRoutine i t = true) (few : ¬(issue = true ∧ 256 ≤ (d.thr i).since)) :
    d.wordAct i issue err t =
      let w := d.fetchWord (thrSill i) (d.thr i).pc
      let e := if issue then d.issued i t else d
      if err = 1 then (e, threadFault i 6 (d.thr i).pc)
      else if wRefused w.1 then (e, threadFault i 2 (d.thr i).pc)
      else match d.mustWait i w.1 with
        | some st => (e, enterWait i w.1 st)
        | none => (e.unqueue i, execWord i w.1 w.2 false err) :=
  (if_neg (Nat.not_le.mpr h)).trans ((if_neg rom).trans (if_neg few))

theorem wordAct_long (h : (d.thr i).pc < 17408) (rom : ¬d.atRoutine i t = true) (long : 256 ≤ (d.thr i).since) :
    d.wordAct i true err t = (d.issued i t, threadFault i 4 (d.thr i).pc) :=
  (if_neg (Nat.not_le.mpr h)).trans ((if_neg rom).trans (if_pos ⟨rfl, long⟩))

variable (h : (d.thr i).pc < 17408) (rom : ¬d.atRoutine i t = true) (few : ¬(issue = true ∧ 256 ≤ (d.thr i).since))
include h rom few

theorem wordAct_bad (bad : err = 1) :
    d.wordAct i issue err t = (if issue then d.issued i t else d, threadFault i 6 (d.thr i).pc) :=
  (wordAct_word h rom few).trans (if_pos bad)

theorem wordAct_refused (good : err ≠ 1) (refused : wRefused (d.fetchWord (thrSill i) (d.thr i).pc).1 = true) :
    d.wordAct i issue err t = (if issue then d.issued i t else d, threadFault i 2 (d.thr i).pc) :=
  (wordAct_word h rom few).trans ((if_neg good).trans (if_pos refused))

theorem wordAct_waits {st : Nat} (good : err ≠ 1) (legal : wRefused (d.fetchWord (thrSill i) (d.thr i).pc).1 = false)
    (waits : d.mustWait i (d.fetchWord (thrSill i) (d.thr i).pc).1 = some st) :
    d.wordAct i issue err t = (if issue then d.issued i t else d, enterWait i (d.fetchWord (thrSill i) (d.thr i).pc).1 st) := by
  simp only [wordAct_word h rom few, good, legal, waits, if_false, Bool.false_eq_true]

theorem wordAct_effect (good : err ≠ 1) (legal : wRefused (d.fetchWord (thrSill i) (d.thr i).pc).1 = false)
    (goes : d.mustWait i (d.fetchWord (thrSill i) (d.thr i).pc).1 = none) :
    d.wordAct i issue err t = ((if issue then d.issued i t else d).unqueue i,
      execWord i (d.fetchWord (thrSill i) (d.thr i).pc).1 (d.fetchWord (thrSill i) (d.thr i).pc).2 false err) := by
  simp only [wordAct_word h rom few, good, legal, goes, if_false, Bool.false_eq_true]

end

/-! ### A word that only computes (R248) -/

/-- No ALU operation has code 0. -/
theorem alu_zero (a b imm : Nat) : alu 0 a b imm = none := rfl

/-- Hash operation 0 feeds nothing. -/
theorem crcRefl_hashFeed_zero (poly acc v : Nat) : crcRefl poly acc (hashFeed 0 v) = acc := rfl

/-- A thread whose address no breakpoint names goes on. -/
theorem atBreak_setThr {d : Dev} {i : Nat} {y : Thread} (h : d.breakAt (i / 16) y.pc = false) :
    (d.setThr i y).atBreak i = d.setThr i y := by
  have same : (d.setThr i y).breakAt (i / 16) y.pc = false := h
  simp only [Dev.atBreak, thr_setThr_same, same, Bool.and_false, Bool.false_eq_true, if_false]

theorem after_execWord_computes {c : Clock} {d : Dev} {i w : Nat} (patch : Bool) (hb : wBrc w = 0) (h1 : wAlu1 w = 0) (hs : wShf w = 0)
    (hm : wMem w = 0) (hh : wHsh w = 0) (hp : wClp w = 0) (hc : wChn w = 0) (ht : wTsk w = 0) (hk : wCkp w = 0)
    (run : d.breakAt (i / 16) ((d.thr i).pc + 1) = false) :
    d.after c (execWord i w patch false 0) = d.setThr i { d.thr i with
      st := 1, pc := (d.thr i).pc + 1, clamp := none, granted := false
      regs := match alu (wAlu0 w / 2 ^ 15) (nget (d.thr i).regs (wAlu0 w / 32 % 32)) (nget (d.thr i).regs (wAlu0 w % 32)) (wImm w) with
        | some (v, _, true) => nset (d.thr i).regs (wAlu0 w / 2 ^ 10 % 32) v
        | _ => (d.thr i).regs } := by
  simp only [execWord, after_eq, at_get_bind, at_runNow_bind, hb, h1, hs, hm, hh, hp, hc, ht, hk, Nat.zero_div, Nat.zero_mod]
  simp only [Nat.reduceBEq, Bool.false_or, Bool.false_eq_true, if_false, at_pure_bind, Bool.false_and, Nat.reduceEqDiff, false_and,
    and_false, false_or, alu_zero, crcRefl_hashFeed_zero, List.append_nil, List.forIn_nil, ne_eq, not_true_eq_false]
  rcases alu (wAlu0 w / 2 ^ 15) _ _ _ with _ | ⟨v, carry, _ | _⟩
  all_goals
    simp only [at_modify_bind, at_modify, thr_setThr_same, if_true]
    exact atBreak_setThr run

/-! ### The slot table (R256, R257, R270) -/

section
variable (d : Dev) (n k : Nat) (l : List Nat)

theorem mem_of_inTurn {t : Nat} (h : d.inTurn n k l = some t) : t ∈ l :=
  List.contains_iff_mem.mp (List.find?_some h)

/-- The turn comes round to every thread of a core, so some thread of a list has it. -/
theorem not_mem_of_inTurn_none (h : d.inTurn n k l = none) {j : Nat} (hj : j < 16) : j ∉ l := by
  intro mem
  let last := (oget d.joinery.turn (n * 8 + k)).getD 15
  have comes : (last + 1 + (j + 15 * (last + 1)) % 16) % 16 = j := by omega
  refine List.find?_eq_none.mp h j (List.mem_map.mpr ⟨(j + 15 * (last + 1)) % 16, List.mem_range.mpr (by omega), comes⟩) ?_
  exact List.contains_iff_mem.mpr mem

/-- The threads of a core that can issue in a cycle. -/
def Dev.issuable (d : Dev) (n : Nat) (late : List Nat) : List Nat :=
  (List.range 16).filter fun t => (d.thr (n * 16 + t)).st == 1 && !(d.thr (n * 16 + t)).parked && !late.contains t

/-- The class that an entry of the slot table names. -/
def Dev.slotClass (d : Dev) (n entry : Nat) : Nat := byteAt (toBytes 64 ((oget d.joinery.slotTab n).getD 0)) (entry % 64)

theorem mem_issuable {late : List Nat} {t : Nat} : t ∈ d.issuable n late ↔
    t < 16 ∧ (d.thr (n * 16 + t)).st = 1 ∧ (d.thr (n * 16 + t)).parked = false ∧ t ∉ late := by
  simp only [Dev.issuable, List.mem_filter, List.mem_range, Bool.and_eq_true, beq_iff_eq, Bool.not_eq_true', List.contains_eq_mem,
    decide_eq_false_iff_not, and_assoc]

variable (entry : Nat) (late : List Nat)

/-- First the threads with an interrupt pending, then the classes from the entry's on. -/
theorem pickThread_eq : d.pickThread n entry late =
    (d.inTurn n 4 ((d.issuable n late).filter fun t => (d.thr (n * 16 + t)).urgent)).or
      ((List.range 4).findSome? fun j => d.inTurn n ((d.slotClass n entry + j) % 4)
        ((d.issuable n late).filter fun t => d.thrClass (n * 16 + t) == (d.slotClass n entry + j) % 4)) := by
  simp only [Dev.pickThread]
  split
  next h => exact (congrArg (Option.or · _) h).symm
  next h => exact (congrArg (Option.or · _) h).symm

variable {d n entry late} {t : Nat} (h : d.pickThread n entry late = some t)
include h

theorem pickThread_issuable : t ∈ d.issuable n late := by
  rw [pickThread_eq, Option.or_eq_some_iff] at h
  rcases h with urgent | ⟨_, slot⟩
  · exact (List.mem_filter.mp (mem_of_inTurn d n 4 _ urgent)).1
  · obtain ⟨j, _, turn⟩ := List.exists_of_findSome?_eq_some slot
    exact (List.mem_filter.mp (mem_of_inTurn d n _ _ turn)).1

theorem pickThread_urgent {j : Nat} (hj : j ∈ d.issuable n late) (pending : (d.thr (n * 16 + j)).urgent = true) :
    (d.thr (n * 16 + t)).urgent = true := by
  rw [pickThread_eq, Option.or_eq_some_iff] at h
  rcases h with urgent | ⟨absent, _⟩
  · exact (List.mem_filter.mp (mem_of_inTurn d n 4 _ urgent)).2
  · exact absurd (List.mem_filter.mpr ⟨hj, pending⟩) (not_mem_of_inTurn_none d n 4 _ absent ((mem_issuable d n).mp hj).1)

theorem pickThread_class {j : Nat} (calm : ∀ j ∈ d.issuable n late, (d.thr (n * 16 + j)).urgent = false) (hj : j ∈ d.issuable n late)
    (same : d.thrClass (n * 16 + j) = d.slotClass n entry) (cls : d.slotClass n entry < 4) :
    d.thrClass (n * 16 + t) = d.slotClass n entry := by
  rw [pickThread_eq, Option.or_eq_some_iff] at h
  rcases h with urgent | ⟨_, slot⟩
  · obtain ⟨ht, pending⟩ := List.mem_filter.mp (mem_of_inTurn d n 4 _ urgent)
    rw [calm t ht] at pending
    cases pending
  · rw [show List.range 4 = 0 :: [1, 2, 3] from rfl, List.findSome?_cons, Nat.add_zero, Nat.mod_eq_of_lt cls] at slot
    split at slot
    next u turn =>
      obtain rfl := Option.some.inj slot
      exact beq_iff_eq.mp (List.mem_filter.mp (mem_of_inTurn d n _ _ turn)).2
    next absent =>
      have mem : j ∈ (d.issuable n late).filter fun t => d.thrClass (n * 16 + t) == d.slotClass n entry :=
        List.mem_filter.mpr ⟨hj, beq_iff_eq.mpr same⟩
      exact absurd mem (not_mem_of_inTurn_none d n _ _ absent ((mem_issuable d n).mp hj).1)

end

/-! ### The commands -/

/-- A thread of a core of a Sill. -/
theorem thrSill_thread {n t : Nat} (ht : t < 16) : thrSill (n * 16 + t) = n / 16 := by
  rw [thrSill]; omega

theorem core_thread {n t : Nat} (ht : t < 16) : (n * 16 + t) / 16 = n := by omega

/-- The state once a word has taken effect on a device: a patch that waited for its threads is applied, an activated one goes on, and so do
the lists. -/
def State.worded (s : State) (k : Nat) (a : Dev × M Unit) : State :=
  s.on ((((a.1.after s.clk a.2).after s.clk (patchMaybe k)).after s.clk patchDrive).after s.clk listsGo)

theorem worded_mk (s : State) (k : Nat) (e : Dev) (f : M Unit) : s.worded k (e, f) =
    s.on ((((e.after s.clk f).after s.clk (patchMaybe k)).after s.clk patchDrive).after s.clk listsGo) := rfl

/-- The device at which a thread that a core picks issues. -/
def Dev.issuing (d : Dev) (c : Clock) (n t entry : Nat) : Dev :=
  ((d.passCycle n entry c.run).tookTurn n t).after c (cmdDrain (n / 16))

theorem atWord_issuing (d : Dev) (c : Clock) (n entry : Nat) {t : Nat} (ht : t < 16) :
    ((d.passCycle n entry c.run).tookTurn n t).atWord c (n * 16 + t) true = d.issuing c n t entry := by
  rw [atWord_issue, thrSill_thread ht]
  rfl

section
variable {s : State} {n t err entry : Nat} {late : List Nat}

section
variable (hn : n < 32) (ht : t < 16) (he : err < 3) (hy : entry < 64) (hl : late.all (· < 16) = true)
include hn ht he hy hl

theorem exec_microwordIssue_on : exec (.microwordIssue n t err entry late) s =
    .next (s.on ((s.dev.after s.clk (issueCycle n t err entry late)).after s.clk listsGo)) := by
  rw [← after_seq]
  exact exec_on (c := .microwordIssue n t err entry late) (decide_eq_true ⟨hn, ht, he, hy, hl⟩) rfl

/-- A thread that the slot table does not pick does not issue. -/
theorem exec_microwordIssue_other (other : (s.dev.passCycle n entry s.clk.run).pickThread n entry late ≠ some t) :
    exec (.microwordIssue n t err entry late) s = .next (s.on ((s.dev.passCycle n entry s.clk.run).after s.clk listsGo)) := by
  rw [exec_microwordIssue_on hn ht he hy hl]
  simp only [issueCycle, after_eq, at_runNow_bind, at_modify_bind, at_get_bind, other, if_false, at_pure]

variable (picked : (s.dev.passCycle n entry s.clk.run).pickThread n entry late = some t)
include picked

theorem exec_microwordIssue_picked : exec (.microwordIssue n t err entry late) s = .next (s.on
    ((((s.dev.passCycle n entry s.clk.run).tookTurn n t).after s.clk (wordStep (n * 16 + t) true err)).after s.clk listsGo)) := by
  rw [exec_microwordIssue_on hn ht he hy hl]
  simp only [issueCycle, after_eq, at_runNow_bind, at_modify_bind, at_get_bind, picked, if_true, at_set_bind]

theorem exec_microwordIssue_idle
    (free : (s.dev.issuing s.clk n t entry).taskOf (n / 16) ((s.dev.issuing s.clk n t entry).thr (n * 16 + t)).task = none) :
    exec (.microwordIssue n t err entry late) s = .next (s.on ((s.dev.issuing s.clk n t entry).after s.clk listsGo)) := by
  rw [← thrSill_thread ht, ← atWord_issuing _ _ _ _ ht] at free
  rw [exec_microwordIssue_picked hn ht he hy hl picked, after_wordStep_idle _ _ _ _ _ free, atWord_issuing _ _ _ _ ht]

theorem exec_microwordIssue_word {task : Task}
    (holds : (s.dev.issuing s.clk n t entry).taskOf (n / 16) ((s.dev.issuing s.clk n t entry).thr (n * 16 + t)).task = some task) :
    exec (.microwordIssue n t err entry late) s =
      .next (s.worded (n / 16) ((s.dev.issuing s.clk n t entry).wordAct (n * 16 + t) true err task)) := by
  rw [← thrSill_thread ht, ← atWord_issuing _ _ _ _ ht] at holds
  rw [exec_microwordIssue_picked hn ht he hy hl picked, after_wordStep_task _ _ _ _ _ _ holds, atWord_issuing _ _ _ _ ht,
    thrSill_thread ht, State.worded]

end

/-! The end of a wait (R252). -/

/-- The device at which the wait of a thread ends. -/
def Dev.waitEnding (d : Dev) (c : Clock) (n t : Nat) : Dev :=
  let g := d.after c (cmdDrain (n / 16))
  if (g.thr (n * 16 + t)).st = 2 then g.after c (cmdDone (n / 16) (g.cmdsOfThread (n * 16 + t))) else g

theorem atWord_waitEnding (d : Dev) (c : Clock) (n : Nat) {t : Nat} (ht : t < 16) :
    d.atWord c (n * 16 + t) false = d.waitEnding c n t := by
  rw [atWord_wait, thrSill_thread ht]
  rfl

section
variable (hn : n < 32) (ht : t < 16)
include hn ht

theorem exec_waitEnd_on : exec (.waitEnd n t) s = .next (s.on ((s.dev.after s.clk (waitEnd (n * 16 + t))).after s.clk listsGo)) := by
  rw [← after_seq]
  exact exec_on (c := .waitEnd n t) (decide_eq_true ⟨hn, ht⟩) rfl

/-- A thread that does not wait, or that a patch has parked, has no wait to end. -/
theorem exec_waitEnd_still (still : ¬((s.dev.thr (n * 16 + t)).waits = true ∧ (s.dev.thr (n * 16 + t)).parked = false)) :
    exec (.waitEnd n t) s = .next (s.on (s.dev.after s.clk listsGo)) := by
  rw [exec_waitEnd_on hn ht]
  simp only [waitEnd, after_eq, at_get_bind, Bool.not_eq_true', still, if_false, at_pure]

variable (waits : (s.dev.thr (n * 16 + t)).waits = true) (stays : (s.dev.thr (n * 16 + t)).parked = false)
include waits stays

theorem exec_waitEnd_waits :
    exec (.waitEnd n t) s = .next (s.on ((s.dev.after s.clk (wordStep (n * 16 + t) false 0)).after s.clk listsGo)) := by
  rw [exec_waitEnd_on hn ht]
  simp only [waitEnd, after_eq, at_get_bind, waits, stays, Bool.not_false, and_self, if_true]

theorem exec_waitEnd_idle
    (free : (s.dev.waitEnding s.clk n t).taskOf (n / 16) ((s.dev.waitEnding s.clk n t).thr (n * 16 + t)).task = none) :
    exec (.waitEnd n t) s = .next (s.on ((s.dev.waitEnding s.clk n t).after s.clk listsGo)) := by
  rw [← thrSill_thread ht, ← atWord_waitEnding _ _ _ ht] at free
  rw [exec_waitEnd_waits hn ht waits stays, after_wordStep_idle _ _ _ _ _ free, atWord_waitEnding _ _ _ ht]

theorem exec_waitEnd_word {task : Task}
    (holds : (s.dev.waitEnding s.clk n t).taskOf (n / 16) ((s.dev.waitEnding s.clk n t).thr (n * 16 + t)).task = some task) :
    exec (.waitEnd n t) s = .next (s.worded (n / 16) ((s.dev.waitEnding s.clk n t).wordAct (n * 16 + t) false 0 task)) := by
  rw [← thrSill_thread ht, ← atWord_waitEnding _ _ _ ht] at holds
  rw [exec_waitEnd_waits hn ht waits stays, after_wordStep_task _ _ _ _ _ _ holds, atWord_waitEnding _ _ _ ht,
    thrSill_thread ht, State.worded]

end
end

/-- Settles O41: a cycle by whether the slot table picks the thread, whether it holds a task, and what its word is; the end of a wait by the
same cases of the word (log entries 19 and 127). -/
theorem microwordsIssueOrWait : Obligations.MicrowordsIssueOrWait := by
  refine ⟨?issue, ?wait, ?picks, fun _ _ _ _ patch hb h1 hs hm hh hp hc ht hk run =>
    after_execWord_computes patch hb h1 hs hm hh hp hc ht hk run, fun a b imm _ _ => ⟨rfl, rfl, rfl, rfl, rfl, rfl, rfl, rfl⟩⟩
  case issue =>
    intro s n t err entry late hn ht he hy hl i k p d x issue
    refine ⟨exec_microwordIssue_other hn ht he hy hl, exec_microwordIssue_idle hn ht he hy hl, fun task picked holds => ?_⟩
    intro w patch rom int e go
    have word : issue = .next (s.worded k (d.wordAct i true err task)) := exec_microwordIssue_word hn ht he hy hl picked holds
    have hk : thrSill i = k := thrSill_thread ht
    have counts : d.issued i task = e := by rw [Dev.issued, core_thread ht]
    have hrom : d.atRoutine i task = true ↔ rom := by rw [atRoutine_iff, hk]
    have hint : d.interrupted i = true ↔ int := interrupted_iff d i
    clear_value d issue
    refine ⟨fun out => by rw [word, wordAct_outside out, worded_mk], fun inside hr => ?routine, fun inside hr => ?own⟩
    case routine =>
      rw [word, wordAct_routine inside (hrom.mpr hr)]
      refine ⟨fun bad => ?_, fun good hi => ?_, fun good hi => ?_⟩
      · rw [if_pos bad, worded_mk]
      · rw [if_neg good, if_pos (hint.mpr hi), worded_mk]
      · rw [if_neg good, if_neg (mt hint.mp hi), worded_mk]
    case own =>
      have hr := mt hrom.mp hr
      have few (h : x.since < 256) : ¬(true = true ∧ 256 ≤ (d.thr i).since) := fun m => absurd h (Nat.not_lt.mpr m.2)
      rw [word]
      refine ⟨fun long => ?_, fun f bad => ?_, fun f good refused => ?_, fun st f good legal waits => ?_, fun f good legal goes => ?_⟩
      · rw [wordAct_long inside hr long, counts, worded_mk]
      · rw [wordAct_bad inside hr (few f) bad, if_pos rfl, counts, worded_mk]
      · rw [wordAct_refused inside hr (few f) good (by rw [hk]; exact refused), if_pos rfl, counts, worded_mk]
      · rw [wordAct_waits inside hr (few f) good (by rw [hk]; exact legal) (by rw [hk]; exact waits), if_pos rfl, counts, hk, worded_mk]
      · rw [wordAct_effect inside hr (few f) good (by rw [hk]; exact legal) (by rw [hk]; exact goes), if_pos rfl, counts, hk, worded_mk]
  case wait =>
    intro s n t hn ht i k g d x wait
    refine ⟨exec_waitEnd_still hn ht, fun waits stays => ⟨exec_waitEnd_idle hn ht waits stays, fun task holds inside => ?_⟩⟩
    intro w patch rom int go
    have word : wait = .next (s.worded k (d.wordAct i false 0 task)) := exec_waitEnd_word hn ht waits stays holds
    have hk : thrSill i = k := thrSill_thread ht
    have hrom : d.atRoutine i task = true ↔ rom := by rw [atRoutine_iff, hk]
    have hint : d.interrupted i = true ↔ int := interrupted_iff d i
    have good : (0 : Nat) ≠ 1 := Nat.zero_ne_one
    clear_value d wait
    rw [word]
    refine ⟨fun hr => ?routine, fun hr legal => ?own⟩
    case routine =>
      rw [wordAct_routine inside (hrom.mpr hr), if_neg good]
      exact ⟨fun hi => by rw [if_pos (hint.mpr hi), worded_mk], fun hi => by rw [if_neg (mt hint.mp hi), worded_mk]⟩
    case own =>
      have hr := mt hrom.mp hr
      have few : ¬(false = true ∧ 256 ≤ (d.thr i).since) := fun m => Bool.noConfusion m.1
      refine ⟨fun st stops => ?_, fun goes => ?_⟩
      · rw [wordAct_waits inside hr few good (by rw [hk]; exact legal) (by rw [hk]; exact stops), if_neg Bool.false_ne_true, hk, worded_mk]
      · rw [wordAct_effect inside hr few good (by rw [hk]; exact legal) (by rw [hk]; exact goes), if_neg Bool.false_ne_true, hk, worded_mk]
  case picks =>
    intro d n t entry late h
    have mem {j : Nat} := mem_issuable d n (late := late) (t := j)
    refine ⟨mem.mp (pickThread_issuable h), ?_, ?_⟩
    · rintro ⟨j, hj, pending⟩
      exact pickThread_urgent h (mem.mpr hj) pending
    · rintro calm ⟨j, hj, same⟩ cls
      exact pickThread_class h (fun j hj => calm j (mem.mp hj)) (mem.mpr hj) same cls

end Sys2Proof.Machine
end

section
/-! Recovery and the debugger (R267, R274 to R278): threads that cannot go on, and threads that are halted. -/

namespace Sys2Proof.Machine

/-! ### Deadlock (R274) -/

section
variable {c : Clock} {d : Dev} {n i : Nat}

theorem thrSill_of_coreThreads (h : i ∈ d.coreThreads n) : thrSill i = n / 16 := by
  obtain ⟨mem, _⟩ := List.mem_filter.mp h
  obtain ⟨t, ht, rfl⟩ := List.mem_map.mp mem
  rw [Nat.add_comm]
  exact thrSill_thread (List.mem_range.mp ht)

theorem completionPending_iff : d.completionPending i = true ↔ d.cmdsOfThread i ≠ 0 ∨ i ∈ d.spawnsOf (thrSill i) ∨
    ∃ t, d.taskOf (thrSill i) (d.thr i).task = some t ∧ t.port = .sent := by
  rw [Dev.completionPending, Bool.or_eq_true, Bool.or_eq_true, bne_iff_ne, List.contains_iff_mem, or_assoc]
  refine or_congr_right (or_congr_right ?_)
  cases d.taskOf (thrSill i) (d.thr i).task with
  | none => simp
  | some t => simp

/-- A thread waits for what only another thread can give it. -/
def Dev.stuckThread (d : Dev) (i : Nat) : Bool :=
  [3, 4, 5].contains (d.thr i).st && !(d.thr i).granted && !d.completionPending i

theorem stuckThread_iff (h : i ∈ d.coreThreads n) : d.stuckThread i = true ↔ (d.thr i).st ∈ [3, 4, 5] ∧ (d.thr i).granted = false ∧
    ¬(d.cmdsOfThread i ≠ 0 ∨ i ∈ d.spawnsOf (n / 16) ∨ ∃ t, d.taskOf (n / 16) (d.thr i).task = some t ∧ t.port = .sent) := by
  rw [← thrSill_of_coreThreads h, ← completionPending_iff, Dev.stuckThread, Bool.and_eq_true, Bool.and_eq_true, List.contains_iff_mem,
    Bool.not_eq_true', Bool.not_eq_true', Bool.not_eq_true, and_assoc]

/-- All the threads of a core are stuck, and its detector is not paused. -/
def Dev.deadlocked (d : Dev) (n : Nat) : Prop :=
  d.coreThreads n ≠ [] ∧ (∀ i ∈ d.coreThreads n, d.stuckThread i = true) ∧ d.detectorPaused n = false

theorem deadlocked_iff : d.coreThreads n ≠ [] ∧ (d.coreThreads n).all d.stuckThread ∧ !d.detectorPaused n ↔ d.deadlocked n := by
  rw [Dev.deadlocked, List.all_eq_true, Bool.not_eq_true']

theorem after_deadlockDetect_stuck (h : d.deadlocked n) : d.after c (deadlockDetect n) = d.after c (recover n (d.coreThreads n) true) := by
  rw [deadlockDetect, after_eq, at_get_bind, at_ite]
  exact congrArg Prod.snd (if_pos (deadlocked_iff.mpr h))

theorem after_deadlockDetect_live (h : ¬d.deadlocked n) : d.after c (deadlockDetect n) = d := by
  rw [deadlockDetect, after_eq, at_get_bind, at_ite]
  exact congrArg Prod.snd (if_neg (mt deadlocked_iff.mp h))

/-! ### The wait limit (R275) -/

theorem after_clampWaitLimit_none (h : (d.thr i).st ≠ 3 ∨ d.waitsFor i = none) : d.after c (clampWaitLimit i) = d := by
  have none : (if (d.thr i).st = 3 then d.waitsFor i else none) = none := by
    rcases h with h | h
    · exact if_neg h
    · rw [h, ite_self]
  simp only [clampWaitLimit, after_eq, at_get_bind, none, at_pure]

variable {o : Nat} (hst : (d.thr i).st = 3) (ho : d.waitsFor i = some o)
include hst ho

theorem after_clampWaitLimit_halted (h : (d.thr o).st = 7) : d.after c (clampWaitLimit i) = d := by
  simp only [clampWaitLimit, after_eq, at_get_bind, hst, if_true, ho, h, ne_eq, not_true_eq_false, if_false, at_pure]

theorem after_clampWaitLimit_recovers (h : (d.thr o).st ≠ 7) : d.after c (clampWaitLimit i) =
    ((d.addO 0x3847 5 (i / 16) 1).after c (raiseEv (432 + i / 16) 0x3849 1 (i / 16) (i % 16) ((d.thr i).clamp.getD 0 % 4096))).after c
      (recover (i / 16) [i] false) := by
  simp only [clampWaitLimit, after_eq, at_get_bind, hst, if_true, ho, h, ne_eq, not_false_eq_true, at_incO_bind]
  simp only [at_bind]

end

/-! ### The SPAWN time-out (R267) -/

section
variable {c : Clock} {d : Dev} {i : Nat}

/-- The device once the SPAWN of a thread has timed out: the time is charged and told, and the thread leaves the queue. -/
def Dev.spawnFailed (d : Dev) (c : Clock) (i : Nat) : Dev :=
  (((d.addO 0x3846 1 (thrSill i * 8 + 6) ((c.run - (d.thr i).since0) / uNs)).addO 0x3846 2 (thrSill i) 1).after c
    (raiseLim (432 + i / 16) 0x3846 1 (i / 16) i (((d.taskOf (thrSill i) (d.thr i).task).map Task.kind).getD 0) 0 3)).unqueue i

theorem after_spawnTimeout_none (h : ¬((d.thr i).st = 6 ∧ (d.thr i).parked = false)) : d.after c (spawnTimeout i) = d := by
  simp only [spawnTimeout, after_eq, at_get_bind, at_runNow_bind, Bool.not_eq_true', h, if_false, at_pure]

variable (hst : (d.thr i).st = 6) (hp : (d.thr i).parked = false)
include hst hp

theorem after_spawnTimeout_word (h : d.romTask i = none) : d.after c (spawnTimeout i) = (d.spawnFailed c i).after c
    (execWord i (d.fetchWord (thrSill i) (d.thr i).pc).1 (d.fetchWord (thrSill i) (d.thr i).pc).2 true 0) := by
  simp only [spawnTimeout, after_eq, at_get_bind, at_runNow_bind, hst, hp, Bool.not_false, and_self, if_true, at_addO_bind, at_incO_bind, h,
    Dev.spawnFailed]
  simp only [at_bind, at_modify]

theorem after_spawnTimeout_routine {t : Task} (h : d.romTask i = some t) : d.after c (spawnTimeout i) =
    (((d.spawnFailed c i).setTask (thrSill i) { t with walk := t.walk + 1 }).setThr i
      { (d.spawnFailed c i).thr i with st := 1, failed := true }).after c (romRun i { t with walk := t.walk + 1 }) := by
  simp only [spawnTimeout, after_eq, at_get_bind, at_runNow_bind, hst, hp, Bool.not_false, and_self, if_true, at_addO_bind, at_incO_bind, h,
    Dev.spawnFailed]
  simp only [at_bind, at_modify]

end

/-! ### What the debugger does (R277, R278) -/

section
variable (c : Clock) (d : Dev) (i : Nat)

theorem at_dbgHalt : M.at (doing (dbgHalt i true)) c d =
    (0, if (d.thr i).busy = true ∧ (d.thr i).st ≠ 7 then d.setThr i { d.thr i with was := (d.thr i).st, st := 7 } else d) := by
  by_cases h : (d.thr i).busy = true ∧ (d.thr i).st ≠ 7
  · simp only [doing, dbgHalt, at_bind, at_get, h, and_self, ne_eq, not_false_eq_true, if_true, at_set, at_pure]
  · simp only [doing, dbgHalt, at_bind, at_get, h, and_false, if_false, Bool.not_true, Bool.false_eq_true, false_and, at_pure]

theorem at_dbgResume : M.at (doing (dbgHalt i false)) c d =
    (0, if (d.thr i).st = 7 then
      let e := d.setThr i { d.thr i with st := (d.thr i).was }
      if 2 ≤ (d.thr i).was then e.after c (takeInt i (d.thr i).pc) else e
    else d) := by
  by_cases h : (d.thr i).st = 7
  · by_cases waited : 2 ≤ (d.thr i).was
    · simp only [doing, dbgHalt, at_bind, at_get, h, waited, Bool.false_eq_true, false_and, if_false, Bool.not_false, true_and, if_true,
        at_set, at_pure, after_eq]
    · simp only [doing, dbgHalt, at_bind, at_get, h, waited, Bool.false_eq_true, false_and, if_false, Bool.not_false, true_and, if_true,
        at_set, at_pure]
  · simp only [doing, dbgHalt, at_bind, at_get, h, Bool.false_eq_true, false_and, if_false, and_false, at_pure]

variable {d i}

theorem at_dbgReg_runs (r v : Nat) (h : (d.thr i).st ≠ 7) : M.at (dbgReg i r v) c d = (0x701, d) := by
  simp only [dbgReg, at_get_bind, h, ne_eq, not_false_eq_true, if_true, at_pure]

theorem at_dbgReg_halted (r v : Nat) (h : (d.thr i).st = 7) :
    M.at (dbgReg i r v) c d = (0, d.setThr i { d.thr i with regs := nset (d.thr i).regs r v }) := by
  simp only [dbgReg, at_get_bind, h, ne_eq, not_true_eq_false, if_false, at_set_bind, at_pure]

theorem at_dbgAbandon_runs (h : (d.thr i).st ≠ 7) : M.at (dbgAbandon i) c d = (0x701, d) := by
  simp only [dbgAbandon, at_get_bind, h, ne_eq, not_false_eq_true, if_true, at_pure]

theorem at_dbgAbandon_halted (h : (d.thr i).st = 7) :
    M.at (dbgAbandon i) c d = (0, (d.partials i).foldl (fun e p => e.dropPartial p.1) d) := by
  simp only [dbgAbandon, at_get_bind, h, ne_eq, not_true_eq_false, if_false]
  rw [at_bind, at_forIn_modify, at_pure]

theorem at_dbgAbort_runs (h : (d.thr i).st ≠ 7) : M.at (dbgAbort i) c d = (0x701, d) := by
  simp only [dbgAbort, at_get_bind, h, ne_eq, not_false_eq_true, if_true, at_pure]

theorem at_dbgAbort_halted (h : (d.thr i).st = 7) :
    M.at (dbgAbort i) c d = (0, (d.after c (abortTask (thrSill i) (d.thr i).task true)).after c (patchMaybe (thrSill i))) := by
  simp only [dbgAbort, at_get_bind, h, ne_eq, not_true_eq_false, if_false]
  simp only [at_bind, at_pure, after_eq]

end

/-! ### Writes that the debug island serves (R15, R277) -/

/-- A window write that passes every check, of a plain object, ends with the status that its effect answers. -/
theorem after_winPut_status {s : State} {w ix sub i n v st : Nat} (r : ObjRow) {f : M Nat} {g : Dev → Dev}
    (h : s.writable w (okey ix sub i) (toBytes n v)) (hr : rowOf ix (sub % 256) = some r) (hs : r.staged = false) (hp : r.pegged = false)
    (ha : r.acc ≠ .w1c) (hb : baysObject ix = false) (hb' : ix ≠ 0x3430) (hv : v < 256 ^ n)
    (hf : plainWrite (w / 4) none (okey ix sub i) v [] = f)
    (hg : M.at f s.clk (s.dev.winBegin w (toBytes n v)) = (st, g (s.dev.winBegin w (toBytes n v)))) :
    s.on (s.dev.after s.clk (winPut w ix sub i n v)) = s.wrote w (okey ix sub i) (toBytes n v) st g := by
  rw [winPut_ok s w ix sub i n v r h hr hb hb', ofBytes_toBytes, Nat.mod_eq_of_lt hv, hs, hp]
  simp only [Bool.false_eq_true, if_false, ha, hf, hg]
  rfl

/-- Command `c` writes `v` to an object of the debugger, and the debug island serves the write by the effect `g`: a write that passes every
check answers 0701h while the island has stalled, and what `g` answers while it runs. -/
def State.Debugs (s : State) (c : Instr) (w sub i n v : Nat) (g : M Nat) : Prop :=
  s.writable w (okey 0x8400 sub i) (toBytes n v) →
    (3 ≤ s.dev.o 0x7010 1 677 → exec c s = .next (s.wrote w (okey 0x8400 sub i) (toBytes n v) 0x701 id)) ∧
    (∀ st f, s.dev.o 0x7010 1 677 < 3 → M.at g s.clk (s.dev.winBegin w (toBytes n v)) = (st, f (s.dev.winBegin w (toBytes n v))) →
      exec c s = .next (s.wrote w (okey 0x8400 sub i) (toBytes n v) st f))

theorem debugs_of_plainWrite {s : State} {c : Instr} {w sub i n v : Nat} {g : M Nat} (r : ObjRow)
    (he : exec c s = .next (s.on (s.dev.after s.clk (winPut w 0x8400 sub i n v)))) (hr : rowOf 0x8400 (sub % 256) = some r)
    (hs : r.staged = false) (hp : r.pegged = false) (ha : r.acc ≠ .w1c) (hv : v < 256 ^ n)
    (hf : plainWrite (w / 4) none (okey 0x8400 sub i) v [] = whileServed 677 g) : s.Debugs c w sub i n v g := by
  intro h
  have ends {st : Nat} {f : Dev → Dev} := after_winPut_status (st := st) (g := f) r h hr hs hp ha rfl (by decide) hv hf
  let begun := s.dev.winBegin w (toBytes n v)
  exact ⟨fun stalled => he.trans (congrArg _ (ends (f := id) (at_whileServed_stalled s.clk begun 677 g stalled))),
    fun st f runs answers => he.trans (congrArg _ (ends ((at_whileServed s.clk begun 677 g runs).trans answers)))⟩

theorem row_dbgHalt : rowOf 0x8400 (1 % 256) = some ⟨0x8400, 1, 512, .bool, .rw, .hm, .n, 0, .any⟩ := by decide +kernel
theorem row_dbgAbandon : rowOf 0x8400 (2 % 256) = some ⟨0x8400, 2, 512, .u 1, .wo, .hm, .n, 0, .codes [1]⟩ := by decide +kernel
theorem row_dbgAbort : rowOf 0x8400 (3 % 256) = some ⟨0x8400, 3, 512, .u 1, .wo, .hm, .n, 0, .codes [1]⟩ := by decide +kernel
theorem row_dbgReg : rowOf 0x8400 (4 % 256) = some ⟨0x8400, 4, 16384, .u 8, .rw, .hm, .n, 0, .any⟩ := by decide +kernel

section
variable (pl : Nat) (core : Option Nat) {i : Nat} (v : Nat) (fail : List Nat) (h : i < 16777216)
include h

theorem plainWrite_dbgHalt : plainWrite pl core (okey 0x8400 1 i) v fail = whileServed 677 (doing (dbgHalt i (v == 1))) := by
  rw [plainWrite, keyIndex_okey, keySub_okey, keyInst_okey, Nat.mod_eq_of_lt h]
  rfl

theorem plainWrite_dbgAbandon : plainWrite pl core (okey 0x8400 2 i) v fail = whileServed 677 (dbgAbandon i) := by
  rw [plainWrite, keyIndex_okey, keySub_okey, keyInst_okey, Nat.mod_eq_of_lt h]
  rfl

theorem plainWrite_dbgAbort : plainWrite pl core (okey 0x8400 3 i) v fail = whileServed 677 (dbgAbort i) := by
  rw [plainWrite, keyIndex_okey, keySub_okey, keyInst_okey, Nat.mod_eq_of_lt h]
  rfl

theorem plainWrite_dbgReg : plainWrite pl core (okey 0x8400 4 i) v fail = whileServed 677 (dbgReg (i / 32) (i % 32) v) := by
  rw [plainWrite, keyIndex_okey, keySub_okey, keyInst_okey, Nat.mod_eq_of_lt h]
  rfl

end

/-! ### The commands -/

section
variable (s : State) {w n t : Nat}

section
variable (hn : n < 32)
include hn

theorem exec_deadlockDetect_on :
    exec (.deadlockDetect n) s = .next (s.on ((s.dev.after s.clk (deadlockDetect n)).after s.clk listsGo)) := by
  rw [← after_seq]
  exact exec_on (c := .deadlockDetect n) (decide_eq_true hn) rfl

variable (ht : t < 16)
include ht

theorem exec_clampWaitLimit_on :
    exec (.clampWaitLimit n t) s = .next (s.on ((s.dev.after s.clk (clampWaitLimit (n * 16 + t))).after s.clk listsGo)) := by
  rw [← after_seq]
  exact exec_on (c := .clampWaitLimit n t) (decide_eq_true ⟨hn, ht⟩) rfl

theorem exec_spawnTimeout_on :
    exec (.spawnTimeout n t) s = .next (s.on ((s.dev.after s.clk (spawnTimeout (n * 16 + t))).after s.clk listsGo)) := by
  rw [← after_seq]
  exact exec_on (c := .spawnTimeout n t) (decide_eq_true ⟨hn, ht⟩) rfl

variable (hw : w < 8)
include hw

theorem debugs_dbgHalt : s.Debugs (.dbgHalt w n t) w 1 (n * 16 + t) 1 1 (doing (dbgHalt (n * 16 + t) true)) :=
  debugs_of_plainWrite _ (exec_on (decide_eq_true ⟨hw, by omega, ht⟩) rfl) row_dbgHalt rfl rfl (by decide) (by decide)
    (plainWrite_dbgHalt _ _ 1 _ (by omega))

theorem debugs_dbgResume : s.Debugs (.dbgResume w n t) w 1 (n * 16 + t) 1 0 (doing (dbgHalt (n * 16 + t) false)) :=
  debugs_of_plainWrite _ (exec_on (decide_eq_true ⟨hw, by omega, ht⟩) rfl) row_dbgHalt rfl rfl (by decide) (by decide)
    (plainWrite_dbgHalt _ _ 0 _ (by omega))

theorem debugs_dbgAbandon : s.Debugs (.dbgAbandon w n t) w 2 (n * 16 + t) 1 1 (dbgAbandon (n * 16 + t)) :=
  debugs_of_plainWrite _ (exec_on (decide_eq_true ⟨hw, by omega, ht⟩) rfl) row_dbgAbandon rfl rfl (by decide) (by decide)
    (plainWrite_dbgAbandon _ _ 1 _ (by omega))

theorem debugs_dbgAbort : s.Debugs (.dbgAbort w n t) w 3 (n * 16 + t) 1 1 (dbgAbort (n * 16 + t)) :=
  debugs_of_plainWrite _ (exec_on (decide_eq_true ⟨hw, by omega, ht⟩) rfl) row_dbgAbort rfl rfl (by decide) (by decide)
    (plainWrite_dbgAbort _ _ 1 _ (by omega))

theorem debugs_dbgRegWrite {r v : Nat} (hr : r < 32) (hv : v < 2 ^ 64) :
    s.Debugs (.dbgRegWrite w n t r v) w 4 ((n * 16 + t) * 32 + r) 8 v (dbgReg (n * 16 + t) r v) := by
  have reg : plainWrite (w / 4) none (okey 0x8400 4 ((n * 16 + t) * 32 + r)) v [] = whileServed 677 (dbgReg (n * 16 + t) r v) := by
    rw [plainWrite_dbgReg _ _ _ _ (by omega), show ((n * 16 + t) * 32 + r) / 32 = n * 16 + t by omega,
      show ((n * 16 + t) * 32 + r) % 32 = r by omega]
  exact debugs_of_plainWrite _ (exec_on (decide_eq_true ⟨hw, by omega, ht, hr, hv⟩) rfl) row_dbgReg rfl rfl (by decide) hv reg

end
end

/-- Settles O42: the detector by whether the core is deadlocked; the wait limit and the time-out by what the thread waits for; the debugger's
writes by whether its island runs and the thread is halted. -/
theorem threadsAreRecoveredAndDebugged : Obligations.ThreadsAreRecoveredAndDebugged := by
  refine ⟨?detector, ?limits, ?debugger⟩
  case detector =>
    intro s n hn d l pending stuck
    have same : stuck ↔ d.deadlocked n :=
      and_congr_right fun _ => and_congr_left fun _ => forall₂_congr fun i hi => (stuckThread_iff hi).symm
    refine ⟨fun h => ?_, fun h => ?_⟩
    · rw [exec_deadlockDetect_on s hn, after_deadlockDetect_stuck (same.mp h)]
    · rw [exec_deadlockDetect_on s hn, after_deadlockDetect_live (mt same.mpr h)]
  case limits =>
    intro s n t hn ht i d x ends
    have hk : thrSill i = n / 16 := thrSill_thread ht
    have hc : i / 16 = n := core_thread ht
    have limit : exec (.clampWaitLimit n t) s = ends (d.after s.clk (clampWaitLimit i)) := exec_clampWaitLimit_on s hn ht
    have timeout : exec (.spawnTimeout n t) s = ends (d.after s.clk (spawnTimeout i)) := exec_spawnTimeout_on s hn ht
    refine ⟨fun h => ?_, fun o hst ho h => ?_, fun o hst ho h => ?_, fun h => ?_, fun hst hp => ?_⟩
    · rw [limit, after_clampWaitLimit_none h]
    · rw [limit, after_clampWaitLimit_halted hst ho h]
    · rw [limit, after_clampWaitLimit_recovers hst ho h, hc, show i % 16 = t by omega]
    · rw [timeout, after_spawnTimeout_none h]
    · intro word kind g
      have failed : d.spawnFailed s.clk i = g := by rw [Dev.spawnFailed, hk, hc]
      refine ⟨fun h => ?_, fun task h => ?_⟩
      · rw [timeout, after_spawnTimeout_word hst hp h, failed, hk]
      · rw [timeout, after_spawnTimeout_routine hst hp h, failed, hk]
  case debugger =>
    intro s w n t hw hn ht i d x down key ok ans
    have halt := debugs_dbgHalt s hn ht hw
    have resume := debugs_dbgResume s hn ht hw
    have abandon := debugs_dbgAbandon s hn ht hw
    have abort := debugs_dbgAbort s hn ht hw
    refine ⟨fun stalled => ⟨fun h => (halt h).1 stalled, fun h => (resume h).1 stalled, fun h => (abandon h).1 stalled,
      fun h => (abort h).1 stalled⟩, fun runs => ?_, fun r v hr hv h => ?_⟩
    · have runs := Nat.not_le.mp runs
      refine ⟨fun h => (halt h).2 0 _ runs (at_dbgHalt _ _ _), fun h => (resume h).2 0 _ runs (at_dbgResume _ _ _),
        fun h => ⟨fun hx => (abandon h).2 _ id runs (at_dbgAbandon_runs _ hx), fun hx => (abandon h).2 0 _ runs ?_⟩,
        fun h => ⟨fun hx => (abort h).2 _ id runs (at_dbgAbort_runs _ hx), fun hx => (abort h).2 0 _ runs ?_⟩⟩
      · exact at_dbgAbandon_halted _ hx
      · rw [← thrSill_thread ht]
        exact at_dbgAbort_halted _ hx
    · have reg := debugs_dbgRegWrite s hn ht hw hr hv h
      refine ⟨fun out => ?_, fun runs hx => reg.2 0 _ (Nat.not_le.mp runs) (at_dbgReg_halted _ r v hx)⟩
      by_cases stalled : down
      · exact reg.1 stalled
      · exact reg.2 _ id (Nat.not_le.mp stalled) (at_dbgReg_runs _ r v (out.resolve_left stalled))

end Sys2Proof.Machine
end
